-- ==== Sys2Proof/Word.lean ====
section
/-! DEFINITION. The word types of the G9 and the names of its stores.

Registers and instruction words are bit vectors (R8, R12); an address used as the key of a memory
cell is a plain `Nat`. -/

namespace Sys2Proof

/-- A 32-bit register or instruction word (R8, R61). -/
abbrev Word := BitVec 32

/-- One byte (R9). -/
abbrev Byte := BitVec 8

/-- The address spaces that hold bytes: package physical memory (R355), the local stores of a core
(R175: the weight store, accumulator store and operand slots are kernel relative by R176, so they
also name the grid that holds the reservation), what a retired block left in its scratch for its engine operations (log 70),
the two banks of its activation table (R121), the granted flash namespace of tier 2 (R355), the
Yew store and the NVMe namespace of checkpoints (R411), and the local memory of a die's command
processor (R305). -/
inductive Space where
  | phys
  | scratch (die pos : Nat)
  | weight (die pos grid : Nat)
  | acc (die pos grid : Nat)
  | slot (die pos grid slot : Nat)
  | left (grid blk : Nat)
  | bank (die pos b : Nat)
  | flash
  | yew
  | nvme
  | cpLocal (die : Nat)
  deriving DecidableEq, Repr

end Sys2Proof
end

