-- ==== Sys2Proof/Syntax.lean ====
section
/-! DEFINITION. The one instruction type: a constructor for every row of spec/opcode_table.json.

Rows with a word carry the word's raw fields at the width the encoding gives them (R61, R66; R304 for
the Xlorekq rows).  Rows without a word are steps of the part (95_what_each_step_holds.md): they name
the place where the step happens and, where the outside world acts, what it writes.  Field names are
those of the table; `la` is the lookahead (R69), `grp` 8 is the warp group and 0 to 7 the sprig of that
quad (R31).  A payload entry of a flit is a mask of the sector's eight words with the 32 bytes. -/

namespace Sys2Proof

/-- One constructor per row of spec/opcode_table.json; the comment of each is the row's rule. -/
inductive Instr where
  | add (d a b : BitVec 7)  -- R83
  | sub (d a b : BitVec 7)  -- R83
  | and (d a b : BitVec 7)  -- R83
  | or (d a b : BitVec 7)  -- R83
  | xor (d a b : BitVec 7)  -- R83
  | andn (d a b : BitVec 7)  -- R83
  | shl (d a b : BitVec 7)  -- R83
  | shr (d a b : BitVec 7)  -- R83
  | sra (d a b : BitVec 7)  -- R83
  | rotl (d a b : BitVec 7)  -- R83
  | min (d a b : BitVec 7)  -- R83
  | max (d a b : BitVec 7)  -- R83
  | minu (d a b : BitVec 7)  -- R83
  | maxu (d a b : BitVec 7)  -- R83
  | addsat (d a b : BitVec 7)  -- R83
  | subsat (d a b : BitVec 7)  -- R83
  | uadd (d a b : BitVec 7)  -- R83
  | usub (d a b : BitVec 7)  -- R83
  | uand (d a b : BitVec 7)  -- R83
  | uor (d a b : BitVec 7)  -- R83
  | uxor (d a b : BitVec 7)  -- R83
  | uandn (d a b : BitVec 7)  -- R83
  | ushl (d a b : BitVec 7)  -- R83
  | ushr (d a b : BitVec 7)  -- R83
  | usra (d a b : BitVec 7)  -- R83
  | urotl (d a b : BitVec 7)  -- R83
  | umin (d a b : BitVec 7)  -- R83
  | umax (d a b : BitVec 7)  -- R83
  | uminu (d a b : BitVec 7)  -- R83
  | umaxu (d a b : BitVec 7)  -- R83
  | uaddsat (d a b : BitVec 7)  -- R83
  | usubsat (d a b : BitVec 7)  -- R83
  | mul (d a b : BitVec 7)  -- R84
  | mulhi (d a b : BitVec 7)  -- R84
  | mulhu (d a b : BitVec 7)  -- R84
  | dot4s (d a b : BitVec 7)  -- R84
  | dot4u (d a b : BitVec 7)  -- R84
  | popc (d a : BitVec 7)  -- R84
  | clz (d a : BitVec 7)  -- R84
  | ctz (d a : BitVec 7)  -- R84
  | brev (d a : BitVec 7)  -- R84
  | abs (d a : BitVec 7)  -- R84
  | lea (d a b : BitVec 7) (k : BitVec 3)  -- R85
  | leas (d a b : BitVec 7) (k : BitVec 3)  -- R85
  | addc (d a b : BitVec 7) (q : BitVec 4)  -- R86
  | subc (d a b : BitVec 7) (q : BitVec 4)  -- R86
  | cmp (p a b : BitVec 7) (c : BitVec 5)  -- R94
  | pand (d a b : BitVec 7)  -- R95
  | por (d a b : BitVec 7)  -- R95
  | pxor (d a b : BitVec 7)  -- R95
  | pandn (d a b : BitVec 7)  -- R95
  | pnot (d a : BitVec 7)  -- R95
  | pmov (d a : BitVec 7)  -- R95
  | pset (d : BitVec 7)  -- R95
  | pclr (d : BitVec 7)  -- R95
  | sel (d a b : BitVec 7) (p : BitVec 4)  -- R96
  | seln (d a b : BitVec 7) (p : BitVec 4)  -- R96
  | div (la : BitVec 4) (d a b : BitVec 7)  -- R92
  | divu (la : BitVec 4) (d a b : BitVec 7)  -- R92
  | rem (la : BitVec 4) (d a b : BitVec 7)  -- R92
  | remu (la : BitVec 4) (d a b : BitVec 7)  -- R92
  | addi (d a : BitVec 7) (i : BitVec 12)  -- R87
  | andi (d a : BitVec 7) (i : BitVec 12)  -- R87
  | ori (d a : BitVec 7) (i : BitVec 12)  -- R87
  | xori (d a : BitVec 7) (i : BitVec 12)  -- R87
  | shli (d a : BitVec 7) (n : BitVec 5)  -- R88
  | shri (d a : BitVec 7) (n : BitVec 5)  -- R88
  | srai (d a : BitVec 7) (n : BitVec 5)  -- R88
  | rotli (d a : BitVec 7) (n : BitVec 5)  -- R88
  | bfx (d a : BitVec 7) (len1 pos : BitVec 5)  -- R89
  | bfxs (d a : BitVec 7) (len1 pos : BitVec 5)  -- R89
  | bfi (d a : BitVec 7) (len1 pos : BitVec 5)  -- R89
  | movi (d : BitVec 7) (i : BitVec 19)  -- R90
  | movhi (d : BitVec 7) (i : BitVec 19)  -- R90
  | uaddi (d a : BitVec 7) (i : BitVec 12)  -- R87
  | umovi (d : BitVec 7) (i : BitVec 19)  -- R90
  | bcast (d a : BitVec 7)  -- R97
  | rdfirst (d a : BitVec 7)  -- R97
  | fadd (d a b : BitVec 7) (m : BitVec 2)  -- R112
  | fsub (d a b : BitVec 7) (m : BitVec 2)  -- R112
  | fmul (d a b : BitVec 7) (m : BitVec 2)  -- R112
  | fmin (d a b : BitVec 7)  -- R115
  | fmax (d a b : BitVec 7)  -- R115
  | ffma (d a b : BitVec 7) (m : BitVec 2)  -- R112
  | ffms (d a b : BitVec 7) (m : BitVec 2)  -- R112
  | ffnma (d a b : BitVec 7) (m : BitVec 2)  -- R112
  | bfadd2 (d a b : BitVec 7) (m : BitVec 2)  -- R112
  | bfsub2 (d a b : BitVec 7) (m : BitVec 2)  -- R112
  | bfmul2 (d a b : BitVec 7) (m : BitVec 2)  -- R112
  | bfmin2 (d a b : BitVec 7)  -- R115
  | bfmax2 (d a b : BitVec 7)  -- R115
  | bffma2 (d a b : BitVec 7) (m : BitVec 2)  -- R112
  | bffms2 (d a b : BitVec 7) (m : BitVec 2)  -- R112
  | bffnma2 (d a b : BitVec 7) (m : BitVec 2)  -- R112
  | fcmp (p a b : BitVec 7) (c : BitVec 4)  -- R116
  | fabs (d a : BitVec 7)  -- R117
  | fneg (d a : BitVec 7)  -- R117
  | fclass (d a : BitVec 7)  -- R117
  | bfabs2 (d a : BitVec 7)  -- R117
  | bfneg2 (d a : BitVec 7)  -- R117
  | rcp (d a : BitVec 7)  -- R119
  | rsqrt (d a : BitVec 7)  -- R119
  | sqrt (d a : BitVec 7)  -- R119
  | exp2 (d a : BitVec 7)  -- R119
  | log2 (d a : BitVec 7)  -- R119
  | sin (d a : BitVec 7)  -- R119
  | cos (d a : BitVec 7)  -- R119
  | sfe (d a : BitVec 7)  -- R122
  | sfe2 (d a : BitVec 7)  -- R123
  | tblld (a : BitVec 7)  -- R124
  | tblsw  -- R125
  | cvt (d a : BitVec 7) (m : BitVec 1) (r : BitVec 2) (s t : BitVec 4)  -- R128
  | cvto (d a b : BitVec 7) (s : BitVec 1) (q : BitVec 4)  -- R130
  | flrd (d : BitVec 7)  -- R111
  | flclr (m : BitVec 7)  -- R111
  | ldg (la : BitVec 4) (d a : BitVec 7) (o : BitVec 5) (s : BitVec 3)  -- R139
  | lds (la : BitVec 4) (d a : BitVec 7) (o : BitVec 5) (s : BitVec 3)  -- R139
  | ldh (la : BitVec 4) (d a : BitVec 7) (o : BitVec 5) (s : BitVec 3)  -- R139
  | stg (la : BitVec 4) (d a : BitVec 7) (i : BitVec 1) (o : BitVec 4) (s : BitVec 3)  -- R139
  | sts (la : BitVec 4) (d a : BitVec 7) (i : BitVec 1) (o : BitVec 4) (s : BitVec 3)  -- R139
  | sth (la : BitVec 4) (d a : BitVec 7) (i : BitVec 1) (o : BitVec 4) (s : BitVec 3)  -- R139
  | ldsys (la : BitVec 4) (d a : BitVec 7) (o : BitVec 4) (s : BitVec 3)  -- R144
  | stsys (la : BitVec 4) (d a : BitVec 7) (o : BitVec 4) (s : BitVec 3)  -- R144
  | pfl1 (la : BitVec 4) (a : BitVec 7)  -- R145
  | pfl2 (la : BitVec 4) (a : BitVec 7)  -- R145
  | evl1 (la : BitVec 4) (a : BitVec 7)  -- R145
  | atomg (la : BitVec 4) (d a : BitVec 7) (r : BitVec 1) (s : BitVec 2) (w : BitVec 1) (o : BitVec 4)  -- R272
  | atoms (la : BitVec 4) (d a : BitVec 7) (r w : BitVec 1) (o : BitVec 4)  -- R272
  | atomh (la : BitVec 4) (d a : BitVec 7) (r w : BitVec 1) (o : BitVec 4)  -- R272
  | barw (la : BitVec 4)  -- R213
  | barb (la : BitVec 4)  -- R213
  | barc (la : BitVec 4) (k : BitVec 3)  -- R269
  | barg (la : BitVec 4) (k : BitVec 2)  -- R322
  | tbinit (la : BitVec 4) (a b : BitVec 7)  -- R209
  | tbarr (la : BitVec 4) (a : BitVec 7)  -- R209
  | tbarrOne (la : BitVec 4) (a : BitVec 7)  -- R209
  | tbexp (la : BitVec 4) (a b : BitVec 7)  -- R209
  | tbwait (la : BitVec 4) (a b : BitVec 7)  -- R210
  | fenceEng (d : BitVec 7)  -- R296
  | fenceSys (d : BitVec 7)  -- R296
  | fenceMir (d : BitVec 7)  -- R296
  | fenceAll (d : BitVec 7)  -- R296
  | fwait (a : BitVec 7)  -- R298
  | waitcLd (n : BitVec 6)  -- R301
  | waitcSt (n : BitVec 6)  -- R301
  | xlaneAt (d a b : BitVec 7)  -- R216
  | xlaneBack (d a b : BitVec 7)  -- R216
  | xlaneFwd (d a b : BitVec 7)  -- R216
  | xlaneSwz (d a b : BitVec 7)  -- R216
  | push (d a b : BitVec 7)  -- R217
  | scanAdd (d a : BitVec 7)  -- R218
  | scanAddx (d a : BitVec 7)  -- R218
  | scanMin (d a : BitVec 7)  -- R218
  | scanMax (d a : BitVec 7)  -- R218
  | pgath (d a : BitVec 7)  -- R218
  | pall (d a : BitVec 7)  -- R218
  | pany (d a : BitVec 7)  -- R218
  | lsame (d a : BitVec 7)  -- R218
  | lsameAll (d a : BitVec 7)  -- R218
  | lfoldAdd (d a : BitVec 7)  -- R218
  | lfoldMin (d a : BitVec 7)  -- R218
  | lfoldMax (d a : BitVec 7)  -- R218
  | lfoldAnd (d a : BitVec 7)  -- R218
  | lfoldOr (d a : BitVec 7)  -- R218
  | lfoldXor (d a : BitVec 7)  -- R218
  | cpy (la : BitVec 4) (a b : BitVec 7) (n : BitVec 1) (r z : BitVec 2)  -- R203
  | tld (la : BitVec 4) (a b : BitVec 7) (x : BitVec 3)  -- R206
  | tst (la : BitVec 4) (a b : BitVec 7) (x : BitVec 3)  -- R206
  | mcast (la : BitVec 4) (a b : BitVec 7)  -- R267
  | slotClaim (la k : BitVec 4)  -- R211
  | slotRel (la k : BitVec 4)  -- R211
  | spawn (a b : BitVec 7)  -- R197
  | idem  -- R199
  | idemx  -- R199
  | yield (i : BitVec 12)  -- R200
  | lxbase (d a : BitVec 7)  -- R201
  | lxext0 (d a : BitVec 7)  -- R201
  | lxext1 (d a : BitVec 7)  -- R201
  | lxext2 (d a : BitVec 7)  -- R201
  | lxext3 (d a : BitVec 7)  -- R201
  | gkset (a : BitVec 7)  -- R222
  | gkrd (d : BitVec 7)  -- R222
  | mma (la : BitVec 4) (a b : BitVec 7) (f s : BitVec 3)  -- R225
  | accld (la : BitVec 4) (d a : BitVec 7) (s : BitVec 3)  -- R233
  | accst (la : BitVec 4) (d a : BitVec 7) (f : BitVec 3)  -- R234
  | mmack (la : BitVec 4) (d : BitVec 7)  -- R231
  | mmackCut (la : BitVec 4) (d : BitVec 7)  -- R231
  | tdec (la : BitVec 4) (a b : BitVec 7) (f : BitVec 3)  -- R235
  | tdecQ (la : BitVec 4) (a : BitVec 7) (f : BitVec 3)  -- R235
  | venc (la : BitVec 4) (a b : BitVec 7) (f : BitVec 3)  -- R239
  | twget (la : BitVec 4) (d a : BitVec 7) (f : BitVec 3)  -- R238
  | bra (c : BitVec 4) (o : BitVec 22)  -- R98
  | call (c : BitVec 4) (o : BitVec 22)  -- R98
  | jmp (a : BitVec 7)  -- R101
  | callr (a : BitVec 7)  -- R101
  | ret  -- R101
  | exit  -- R102
  | fuse  -- R33
  | trap (c : BitVec 7)  -- R104
  | guard (p n : BitVec 7)  -- R72
  | guardN (p n : BitVec 7)  -- R72
  | loop (d a b : BitVec 7)  -- R194
  | loopLong (d a b : BitVec 7)  -- R194
  | brk (d : BitVec 7)  -- R196
  | wbase (n : BitVec 7)  -- R105
  | movs (d s : BitVec 7)  -- R106
  | nop  -- R107
  | pshare (a b : BitVec 7)  -- R366
  | pshareRo (a b : BitVec 7)  -- R366
  | prel (a b : BitVec 7)  -- R366
  | pq (a d : BitVec 7)  -- R367
  | nput (a b : BitVec 7) (w : BitVec 6)  -- R398
  | nget (a b : BitVec 7) (w : BitVec 6)  -- R398
  | ncoll (a b : BitVec 7) (w : BitVec 6)  -- R403
  | nscmax (a b : BitVec 7) (w : BitVec 6)  -- R403
  | nsum (a b : BitVec 7) (w : BitVec 6)  -- R405
  | dxfer (a : BitVec 7)  -- R318
  | sigst (a b : BitVec 7)  -- R317
  | sigadd (a b : BitVec 7)  -- R317
  | xrf (s d : BitVec 5)  -- R305
  | xbfx (i : BitVec 12) (s d : BitVec 5)  -- R305
  | xsw (t s d : BitVec 5)  -- R305
  | xdisp (s d : BitVec 5)  -- R305
  | xjr (t s d : BitVec 5)  -- R305
  | schedulingDecision (die pos laneSet : Nat)  -- R166
  | quadSplit (die pos slot quad : Nat)  -- R31
  | pathForced (die pos slot grp : Nat) (pc : BitVec 52)  -- R30
  | fuseHoldExpiry (die pos slot : Nat) (pc : BitVec 52)  -- R33
  | bedTimerExpiry (die pos bed : Nat)  -- R36
  | bedLaunch (die pos bed : Nat)  -- R171
  | watchdogExpiry (die pos slot : Nat)  -- R251
  | divideResult (op : Nat)  -- R93
  | loadDataReturn (op lane : Nat)  -- R141
  | storePerformed (op lane : Nat)  -- R143
  | atomicElementApply (op lane : Nat)  -- R272
  | hoodAccessArrival (op lane : Nat)  -- R265
  | signalInstructionUpdate (op : Nat)  -- R317
  | clusterStopped (die cl : Nat)  -- R279
  | pathReplay (die pos slot rec : Nat)  -- R150
  | faultRecordPost (die : Nat)  -- R324
  | copyUnitPerformed (op lane : Nat)  -- R204
  | tensorCopyPart (op part : Nat)  -- R208
  | mcastChunk (op recv chunk : Nat)  -- R268
  | mmaKstepComplete (op : Nat)  -- R228
  | arrayHangReset (op : Nat)  -- R253
  | tdecSector (op sector : Nat)  -- R236
  | tdecQRow (op : Nat)  -- R237
  | vencBlock (op : Nat)  -- R240
  | accstSector (op sector : Nat)  -- R234
  | accldRead (op lane : Nat)  -- R233
  | twgetResult (op lane : Nat)  -- R238
  | tblldCopy (die pos entry : Nat)  -- R124
  | packageReset  -- R386
  | bootRomReady  -- R386
  | fwrangeWrite (v : BitVec 64)  -- R377
  | firmwareVerify  -- R379
  | feataccWrite (k : Nat) (v : BitVec 32)  -- R383
  | memcfgWrite (v : BitVec 32)  -- R391
  | keypolWrite (v : BitVec 32)  -- R391
  | ctxheapWrite (size : Bool) (v : BitVec 64)  -- R336
  | heapbwWrite (v : BitVec 32)  -- R336
  | vfsliceWrite (v : BitVec 32)  -- R391
  | pwrcapWrite (v : BitVec 32)  -- R387
  | qdescBaseWrite (die : Nat) (v : BitVec 64)  -- R391
  | mircfgWrite (v : BitVec 64)  -- R407
  | clkindWrite (die : Nat) (v : BitVec 32)  -- R161
  | clusterRebind (die : Nat)  -- R161
  | tlbinvWrite (v : BitVec 128)  -- R361
  | tlbinvComplete  -- R361
  | pooladdWrite (v : BitVec 64)  -- R363
  | rcwinWrite (frame : Nat) (v : BitVec 16)  -- R362
  | confwatchWrite (die i : Nat) (v : BitVec 128)  -- R345
  | hooddropClear (die cl : Nat)  -- R265
  | ringBaseWrite (die ring : Nat) (v : BitVec 64)  -- R389
  | ringConsWrite (die ring : Nat) (v : BitVec 64)  -- R389
  | migtailWrite (die : Nat) (v : BitVec 64)  -- R389
  | registerWrite (fn offset : Nat) (v : BitVec 128)  -- R10
  | qtailWrite (die q : Nat) (v : BitVec 64)  -- R309: the die, plus 4 × (n + 1) from the pages of virtual function n (R388)
  | queueStart (die q : Nat)  -- R325
  | queueReset (die q : Nat)  -- R325
  | queueResetReport (die : Nat)  -- R325
  | faultreplyResume (die : Nat) (seq : BitVec 32)  -- R324
  | faultreplyKill (die : Nat) (seq : BitVec 32)  -- R324
  | signotifyWrite (die : Nat) (v : BitVec 64)  -- R315
  | debugGo (die cl : Nat) (v : BitVec 32)  -- R280
  | debugStep (die cl : Nat) (v : BitVec 32)  -- R281
  | dbgaccRead (die cl : Nat) (v : BitVec 64)  -- R282
  | dbgaccWrite (die cl : Nat) (v : BitVec 64)  -- R282
  | checkpointSave (cmd : Nat)  -- R412
  | checkpointRestore (cmd : Nat)  -- R413
  | checkpointComplete  -- R411
  | getVersion  -- R380
  | getCapabilities  -- R380
  | negotiateAlgorithms  -- R380
  | getDigests  -- R380
  | getCertificate  -- R380
  | challenge  -- R380
  | getMeasurements (signed inSession : Bool)  -- R381
  | keyExchange  -- R380
  | finish  -- R380
  | keyrel (inSession : Bool) (gen : BitVec 32) (pairs : List (BitVec 16 × BitVec 256))  -- R382
  | unsupportedRequest (code : BitVec 8)  -- R380
  | worldSwitch  -- R384
  | functionLevelReset (vf : Nat)  -- R384
  | peerMemoryAccess (write : Bool) (pa : Nat) (bytes : List (BitVec 8))  -- R294
  | packetDispatch (die q : Nat)  -- R313
  | packetBarrier (die q : Nat)  -- R313
  | barrierReevaluate (die q packet : Nat)  -- R313
  | barrierRereadTimeout (die q packet : Nat)  -- R315
  | packetSignal (die q : Nat)  -- R313
  | packetDieTransfer (die q : Nat)  -- R313
  | dieTransferPart (op part : Nat)  -- R313
  | completionSignalUpdate (die upd : Nat)  -- R314
  | gridBarrierBlockArrival (grid blk k : Nat)  -- R322
  | schedulerCoreFailed (die core : Nat)  -- R307
  | standbyTakeover (die : Nat)  -- R307
  | placementRound (die : Nat)  -- R327
  | restoreListEntry (die pos : Nat)  -- R248
  | neighbourhoodStarving (die grid hood : Nat)  -- R328
  | saveCapture (grid hood : Nat)  -- R245
  | saveToDrain (grid hood : Nat)  -- R332
  | blockFlush (grid hood : Nat)  -- R250
  | contextSaved (ctx : Nat)  -- R337
  | contextDiscard (ctx : Nat)  -- R341
  | partialCompletionRecord (die : Nat)  -- R348
  | coppiceSlot (die cl : Nat)  -- R342
  | coppiceScanStart (die pos : Nat)  -- R342
  | coppiceScanDone (die pos : Nat) (bad : List Nat)  -- R342
  | suspectReport (die : Nat)  -- R346
  | confirmedShadowCopy (die i : Nat)  -- R345
  | uncorrectableError (sp : Space) (addr : Nat)  -- R347: [51:0] address; as R375 has them, [55:52] src, [56] metadata, [68:57] ASID
  | copyOnWriteResolution (die : Nat) (asid : BitVec 12) (vpage : Nat)  -- R368
  | tierMove (die : Nat) (asid : BitVec 12) (vpage : Nat) (readError : Bool)  -- R370
  | migrationCommand (die : Nat)  -- R371
  | demotionCopyDone (die : Nat)  -- R371
  | ngurothPutFlit (port : Nat) (hdr : BitVec 256) (pay : List (BitVec 8 × BitVec 256))  -- R400
  | getRequest (port : Nat) (hdr : BitVec 256) (pay : List (BitVec 8 × BitVec 256))  -- R397
  | getData (port : Nat) (hdr : BitVec 256) (pay : List (BitVec 8 × BitVec 256)) (op sector err : Nat)  -- R400
  | acknowledgement (port : Nat) (hdr : BitVec 256) (op sector err : Nat)  -- R400
  | combine (port : Nat) (hdr : BitVec 256) (pay : List (BitVec 8 × BitVec 256))  -- R404
  | remoteSignalFlit (port : Nat) (hdr : BitVec 256)  -- R400
  | mirrorFlit (port : Nat) (hdr : BitVec 256) (pay : List (BitVec 8 × BitVec 256))  -- R408
  | mirrorAck (id : Nat)  -- R295
  | mirrorAckTimeout  -- R409
  | sectorAckTimeout (op sector : Nat)  -- R409
  | portDown (port : Nat)  -- R409
  | systemStoreAcknowledged (op lane : Nat) (err : Bool)  -- R293
  | xswWaitTimeout (die core : Nat)  -- R305
  | portUp (port : Nat)  -- R395
  deriving DecidableEq, Repr

end Sys2Proof
end

