-- ==== Sys2Proof/Machine/State.lean ====
section
/-! DEFINITION. The state of a G9 package, all of it plain data, and the reasons a step can stop.

Collections are sparse lists: what a list does not hold has the value that `State.reset` and the
accessors of Machine/Ops.lean give it.  Widths follow the tables of the rules cited; counts, ids and
times that no program sees as a word are `Nat`. -/

namespace Sys2Proof.Machine

/-- An exact value (R12, R41): a NaN (signalling or not), an infinity, or `± m × 2 ^ e`. -/
inductive Num where
  | nan (signalling : Bool)
  | inf (neg : Bool)
  | fin (neg : Bool) (m : Nat) (e : Int)
  deriving DecidableEq, Repr

/-- A physical per-thread register: register `i` of the allocation, or `g i` (R19, R20). -/
inductive Loc where
  | v (i : Nat)
  | g (i : Nat)
  deriving DecidableEq, Repr

/-- Where the bytes of a unit lie: a virtual address of an ASID, or a store and a byte of it. -/
inductive Place where
  | virt (asid : Nat) (va : Nat)
  | at (sp : Space) (addr : Nat)
  deriving DecidableEq, Repr

/-- The barriers at which a thread arrives (R213, R269, R322). -/
inductive Bar where
  | w
  | b
  | c (k : Nat)
  | g (k : Nat)
  deriving DecidableEq, Repr

/-- What a thread that does not issue waits for (R28).  Waits that an instruction makes before it
issues are no part of this: the scheduler decides them from the instruction (R28). -/
inductive Wait where
  | none
  | bar (k : Bar)
  | loopHold (level : Nat)
  | fuse (since : Nat)
  | parked
  | latch
  | signal (op : Nat)
  | stopped
  deriving DecidableEq, Repr

/-- A thread slot of a warp: never occupied, running, exited (R102), or removed by a split (R416). -/
inductive Life where
  | absent
  | live
  | exited
  | removed
  deriving DecidableEq, Repr

/-- One long-latency instruction of a thread (R69, R70): its operation, the instructions left in its
window, whether its results are written and its operands captured, and its protected registers. -/
structure Owed where
  op : Nat
  rem : Nat
  done : Bool
  wr : List Loc
  rd : List Loc
  deriving DecidableEq, Repr

/-- Pending accesses that must be performed first: an operation and the lanes of it that count. -/
structure After where
  op : Nat
  lanes : BitVec 32
  deriving DecidableEq, Repr

/-- Per-thread state (R19 Table 1, R24, R25, R73). -/
structure Thread where
  life : Life
  v : List Word
  g : List Word
  p : BitVec 12
  pc : BitVec 52
  wb : BitVec 4
  guardN : BitVec 4
  guardEn : Bool
  clkHi : Word
  nsHi : Word
  thx : Word
  thy : Word
  thz : Word
  blk : Nat
  cutting : Bool
  wait : Wait
  arrived : List Bar
  owed : List Owed
  after : List After
  stopIssues : Nat
  deriving DecidableEq, Repr

/-- A loop level (R194, R195): `order` is the time of its entry. -/
structure Loop where
  active : Bool
  lc : Word
  first : Nat
  last : Nat
  members : BitVec 32
  order : Nat
  deriving DecidableEq, Repr

/-- Per-warp state shared by a warp and its sprigs (R21 Table 2, R109, R185, R221, R249, R296). -/
structure Shared where
  s : List Word
  loops : List Loop
  fl : BitVec 6
  lx : List (BitVec 192)
  gk : BitVec 64
  idem : Bool
  fence : BitVec 24
  deriving DecidableEq, Repr

/-- A fault record kept in the warp's fault register file (R147, R150): the record, the parked
lanes, the pages a class 7 resolution has to bring (virtual page number and code), whether the
resolution cannot complete, the die and sequence number once posted for a reply, whether a debug stop holds back its
disposition (R152), whether the host let it resume (R324). -/
structure Fault256 where
  bits : BitVec 256
  lanes : BitVec 32
  pages : List (Nat × Nat)
  escalated : Bool
  seq : Option (Nat × Word)
  held : Bool
  ready : Bool
  deriving DecidableEq, Repr

/-- An `mma` at the rendezvous latch (R226): its operands, the fence that will first cover it (R297). -/
structure Latch where
  fn : Nat
  fs : Nat
  desc : BitVec 64
  acc : Word
  lanes : BitVec 32
  pc : BitVec 52
  stamp : Nat
  cov : BitVec 24
  deriving DecidableEq, Repr

/-- A resident warp (R26 to R33, R150, R213, R231, R251, R300). `lastSel` is the selection of the core in which it was
selected last, or the last one before it came (log 69); `stalled` are the lanes whose next instruction would need a
ninth fault record (R150). -/
structure Warp where
  uid : Nat
  slot : Nat
  grid : Nat
  widx : Option Nat
  th : List Thread
  sh : Shared
  old : Shared
  flSet : BitVec 6
  flClr : BitVec 6
  sprigs : BitVec 8
  split : List Nat
  fair : List (Nat × BitVec 52 × Nat)
  forced : List (Nat × BitVec 52)
  ldcnt : BitVec 8
  stcnt : BitVec 8
  faults : List Fault256
  wdog : Word
  wdFired : Bool
  mmaOp : Nat
  mmaAck : Word
  latch : Option Latch
  lastSel : Nat
  stalled : BitVec 32
  stopReq : Bool
  restoring : List Nat
  deriving DecidableEq, Repr

/-- A cutting (R170, R338): payload of g0 to g3, entry, block and thread values, and the accesses of
its spawning thread that precede its first instruction (R198). -/
structure Cutting where
  g : List Word
  entry : BitVec 52
  thx : Word
  thy : Word
  thz : Word
  grid : Nat
  blk : Nat
  after : List After
  deriving DecidableEq, Repr

/-- A spawn bed (R35, R36, R170): `opened` is the core cycle of its first cutting. -/
structure Bed where
  grid : Nat
  entry : BitVec 52
  cuttings : List Cutting
  opened : Nat
  deriving DecidableEq, Repr

/-- A waiting slot claim (R211, R212): the warp, the lanes that issued it, the cycle and the warp's slot; for
a resumed warp the saved sectors, each with its poison, that come with the grant (R248). -/
structure Claim where
  slot : Nat
  warp : Nat
  lanes : BitVec 32
  resumed : Bool
  cycle : Nat
  wslot : Nat
  sectors : List (Nat × Bool × List Byte)
  deriving DecidableEq, Repr

/-- A kernel resident on a core with its reservation, already scaled (R172, R173, R176): the owners and the waiting
claims of its slots, and the releases of its slots, each with the number that the next operation took (R212). -/
structure Kernel where
  grid : Nat
  regs : Nat
  wst : Nat
  acc : Nat
  warps : Nat
  slots : Nat
  beds : Nat
  tbl : Bool
  owner : List (Nat × Nat)
  claims : List Claim
  releases : List (Nat × Nat)
  deriving DecidableEq, Repr

/-- A row of the elastic queue (R191, R192): the producing operation, its gang and its exact values. -/
structure QRow where
  op : Nat
  gang : Nat × Nat
  vals : List Num
  deriving DecidableEq, Repr

/-- A stay of a block on a core, for the coppice (R344, R346). -/
structure Run where
  grid : Nat
  blk : Nat
  asid : Nat
  lrec : Nat
  start : Nat
  left : Option Nat
  deriving DecidableEq, Repr

/-- A path that a scheduling decision has chosen and that issues in the cycle of the decision (R29, R166), with the
choice that its fetch has made (R169). -/
structure Pick where
  slot : Nat
  grp : Nat
  pc : BitVec 52
  lanes : BitVec 32
  cycle : Nat
  choice : Nat
  deriving DecidableEq, Repr

/-- A core position (R155 to R160): its binding table entry, generation (R265), service mode (R251),
what is resident, the active bank and what it was before the switches of a cycle (R125), the cycle of each
lane set's last decision and the paths it chose that have not had their turn (R166), the elastic queue and the gang it
serves (R191, R192), beds and restore list (R170, R248), the cycle and warp slot of the last `spawn` (R170), placement
state (R328, R342). -/
structure Core where
  die : Nat
  pos : Nat
  entry : BitVec 128
  gen : Word
  service : Bool
  closed : Bool
  scanning : Option Nat
  warps : List Warp
  kernels : List Kernel
  bank : Bool
  bankWas : Option (Nat × Bool)
  decided : List (Nat × Nat)
  picks : List Pick
  queue : List QRow
  qgang : Option (Nat × Nat)
  beds : List Bed
  restore : List Cutting
  spawned : Option (Nat × Nat)
  sel : Nat
  passBegan : Option Nat
  lastPass : Option Nat
  runs : List Run
  deriving DecidableEq, Repr

/-- Block states of R348 Table 4, and the block being held in a saved context. -/
inductive BlockState where
  | waiting
  | placed
  | saved
  | retired
  | killed
  deriving DecidableEq, Repr

/-- A block of a grid (R330 progress and recent issues, R348 frontier and confirmation, R344). -/
structure Block where
  idx : Nat
  st : BlockState
  die : Nat
  pos : Nat
  r : Nat
  iss : List (Nat × Nat)
  frontier : Nat
  ran : Bool
  suspect : Bool
  unconfirmed : List (Nat × Nat)
  deriving DecidableEq, Repr

/-- Where a neighbourhood stands with the dispatcher (R327, R331, R332, R340). -/
inductive HoodState where
  | ready
  | placed
  | draining
  | flushing
  | saving
  | saved (ctx : Nat)
  | done
  deriving DecidableEq, Repr

/-- A neighbourhood (R262, R265, R327 to R332): its blocks in hoodrank order, the generations its members recorded, the
package time of its dispatch, for each die the core cycle in which its dispatcher first skipped it and the dies on which
it starves (R328), the neighbourhood its cores are being freed for and, as a fraction, the core cycle at which they are to
be free. -/
structure Hood where
  grid : Nat
  idx : Nat
  st : HoodState
  blocks : List Block
  gens : List Word
  readyNs : Nat
  resumed : Bool
  skipSince : List (Nat × Nat)
  starving : List Nat
  freeFor : Option (Nat × Nat)
  coppice : Bool
  due : Nat × Nat
  deriving DecidableEq, Repr

/-- A grid: the retained launch record (R320), where its packet came from, its launch-time memory and how many stores
`State.codeLog` held then (R169), its neighbourhoods and grid-barrier counters (R322), how it ended (R313, R348). -/
structure Grid where
  id : Nat
  die : Nat
  queue : Nat
  pkt : Nat
  asid : Nat
  vf : Nat
  lrec : BitVec 2048
  lrecVa : Nat
  launchMem : List Host.Cell
  codeFrom : Nat
  csig : Nat
  start : Nat
  hoods : List Hood
  barg : List (Nat × Nat)
  ended : Option Nat
  complete : Bool
  deriving DecidableEq, Repr

/-- The access a lane makes (R66, R138, R271): load, store, or atomic operation. -/
inductive AccKind where
  | load (size : Nat) (signed : Bool)
  | store
  | atomic (op : Nat) (w : Nat) (ret : Bool)
  | accum
  | weight (fmt : BitVec 128) (j : Nat) (scale : Nat)
  deriving DecidableEq, Repr

/-- One lane's access, checked and not yet performed (R139, R272): `own` are the bytes it writes
(R140), `dst` its registers, `halves` the aligned 8-byte halves of a system access of 16 bytes that are still to be
performed (R144), `gen` the recorded generation of a hood-window target (R265). -/
structure LaneAcc where
  lane : Nat
  blk : Nat
  kind : AccKind
  sp : Space
  addr : Nat
  va : Nat
  size : Nat
  system : Bool
  own : List Bool
  data : BitVec 128
  data2 : BitVec 64
  dst : List Loc
  gen : Option (Nat × Nat × Word)
  kd : Nat
  mir : Bool
  halves : List Nat
  deriving DecidableEq, Repr

/-- A run of bytes of an engine unit: a source (none gives zeros) and a destination (none
suppresses the write, R186). -/
structure Seg where
  src : Option Place
  dst : Option Place
  n : Nat
  deriving DecidableEq, Repr

/-- Bytes that a unit has read and still has to write (R179, R291): where they go as it was translated, and the sectors
of the local footprint that their write lands towards (R183). -/
structure Piece where
  sp : Space
  addr : Nat
  va : Nat
  kd : Nat
  mir : Bool
  secs : List Nat
  bytes : List Byte
  deriving DecidableEq, Repr

/-- A unit of an engine operation (R291): its number, receiver, byte runs, the sectors it lands
towards, the page and code of the resolution it waits for, the engine record under which it waits, and the
class and code with which a kill reply ends it (R151, R324); the accesses of its own lane that it follows, the generation
that it carries (R265), and once it has been translated and read, what it still has to write, one list for each 32-byte
sector (R179). -/
structure Unit where
  tag : Nat
  recv : Nat
  segs : List Seg
  secs : List Nat
  page : Option (Nat × Nat)
  seq : Option Word
  err : Option (Nat × Nat)
  after : List After := []
  gen : Option (Nat × Nat × Word) := none
  out : Option (List (List Piece)) := none
  deriving DecidableEq, Repr

/-- The parameters of a matrix operation (R223 to R228) and its progress (R231); each member warp with the fence that
first covers its `mma` (R297); `clr` until a k-step over the identity has completed, `hold` while a save lets no k-step
begin (R245), `began` while a k-step is in progress, the cycle at which its operands were ready (R253); of that k-step,
the operand sectors that it has read already (slot, sector, poison, bytes), its tile and flags once all of them are read,
and the sectors of the tile that are published, or hold the identity of `clr` (R179, R228 to R230). -/
structure Mma where
  fn : Nat
  fmtA : BitVec 128
  fmtB : BitVec 128
  fs : Nat
  desc : BitVec 64
  acc : Nat
  gang : Nat × Nat
  members : List (Nat × BitVec 24)
  next : Nat
  clr : Bool
  cut : Bool
  hold : Bool
  readyAt : Nat
  began : Bool
  early : List (Nat × Nat × Bool × List Byte)
  tile : Option (List Nat × BitVec 6)
  out : List Nat
  cleared : List Nat := []
  fl : BitVec 6
  deriving DecidableEq, Repr

/-- A sector of a source store that a unit has read ahead of its write (R179): the destination sector of the unit, the
sector, its poison, its INT32 tag (R234) and its bytes. -/
structure Early where
  unit : Nat
  sector : Nat
  poison : Bool
  tag : Bool
  bytes : List Byte
  deriving DecidableEq, Repr

/-- The parameters of a decode (R235, R236), with what its units have read ahead; for a producer its gang (R192) and the
rows that have landed. -/
structure Tdec where
  fmt : BitVec 128
  gang : Nat × Nat
  landed : Nat
  base : Nat
  scales : Nat
  nb : Nat
  slot : Nat
  fp32 : Bool
  offset : Nat
  fl : BitVec 6
  early : List Early := []
  deriving DecidableEq, Repr

/-- The parameters of a Viterbi encoding (R239); the solutions of the blocks that are found, from the first on, each a
stream, its error and whether a target or scale is not finite; of the block in progress, its solution once it is found and
the sectors that are written ahead (R179, R241). -/
structure Venc where
  fmt : BitVec 128
  targets : Nat
  toWeight : Bool
  dest : Nat
  nb : Nat
  q : Nat
  seed : Nat
  errs : Nat
  sol : Option (Nat × Nat × Bool)
  out : List Nat
  done : List (Nat × Nat × Bool) := []
  deriving DecidableEq, Repr

/-- The parameters of an accumulator store (R234), with what its units have read ahead (R179). -/
structure Accst where
  fmt : BitVec 128
  src : Nat
  dst : Nat
  n : Nat
  fl : BitVec 6
  early : List Early := []
  deriving DecidableEq, Repr

/-- The parameters of a Nguroth operation (R398, R403): `kind` 1 put, 2 get, 3 `ncoll`, 4 `nscmax`,
5 `nsum`; the combine, the headroom, the local range, the scale arrays, the bytes of the remote range, the
target addresses of the range and of the signal, the window's node and ASID. -/
structure Ngu where
  kind : Nat
  op : Nat
  h : Nat
  va : Nat
  scl : Nat
  agr : Nat
  n : Nat
  remote : Nat
  signal : Option Nat
  node : Nat
  rasid : Nat
  deriving DecidableEq, Repr

/-- What an outstanding operation is.  A Nguroth operation keeps the times at which its sectors were sent, and
whether it has no remote signal to send any more (R400). -/
inductive OpKind where
  | divide (res : List (Nat × Loc × Word))
  | access (load : Bool) (acc : List LaneAcc)
  | late (acc : List LaneAcc)
  | units (left : List Unit)
  | mcast (left : List Unit)
  | transfer (left : List Unit) (ordered : Bool) (csig : Nat) (queue : Option (Nat × Nat))
  | table (left : List Nat) (src : Nat) (bank : Bool)
  | mma (m : Mma)
  | mmack (lanes : List (Nat × Loc)) (target : Nat)
  | tdec (t : Tdec) (left : List Nat)
  | tdecQ (t : Tdec) (row : Nat) (rows : Nat)
  | venc (v : Venc) (next : Nat)
  | accst (a : Accst) (left : List Nat)
  | ngu (n : Ngu) (left : List Unit) (sent : List (Nat × Nat)) (signalled : Bool)
  | signal (acc : LaneAcc) (add : Bool)
  | frames (share ro : Bool) (src dst : Nat) (next n : Nat) (frame : Option Nat)
  deriving DecidableEq, Repr

/-- An outstanding operation (R69, R287, R291): its origin, the accesses that precede it, its charged
barrier (in the scratch of the origin's core), the sectors still to land, the fence that first covers
it (R297), the selection in which it issued (R110), the core cycle (R227, R241), and whether it has written a mirrored
page (R297). `path` are the lanes of the issuing path (R147), `laneBlk` the block of each lane of the warp, `gone` the
lanes whose block has been killed or flushed since (R152); `kern` names the stores of its kernel on the core (R176), which
outlive the reservation while the operation goes on (R102); `fl` are the flags of its lanes so far (R18). -/
structure Op where
  id : Nat
  uid : Nat
  die : Nat
  pos : Nat
  slot : Nat
  grid : Nat
  blk : Nat
  lanes : BitVec 32
  l0 : Nat
  pc : BitVec 52
  asid : Nat
  kind : OpKind
  after : List After
  bar : Option Nat
  secs : List Nat
  cov : BitVec 24
  stamp : Nat
  cyc : Nat
  dropped : Bool
  mir : Bool
  path : BitVec 32
  laneBlk : List Nat
  gone : BitVec 32
  kern : Nat
  fl : BitVec 6
  deriving DecidableEq, Repr

/-- A fatal failure of an uncharged copy that a debug stop holds back until the release (R152, R204, R279). -/
structure HeldFault where
  pos : Nat
  grid : Nat
  blk : Nat
  bits : BitVec 256
  deriving DecidableEq, Repr

/-- A record ring (R389, R390) with the records that wait for room, oldest first. -/
structure Ring where
  base : BitVec 64
  prod : BitVec 64
  cons : BitVec 64
  lost : Word
  waiting : List (List Byte)
  deriving DecidableEq, Repr

/-- Cluster state (R265, R277 to R282) and its coppice rotation (R342, R343); `spare` while the extra slot runs whose scan
of the unbound halves is still to end; `held` are failures of copies that wait for the release of a debug stop. -/
structure Cluster where
  drop : BitVec 31
  dbgctl : Word
  dbghit : BitVec 128
  dbgacc : BitVec 64
  skid : List (Nat × Word)
  wpaddr : List (BitVec 64)
  wpctl : List Word
  stopping : Option Nat
  turn : Nat
  slotNs : Nat
  deferred : Bool
  spare : Bool
  held : List HeldFault
  deriving DecidableEq, Repr

/-- A scheduler core (R304 to R307): its packet buffer with the queue and index it came from, an `xsw` that
waits (register, address, bound, since), the standard's machine-mode registers and counters, and the doubleword it has
reserved with the length of the log of stores then (log 8). -/
structure Sched where
  x : List (BitVec 64)
  pc : BitVec 64
  buf : List Byte
  bufq : Nat × Nat
  mcause : BitVec 64
  mtval : BitVec 64
  mepc : BitVec 64
  mtvec : BitVec 64
  mstatus : BitVec 64
  mscratch : BitVec 64
  mie : BitVec 64
  resv : Option (Nat × Nat)
  cycleOff : BitVec 64
  instret : BitVec 64
  failed : Bool
  wait : Option (Nat × Nat × BitVec 64 × Nat)
  deriving DecidableEq, Repr

/-- A started packet that is not complete (R310, R313); `sigs` is a barrier's wait list. -/
structure Packet where
  queue : Nat
  idx : Nat
  hold : Bool
  kind : Nat
  csig : Nat
  sigs : List Nat
  rereads : Bool
  lastRead : Nat
  deriving DecidableEq, Repr

/-- What a signal update writes: a value, a sum, or a decrement by a completion (R313, R314); `own` when its
failure stops the queue, `prov` the grid and blocks whose work it reports (R344), `negative` a value of R314
Table 4. -/
structure Update where
  queue : Nat
  own : Bool
  asid : Nat
  va : Nat
  value : BitVec 64
  add : Bool
  grid : Option Nat
  pkt : Option Nat
  seq : Option Word
  prov : List (Nat × Nat)
  negative : Bool
  deriving DecidableEq, Repr

/-- A value of a watched signal held back until it is confirmed (R345): `needs` are the grids and blocks
whose work produced it. -/
structure Held where
  value : BitVec 64
  at_once : Bool
  needs : List (Nat × Nat)
  deriving DecidableEq, Repr

/-- A confirmed watch (R345): the register and the held values, oldest first. -/
structure Watch where
  reg : BitVec 128
  held : List Held
  deriving DecidableEq, Repr

/-- A partial-completion record that is owed (R348, R390). -/
structure Pcr where
  grid : Nat
  cause : Nat
  written : Bool
  deriving DecidableEq, Repr

/-- Positions reserved for a neighbourhood of a grid: the whole rectangle that the estimator frees for it (R331), or the
free cores of one for a starving neighbourhood (R328). -/
structure Resv where
  grid : Nat
  hood : Nat
  whole : Bool
  cores : List Nat
  deriving DecidableEq, Repr

/-- A die (R305 to R325, R389, R391): `halted` are the queues in error by an overrun that a later error stopped
(R308), `kindsNow` the cluster kinds in force while CLKIND is busy (R161), `resvFor` its reservations (R328, R331). -/
structure Die where
  cycles : Nat
  clkind : Word
  cpstat : Word
  copLate : BitVec 16
  copFails : BitVec 8
  badpte : Word
  qdescBase : BitVec 64
  qdescWritten : Bool
  qctl : Word
  replyErr : Bool
  reply : BitVec 64
  fault : Ring
  suspect : Ring
  partialR : Ring
  memerr : Ring
  reclaim : Ring
  migbase : BitVec 64
  migtail : BitVec 64
  mighead : BitVec 64
  faultSeq : Word
  partialSeq : Word
  watches : List (Nat × Watch)
  clusters : List Cluster
  repair : BitVec 512
  scheds : List Sched
  journal : List (Nat × BitVec 64 × BitVec 64)
  journalSeq : Nat
  packets : List Packet
  updates : List Update
  pcrs : List Pcr
  resetting : List Nat
  halted : List Nat
  kindsNow : BitVec 12
  resvFor : List Resv
  inRom : Bool
  deriving DecidableEq, Repr

/-- A copy-on-write resolution in progress (R368), a move to tier 0 (R370), or a demotion whose copy
is being made (R371): the page, the die, and for a demotion the dirty filter and the attempt. -/
inductive Move where
  | cow (die asid vpage : Nat)
  | promote (die asid vpage oldTier : Nat) (stuck : Bool)
  | demote (die asid vpage frame tier target attempt : Nat) (dirty : Bool)
  deriving DecidableEq, Repr

/-- A saved warp of a block (R246, R338): per lane the masks of the v and g registers that are saved, the slots that it
owned with their written sectors, each with its poison, and its place in the claim queues. -/
structure SavedWarp where
  warp : Warp
  blk : Nat
  live : List (Nat × Nat)
  slots : List (Nat × List (Nat × Bool × List Byte))
  claims : List Claim
  deriving DecidableEq, Repr

/-- The saved items of one member block (R246 Table 1). -/
structure SavedBlock where
  blk : Nat
  rank : Nat
  warps : List SavedWarp
  scratch : List (Nat × List Byte)
  sectors : List (Nat × Nat × Bool × List Byte)
  table : Option (Bool × List (Nat × List Byte))
  cuttings : List Cutting
  mmas : List Op
  poison : List (Nat × Nat)
  deriving DecidableEq, Repr

/-- A context of the heap: `st` is the header's state field (R337), `units` its 64 KiB units. -/
structure Context where
  id : Nat
  addr : Nat
  units : Nat
  st : Nat
  cdie : Nat
  kind : Nat
  grid : Nat
  hood : Nat
  savedNs : Nat
  blocks : List SavedBlock
  deriving DecidableEq, Repr

/-- The bytes of a local store, in the canonical form of `State.mem`; `tags` are the accumulator
sectors with the INT32 tag (R234), `touched` the lines or sectors written since placement (R246). -/
structure Local where
  key : Space
  cells : List Host.Cell
  tags : List Nat
  touched : List (Nat × Nat)
  deriving DecidableEq, Repr

/-- A link port (R394, R395): up, the next sequence number sent, the numbers accepted. -/
structure Port where
  up : Bool
  seq : Word
  accepted : List Nat
  deriving DecidableEq, Repr

/-- A mirrored write waiting for its acknowledgement (R295, R408): who issued it and for which block, since when no
acknowledgement has come while it waits (R409), and the port over which its duplicate was sent. -/
structure Mirror where
  id : Nat
  pa : Nat
  uid : Nat
  cov : BitVec 24
  since : Nat
  grid : Nat
  blk : Nat
  sent : Option Nat
  deriving DecidableEq, Repr

/-- The SPDM responder (R380 to R382). -/
structure Spdm where
  version : Bool
  caps : Bool
  algs : Bool
  keyEx : Bool
  session : Bool
  signedGen : Option Word
  deriving DecidableEq, Repr

/-- Something the package sent to the outside. -/
inductive Sent where
  | spdm (bytes : List Byte)
  | irq (die : Nat)
  | msix (vf : Nat)
  | flit (port : Nat) (hdr : BitVec 256) (pay : List (BitVec 8 × BitVec 256))
  | readError (pa : Nat)
  | readData (pa : Nat) (bytes : List Byte)
  | register (fn bar offset : Nat) (v : Word)
  deriving DecidableEq, Repr

/-- A running checkpoint command (R411): its outcome is written when it completes. One that waits for pages holds its
address and its 64 bytes meanwhile. -/
structure Ckpt where
  err : Nat
  shard : Word
  waits : Option (Nat × Nat)
  deriving DecidableEq, Repr

/-- The turn of an agent (log 3): the events of the table, one path's issue, a scheduler core's
instruction, the sending of one sector, a part of what an event does that comes ahead of it (a half of a system access,
R144; a sector of a unit, R179), firmware's freeing of journal entries (R306), the recovery of a die (R251), a host's read
of a register (R10), or nothing. `choice` picks among the values that a fetch may return (R169). -/
inductive Act where
  | event (i : Instr)
  | issue (die pos slot grp : Nat) (pc : BitVec 52) (lanes : BitVec 32) (choice : Nat)
  | sched (die core : Nat)
  | transmit (op sector port : Nat)
  | ahead (op tag recv part : Nat)
  | freeJournal (die n : Nat)
  | recovery (die : Nat) (on : Bool)
  | hostRead (fn : Nat) (bar offset : Nat)
  | idle
  deriving DecidableEq, Repr

/-- A turn, with the package time and the core cycles of each die that pass before it. -/
structure Turn where
  ns : Nat
  cycles : List Nat
  act : Act
  deriving DecidableEq, Repr

/-- The path that is issuing (R17, R29): `core` is the scheduler core whose turn it is,
`jumped` the lanes that took a branch in the issue (R195). -/
structure Cur where
  die : Nat
  pos : Nat
  slot : Nat
  grp : Nat
  lanes : BitVec 32
  core : Nat
  jumped : BitVec 32
  deriving DecidableEq, Repr

/-- A register bit that hardware sets and a write of 1 clears (R10). -/
inductive Sticky where
  | badrange
  | broken
  | rejected (die : Nat)
  | takeover (die : Nat)
  | overrun (die cl : Nat)
  | suspect (die i : Nat)
  | overflow (fn i : Nat)
  deriving DecidableEq, Repr

/-- A counter set of a function (R385). -/
structure Pmc where
  sel : List Word
  cnt : List (BitVec 64)
  irq : Bool
  deriving DecidableEq, Repr

/-- The whole package. -/
structure State where
  /-- The turns still to come (log 3). -/
  agenda : List Turn
  cur : Cur
  /-- Package time base in nanoseconds (R415). -/
  ns : Nat
  /-- Package physical memory (R355): canonical, unlisted bytes read 0 (log 1). -/
  mem : List Host.Cell
  locals : List Local
  /-- Poisoned 32-byte sectors (R347). -/
  poison : List (Space × Nat)
  /-- How often the key of a domain has been replaced (R382): unlisted domains never. -/
  keyGen : List (Nat × Nat)
  /-- The key under which each 64-byte unit was written: its domain, with 256 for each replacement of the domain's key
  before (R373, R382); unlisted units under the first key of domain 0. -/
  unitKd : List (Nat × Nat)
  /-- Units whose old data or metadata returns an uncorrectable error to the next write of a part of them (R374). -/
  rmwBad : List Nat
  /-- The words of physical memory that stores wrote, oldest first: what a fetch may return (R169). -/
  codeLog : List (Nat × Nat)
  /-- Loaded keys of key domains 1 to 255 (R382). -/
  keys : List (Nat × BitVec 256)
  /-- Reference counts of 64 KiB frames (R362). -/
  counts : List (Nat × BitVec 16)
  /-- Read positions of the frame pools (R363). -/
  poolHead : List (Nat × Nat)
  cores : List Core
  dies : List Die
  grids : List Grid
  ops : List Op
  contexts : List Context
  moves : List Move
  mirrors : List Mirror
  ports : List Port
  out : List Sent
  nextId : Nat
  /-- The counter of free values (log 13). -/
  fresh : Nat
  /-- Supply form: 0 G9-S, 1 G9-P, 2 G9-M (R1, log 6). -/
  form : Nat
  fuseDigest : BitVec 256
  fuseSvn : BitVec 16
  measFw : BitVec 256
  fwpass : List (Option Nat)
  badrange : Bool
  denied : BitVec 16
  ready : Bool
  passed : Bool
  fwrange : BitVec 64
  fwlock : Bool
  measgen : Word
  keypol : Word
  keypolLocked : Bool
  memcfg : Word
  featacc : List Word
  featWritten : List Bool
  ctxBase : BitVec 64
  ctxSize : BitVec 64
  heapbw : Word
  pwrcap : Word
  vfslice : Word
  fabnode : Word
  asidtab : BitVec 64
  tlbinv : BitVec 128
  tlbBusy : Bool
  launched : Bool
  mircfg : BitVec 64
  mirin : BitVec 128
  mirBroken : Bool
  ckerr : BitVec 6
  ckshard : Word
  ckpt : Option Ckpt
  fabwin : List (Nat × BitVec 128)
  peermap : List Nat
  activeVf : Nat
  sliceNs : Nat
  pmcs : List (Nat × Pmc)
  spdm : Spdm
  /-- The write-one-to-clear bits that hardware has set in the present cycle (R10). -/
  justSet : List Sticky
  deriving DecidableEq, Repr

/-- The faults of the G9 are recorded by the part, which goes on (R147 to R154). A step stops with a fault only on
a turn that the part does not have. -/
inductive Fault where
  /-- Raised by `step` on a turn of an agent outside the part (R4, R155, R304), or on an event turn that names an
  instruction which agents fetch (log 3). Safe: the run ends. -/
  | noSuchTurn
  deriving DecidableEq, Repr

/-- What the model gives no meaning. -/
inductive Refusal where
  /-- Raised by an arm of `exec` for an instruction the model has not reached; no arm does so now. Safe: the run
  ends. -/
  | notModelled (mnemonic : String)
  deriving DecidableEq, Repr

/-- A ring right after reset (R389): base 0; the other registers by log 5. -/
def Ring.reset : Ring := ⟨0, 0, 0, 0, []⟩

/-- A cluster right after reset (R265; log 5). -/
def Cluster.reset : Cluster :=
  ⟨0, 0, 0, 0, [], List.replicate 8 0, List.replicate 8 0, none, 0, 0, false, false, []⟩

/-- A scheduler core right after reset (log 5); mstatus holds machine mode as its previous mode, the only one (log 8). -/
def Sched.reset : Sched :=
  ⟨List.replicate 32 0, 0, List.replicate 64 0, (0, 0), 0, 0, 0, 0, 0x1800, 0, 0, none, 0, 0, false, none⟩

/-- A die right after reset (R391, R415; CPSTAT by log 5: a standby is available and the four
scheduler core slots run). -/
def Die.reset : Die :=
  { cycles := 0, clkind := 0, cpstat := 0x4000000F#32, copLate := 0, copFails := 0, badpte := 0,
    qdescBase := 0, qdescWritten := false, qctl := 0, replyErr := false, reply := 0,
    fault := Ring.reset, suspect := Ring.reset, partialR := Ring.reset, memerr := Ring.reset,
    reclaim := Ring.reset, migbase := 0, migtail := 0, mighead := 0, faultSeq := 0, partialSeq := 0,
    watches := [], clusters := List.replicate 6 Cluster.reset, repair := 0,
    scheds := List.replicate 5 Sched.reset, journal := [], journalSeq := 0, packets := [],
    updates := [], pcrs := [], resetting := [], halted := [], kindsNow := 0, resvFor := [], inRom := true }

/-- Right after package reset, at the instant of R386 step 1: nothing is resident and no turn is
planned. Values the spec does not give are those of log entries 1, 5, 6 and 13. -/
def State.reset : State :=
  { agenda := [], cur := ⟨0, 0, 0, 8, 0, 0, 0⟩, ns := 0, mem := [], locals := [], poison := [],
    keyGen := [], unitKd := [], rmwBad := [], codeLog := [], keys := [], counts := [], poolHead := [], cores := [],
    dies := List.replicate 4 Die.reset, grids := [], ops := [], contexts := [], moves := [],
    mirrors := [], ports := List.replicate 9 ⟨false, 0, []⟩, out := [], nextId := 1, fresh := 0,
    form := 2, fuseDigest := 0, fuseSvn := 0, measFw := 0, fwpass := List.replicate 4 none, badrange := false, denied := 0, ready := false, passed := false,
    fwrange := 0, fwlock := false, measgen := 0, keypol := 255, keypolLocked := false, memcfg := 1,
    featacc := List.replicate 4 0, featWritten := List.replicate 4 false, ctxBase := 0, ctxSize := 0,
    heapbw := 64, pwrcap := 3400, vfslice := 0x07D02710#32, fabnode := 0, asidtab := 0, tlbinv := 0,
    tlbBusy := false, launched := false, mircfg := 0, mirin := 0, mirBroken := false, ckerr := 0,
    ckshard := 0, ckpt := none, fabwin := [], peermap := [], activeVf := 16,
    sliceNs := 0, pmcs := [], spdm := ⟨false, false, false, false, false, none⟩, justSet := [] }

end Sys2Proof.Machine
end

