-- ==== Sys2Proof/Machine/Bits.lean ====
section
/-! DEFINITION. Bit fields, byte order, lane masks and list updates used by every other file. -/

namespace Sys2Proof.Machine

/-- The field `[hi:lo]` of a number (R8). -/
def bits (x hi lo : Nat) : Nat := x / 2 ^ lo % 2 ^ (hi + 1 - lo)

/-- Bit `i` of a number (R8). -/
def bit (x i : Nat) : Bool := x / 2 ^ i % 2 = 1

/-- `x` with the field `[hi:lo]` replaced by the low bits of `v` (R8). -/
def putBits (x hi lo v : Nat) : Nat :=
  x - bits x hi lo * 2 ^ lo + v % 2 ^ (hi + 1 - lo) * 2 ^ lo

/-- The two's-complement value of the low `n` bits of `x` (`SInt`, R12). -/
def sintN (n x : Nat) : Int :=
  if 2 * (x % 2 ^ n) < 2 ^ n then (x % 2 ^ n : Nat) else (x % 2 ^ n : Nat) - (2 ^ n : Nat)

/-- An int kept to its low `n` bits (R12). -/
def wrapN (n : Nat) (x : Int) : Nat := (x % (2 ^ n : Nat)).toNat

/-- The little-endian number of a list of bytes (R9). -/
def ofBytes : List Byte → Nat
  | [] => 0
  | b :: t => b.toNat + 256 * ofBytes t

/-- The `n` little-endian bytes of a number (R9). -/
def toBytes : Nat → Nat → List Byte
  | 0, _ => []
  | n + 1, x => BitVec.ofNat 8 x :: toBytes n (x / 256)

/-- The big-endian number of a list of bytes, for the octet strings of published standards (R9). -/
def ofBytesBE (l : List Byte) : Nat := ofBytes l.reverse

/-- Byte `i` of a list, 0 beyond its end. -/
def byteAt (l : List Byte) (i : Nat) : Byte := l.getD i 0

/-- The laneids of a mask, in ascending order (R17). -/
def laneList (m : BitVec 32) : List Nat := (List.range 32).filter fun k => m.getLsbD k

/-- The mask of a list of laneids. -/
def maskOf (l : List Nat) : BitVec 32 := l.foldl (fun m k => m ||| BitVec.ofNat 32 (2 ^ k)) 0

/-- The lowest laneid of a mask; 32 for the empty mask (`l0`, R97, R193). -/
def lowLane (m : BitVec 32) : Nat := (laneList m).headD 32

/-- Apply `f` to the elements that satisfy `p`. -/
def updWhere {α : Type} (p : α → Bool) (f : α → α) (l : List α) : List α :=
  l.map fun x => if p x then f x else x

/-- Apply `f` to element `i`. -/
def updAt {α : Type} (i : Nat) (f : α → α) (l : List α) : List α :=
  l.mapIdx fun k x => if k = i then f x else x

/-- The value a sparse list gives a key, or a default. -/
def lookupD {α : Type} (l : List (Nat × α)) (k : Nat) (d : α) : α := (l.lookup k).getD d

/-- Set a key of a sparse list. -/
def assign {α : Type} (l : List (Nat × α)) (k : Nat) (v : α) : List (Nat × α) :=
  (k, v) :: l.filter fun x => x.1 ≠ k

/-- The elements without repetition, in order of first occurrence. -/
def distinct (l : List Nat) : List Nat :=
  l.foldl (fun acc x => if acc.contains x then acc else acc ++ [x]) []

/-- Ceiling of a quotient. -/
def ceilDiv (a b : Nat) : Nat := (a + b - 1) / b

/-- The numbers from `a` to `b - 1`. -/
def rangeFrom (a b : Nat) : List Nat := (List.range (b - a)).map (· + a)

/-- The sum of a list of naturals. -/
def sumNat (l : List Nat) : Nat := l.foldl (· + ·) 0

/-- The largest of a list of naturals, 0 of none. -/
def maxNat (l : List Nat) : Nat := l.foldl max 0

/-- Stable insertion of `x` before the first element it is strictly less than. -/
def insertBy {α : Type} (lt : α → α → Bool) (x : α) : List α → List α
  | [] => [x]
  | y :: t => if lt x y then x :: y :: t else y :: insertBy lt x t

/-- Stable sort by a strict order. -/
def sortBy {α : Type} (lt : α → α → Bool) (l : List α) : List α :=
  l.foldl (fun acc x => insertBy lt x acc) []

end Sys2Proof.Machine
end

