-- ==== Sys2Proof/Machine/Flags.lean ====
section
/-! DEFINITION. The six sticky flags (R109 Table 1) and the values that computations give with them. -/

namespace Sys2Proof.Machine

/-- Flag contribution: the six bits of `fl` (R109). -/
abbrev Fl := BitVec 6

def flInvalid : Fl := 1
def flDivzero : Fl := 2
def flOverflow : Fl := 4
def flUnderflow : Fl := 8
def flInexact : Fl := 16
def flSaturated : Fl := 32

/-- A flag that is raised on a condition. -/
def flIf (c : Bool) (f : Fl) : Fl := if c then f else 0

/-- The OR of the contributions of a list of lanes or elements (R18, R112). -/
def orFlags (l : List Fl) : Fl := l.foldl (· ||| ·) 0

end Sys2Proof.Machine
end

