-- ==== Sys2Proof/Config.lean ====
section
/-! DEFINITION. What the spec leaves open and the model leaves free, and the fixed sizes of the part.

Every `opaque` constant below is a free value: it has no body, so no proof can see what it is (log
entry 13). -/

namespace Sys2Proof.Config

/-- A free 64-bit value; the argument is the counter `State.fresh` that the step advances. -/
opaque freeWord : Nat → BitVec 64

/-- Which of the values that a fetch may return it returns (R169): free in a counter and the address. -/
opaque fetchChoice : Nat → Nat → Nat

/-- The byte that a read under a key other than the writer's gives (R382 says only that the bytes
differ): free in the key generation, the address and the stored byte. -/
opaque wrongKeyByte : Nat → Nat → Byte → Byte

/-- Byte `i` of a signature made by the device identity key (R380, R412) over the given message: the
private key is not in the spec. -/
opaque identitySignature : List Byte → Nat → Byte

/-- Whether a signature verifies under the key of a certificate chain that the spec does not lay out
(R413): free in a counter, the signed bytes and the signature. -/
opaque certificateAccepts : Nat → List Byte → List Byte → Bool

/-- Byte `i` of a SPDM response or of the bytes of the published standard that the spec does not
restate (R380). -/
opaque spdmByte : Nat → Nat → Byte

/-- Byte `i` of a part of a saved image whose items the spec names and whose layout it does not give
(R338: the member block and the warp records), free in a counter. -/
opaque imageByte : Nat → Nat → Byte

/-- Where the command processor keeps its copy of a grid's launch record (R320, R337, R346): the manual says that there is
one and not where (log 82). -/
opaque retainedAt : Nat → BitVec 52

/-- Whether a firmware address names the local memory of the command processor, where it does not name package
physical memory: the manual gives no map of these addresses (R304, R305; log 14). -/
opaque firmwareLocal : Nat → Bool

/-- Bytes of package physical space (R355). -/
def physTop : Nat := 2 ^ 52

/-- One HBM stack (R355, Table 1). -/
def stackBytes : Nat := 0xC00000000

/-- End of the HBM region (R355, Table 1). -/
def hbmEnd : Nat := 12 * stackBytes

/-- Positions of one die (R155). -/
def positions : Nat := 144

/-- Watchdog load of a warp (R251). -/
def watchdogLoad : Nat := 4194304

end Sys2Proof.Config
end

