-- ==== Sys2Proof/Machine/Memory.lean ====
section
/-! DEFINITION. Bytes of memory, poison, keys, page tables and translation (R9, R137, R347, R355 to
R360, R373, R377). -/

namespace Sys2Proof.Machine

/-- The canonical form of a cell list: addresses strictly rising, no byte equal to the 0 that an
unlisted address reads as (log 1). -/
def Memory.wf : List Host.Cell → Bool
  | [] => true
  | [c] => c.2 ≠ 0#8
  | c :: d :: t => (c.2 ≠ 0#8) && decide (c.1 < d.1) && Memory.wf (d :: t)

/-- The byte at an address; an unlisted address reads 0 (log 1). -/
def cellGet : List Host.Cell → Nat → Byte
  | [], _ => 0
  | (k, x) :: t, a => if k = a then x else cellGet t a

/-- Write one byte, keeping the canonical form. -/
def cellSet : List Host.Cell → Nat → Byte → List Host.Cell
  | [], a, b => if b = 0#8 then [] else [(a, b)]
  | (k, x) :: t, a, b =>
    if a < k then (if b = 0#8 then (k, x) :: t else (a, b) :: (k, x) :: t)
    else if a = k then (if b = 0#8 then t else (a, b) :: t)
    else (k, x) :: cellSet t a b

/-- The local store of a key; one nothing has written is empty. -/
def localOf (s : State) (sp : Space) : Local :=
  (s.locals.find? fun l => l.key = sp).getD ⟨sp, [], [], []⟩

/-- Replace a local store. -/
def setLocal (s : State) (l : Local) : State :=
  { s with locals := l :: s.locals.filter fun x => x.key ≠ l.key }

/-- Forget a local store: it reads zero again (R178). -/
def zeroLocal (s : State) (sp : Space) : State :=
  { s with locals := s.locals.filter (fun x => x.key ≠ sp),
           poison := s.poison.filter fun x => x.1 ≠ sp }

/-- A local store with its poison takes another key: what was under that key is gone (R178). -/
def moveLocal (s : State) (src dst : Space) : State :=
  { s with locals := (s.locals.filter fun x => x.key ≠ dst).map fun x => if x.key = src then { x with key := dst } else x,
           poison := (s.poison.filter fun x => x.1 ≠ dst).map fun x => if x.1 = src then (dst, x.2) else x }

/-- The byte at an address of a space. -/
def readByte (s : State) (sp : Space) (a : Nat) : Byte :=
  match sp with
  | .phys => cellGet s.mem a
  | _ => cellGet (localOf s sp).cells a

/-- The lines of a scratch that writes have reached (R246): 128 bytes each. -/
def touchLine (sp : Space) (t : List (Nat × Nat)) (a : Nat) : List (Nat × Nat) :=
  match sp with
  | .scratch .. => if t.contains (a / 128, 0) then t else (a / 128, 0) :: t
  | _ => t

/-- Write a byte of a space. -/
def writeByte (s : State) (sp : Space) (a : Nat) (b : Byte) : State :=
  match sp with
  | .phys => { s with mem := cellSet s.mem a b }
  | _ => let l := localOf s sp
         setLocal s { l with cells := cellSet l.cells a b, touched := touchLine sp l.touched a }

/-- `n` bytes from an address (R9). -/
def readBytes (s : State) (sp : Space) (a n : Nat) : List Byte :=
  (List.range n).map fun i => readByte s sp (a + i)

/-- The little-endian number of `n` bytes (R9). -/
def readN (s : State) (sp : Space) (a n : Nat) : Nat := ofBytes (readBytes s sp a n)

/-- Write bytes from an address upward. -/
def writeBytes (s : State) (sp : Space) (a : Nat) : List Byte → State
  | [] => s
  | b :: t => writeBytes (writeByte s sp a b) sp (a + 1) t

/-- Write the low `n` bytes of a number, little-endian (R9). -/
def writeN (s : State) (sp : Space) (a n v : Nat) : State := writeBytes s sp a (toBytes n v)

/-- The die `d`. -/
def dieOf (s : State) (d : Nat) : Die := s.dies.getD d Die.reset

/-- Change die `d`. -/
def modDie (s : State) (d : Nat) (f : Die → Die) : State := { s with dies := updAt d f s.dies }

/-! ### Address map (R355, R356) -/

/-- The address lies in HBM4E (R355). -/
def inHbm (a : Nat) : Bool := a < Config.hbmEnd

/-- The address lies in the G-FAM window (R355). -/
def inGfam (a : Nat) : Bool := 0x400000000000 ≤ a && a < 0x800000000000

/-- The address lies in host memory (R355). -/
def inHost (a : Nat) : Bool := 0x800000000000 ≤ a && a < Config.physTop

/-- The range `[a, a+n)` lies wholly in HBM4E. -/
def rangeInHbm (a n : Nat) : Bool := a + n ≤ Config.hbmEnd

/-- The reserved top of every stack (R356): 6 GiB with integrity tags, else 64 MiB. -/
def reservedBytes (s : State) : Nat := if bit s.memcfg.toNat 0 then 0x180000000 else 0x4000000

/-- The address lies in the reserved range (R356). -/
def inReserved (s : State) (a : Nat) : Bool :=
  inHbm a && Config.stackBytes - reservedBytes s ≤ a % Config.stackBytes

/-- The range `[a, a+n)` meets the reserved range of some stack. -/
def meetsReserved (s : State) (a n : Nat) : Bool :=
  (List.range 12).any fun k =>
    let lo := k * Config.stackBytes + (Config.stackBytes - reservedBytes s)
    let hi := (k + 1) * Config.stackBytes
    decide (a < hi) && decide (lo < a + n)

/-- The die that holds an HBM address (R355). -/
def dieOfPa (a : Nat) : Nat := if inHbm a then a / Config.stackBytes / 3 else 0

/-! ### Poison and keys (R347, R373, R377, R382) -/

/-- The 32-byte sectors that `[a, a+n)` touches. -/
def sectorsOf (a n : Nat) : List Nat := if n = 0 then [] else rangeFrom (a / 32) ((a + n - 1) / 32 + 1)

/-- Some sector of the range is poisoned (R347). -/
def isPoisoned (s : State) (sp : Space) (a n : Nat) : Bool :=
  (sectorsOf a n).any fun k => s.poison.contains (sp, k)

/-- Mark a sector poisoned (R347). -/
def addPoison (s : State) (sp : Space) (k : Nat) : State :=
  if s.poison.contains (sp, k) then s else { s with poison := (sp, k) :: s.poison }

/-- A write of the range clears the poison of the sectors it covers wholly (R347). -/
def clearPoison (s : State) (sp : Space) (a n : Nat) : State :=
  { s with poison := s.poison.filter fun x =>
      ¬(x.1 = sp ∧ a ≤ 32 * x.2 ∧ 32 * x.2 + 32 ≤ a + n) }

/-- The locked firmware range (R377): its first byte and its length. -/
def fwBase (s : State) : Nat := bits s.fwrange.toNat 35 0 * 65536
/-- Bytes of the locked firmware range (R377). -/
def fwLen (s : State) : Nat := bits s.fwrange.toNat 63 48 * 65536

/-- An access to `[a, a+n)` of physical space is denied by the firmware lock (R377). -/
def fwDenied (s : State) (sp : Space) (a n : Nat) : Bool :=
  sp = .phys && s.fwlock && decide (a < fwBase s + fwLen s) && decide (fwBase s < a + n)

/-- Count a denied access (R377, R391: it saturates). -/
def countDenied (s : State) : State :=
  { s with denied := if s.denied = 0xFFFF#16 then s.denied else s.denied + 1 }

/-- A read of the firmware range is refused and counted (R377). -/
def noteRead (s : State) (sp : Space) (a n : Nat) : State := if fwDenied s sp a n then countDenied s else s

/-- The present key of a domain (R382): the domain, with 256 for each replacement of its key. -/
def keyId (s : State) (kd : Nat) : Nat := kd + 256 * lookupD s.keyGen kd 0

/-- The unit is not stored under a key (R373, R382): it was written under a key of the domain that is gone, or under
another domain. -/
def foreign (s : State) (u key : Nat) : Bool := lookupD s.unitKd u 0 ≠ key

/-- The bytes that a thread, an engine or a peer reads (R377: zero in the firmware range; R382: other
bytes where the unit was written under a key that is gone or under another domain). -/
def agentBytes (s : State) (sp : Space) (a n kd : Nat) : List Byte :=
  (List.range n).map fun i =>
    if fwDenied s sp (a + i) 1 then 0
    else
      let b := readByte s sp (a + i)
      if sp = .phys && inHbm (a + i) && foreign s ((a + i) / 64) kd
      then Config.wrongKeyByte s.fresh (a + i) b else b

/-- The 64-byte units that `[a, a+n)` touches. -/
def unitsOf (a n : Nat) : List Nat := if n = 0 then [] else rangeFrom (a / 64) ((a + n - 1) / 64 + 1)

/-- The 64-byte units of the range whose tag does not match (R373): tags are kept and the unit was written under another
key or domain. -/
def mismatches (s : State) (sp : Space) (a n kd : Nat) : List Nat :=
  if sp = .phys && inHbm a && bit s.memcfg.toNat 0 then (unitsOf a n).filter fun u => foreign s u kd else []

/-- The tag of some 64-byte unit of the range does not match (R373). -/
def tagMismatch (s : State) (sp : Space) (a n kd : Nat) : Bool := mismatches s sp a n kd ≠ []

/-- Both sectors of the unit are poisoned. -/
def marked (s : State) (u : Nat) : Bool := s.poison.contains (.phys, 2 * u) && s.poison.contains (.phys, 2 * u + 1)

/-- A write from `a` with the bytes `bs`, `none` leaving a byte as it is, gives the byte at `x`. -/
def gives (a : Nat) (bs : List (Option Byte)) (x : Nat) : Bool := decide (a ≤ x) && (bs.getD (x - a) none).isSome

/-- The write gives all of the `n` bytes from `b`. -/
def givesAll (a : Nat) (bs : List (Option Byte)) (b n : Nat) : Bool := (List.range n).all fun i => gives a bs (b + i)

/-- The write gives some of the `n` bytes from `b`. -/
def givesAny (a : Nat) (bs : List (Option Byte)) (b n : Nat) : Bool := (List.range n).any fun i => gives a bs (b + i)

/-- The units of which a write gives a part: the controller reads their old bytes (R374). -/
def parted (sp : Space) (a : Nat) (bs : List (Option Byte)) : List Nat :=
  if sp = .phys && inHbm a then
    (unitsOf a bs.length).filter fun u => givesAny a bs (64 * u) 64 && !(givesAll a bs (64 * u) 64)
  else []

/-- The units of which a write gives a part that is not stored (R374): the old data or its metadata returns an
uncorrectable error, or fails its tag where tags are kept. A unit that is poisoned already keeps to R347 (log 27). -/
def torn (s : State) (sp : Space) (a kd : Nat) (bs : List (Option Byte)) : List Nat :=
  (parted sp a bs).filter fun u =>
    s.rmwBad.contains u || (bit s.memcfg.toNat 0 && foreign s u kd && !(marked s u))

/-- The other units of which a write gives a part and whose old bytes are not under the domain's present key. -/
def mixed (s : State) (sp : Space) (a kd : Nat) (bs : List (Option Byte)) : List Nat :=
  (parted sp a bs).filter fun u => foreign s u kd && !((torn s sp a kd bs).contains u)

/-- The bytes of a write that reach their units. -/
def whole (a : Nat) (bs : List (Option Byte)) (us : List Nat) : List (Option Byte) :=
  if us = [] then bs else bs.mapIdx fun i b => if us.contains ((a + i) / 64) then none else b

/-- The bytes of a unit, read under another key, that a write of a part of it stores again where no tag is kept. -/
def garble (s : State) (a : Nat) (bs : List (Option Byte)) (u : Nat) : State :=
  (List.range 64).foldl (fun st i =>
    let x := 64 * u + i
    if gives a bs x then st else writeByte st .phys x (Config.wrongKeyByte s.fresh x (readByte s .phys x))) s

/-- Store the bytes that a write gives: the poison of the sectors it covers is cleared (R347), and the units hold the
key of the write (R373). -/
def storeGiven (s : State) (sp : Space) (a kd : Nat) (bs : List (Option Byte)) : State :=
  let n := bs.length
  let w := (List.range n).foldl (fun st i =>
    match (bs.getD i none) with
    | some b => writeByte st sp (a + i) b
    | none => st) s
  let w := { w with poison := w.poison.filter fun x => !(x.1 = sp && givesAll a bs (32 * x.2) 32) }
  if sp = .phys && inHbm a then
    let us := (unitsOf a n).filter fun u => givesAny a bs (64 * u) 64
    { w with unitKd := us.foldl (fun m u => if kd = 0 then m.filter (fun x => x.1 ≠ u) else assign m u kd) w.unitKd }
  else w

/-- The words that a store reached, with their new values: what later fetches may return (R169). -/
def logWords (s : State) (a n : Nat) : State :=
  { s with codeLog := s.codeLog ++ (rangeFrom (a / 4) ((a + n + 3) / 4)).map fun k => (4 * k, readN s .phys (4 * k) 4) }

/-- The bytes of a write that the firmware lock lets through (R377). -/
def unlocked (s : State) (sp : Space) (a : Nat) (bs : List (Option Byte)) : List (Option Byte) :=
  if fwDenied s sp a bs.length then bs.mapIdx fun i b => if fwDenied s sp (a + i) 1 then none else b else bs

/-- Both sectors of a unit become poisoned (R373, R374). -/
def poisonUnit (s : State) (u : Nat) : State := addPoison (addPoison s .phys (2 * u)) .phys (2 * u + 1)

/-- Write bytes that the lock lets through: a unit of which only a part is written is read and written again by its
controller (R374). Where the old data cannot be had, the write's bytes are not stored and both sectors are poisoned;
where it reads under another key, it is stored again as it reads (log 27). -/
def controllerWrite (s : State) (sp : Space) (a kd : Nat) (bs : List (Option Byte)) : State :=
  let us := torn s sp a kd bs
  let mix := mixed s sp a kd bs
  let s := mix.foldl (fun st u => garble st a bs u) (us.foldl poisonUnit s)
  storeGiven { s with rmwBad := s.rmwBad.filter fun u => !(sp = .phys && givesAny a bs (64 * u) 64) } sp a kd (whole a bs us)

/-- Write bytes as an agent does, `none` leaving a byte as it is (R140, R347, R377): a write of some byte of the firmware
range is counted, and those bytes are discarded. -/
def agentWrite (s : State) (sp : Space) (a kd : Nat) (bs : List (Option Byte)) : State :=
  controllerWrite (noteRead s sp a bs.length) sp a kd (unlocked s sp a bs)

/-! ### Structures that the device itself reads and writes (R377, log 68, log 84) -/

/-- The number that the device reads at a physical address: 0 where the firmware lock denies it. -/
def devRead (s : State) (a n : Nat) : Nat := if fwDenied s .phys a n then 0 else readN s .phys a n

/-- The device writes a number: a write that the firmware lock denies is discarded and counted. -/
def devWrite (s : State) (a n v : Nat) : State := if fwDenied s .phys a n then countDenied s else writeN s .phys a n v

/-- The bytes that the device reads from a physical address: zeros where the firmware lock denies the read. -/
def devBytes (s : State) (a n : Nat) : List Byte :=
  if fwDenied s .phys a n then List.replicate n 0 else readBytes s .phys a n

/-- The device writes bytes: a write that the firmware lock denies is discarded and counted. -/
def devStore (s : State) (a : Nat) (bs : List Byte) : State :=
  if fwDenied s .phys a bs.length then countDenied s else writeBytes s .phys a bs

/-- The device writes bytes that the host is to see (R389): whatever the sectors held, they read as written. -/
def devPublish (s : State) (a : Nat) (bs : List Byte) : State :=
  if fwDenied s .phys a bs.length then countDenied s
  else
    let key := keyId s 0
    let mix := (parted .phys a (bs.map some)).filter fun u => foreign s u key
    let s := storeGiven (mix.foldl (fun st u => garble st a (bs.map some) u) s) .phys a key (bs.map some)
    { s with poison := s.poison.filter fun x => !(x.1 = .phys && (sectorsOf a bs.length).contains x.2),
             rmwBad := s.rmwBad.filter fun u => !((unitsOf a bs.length).contains u) }

/-! ### Page tables (R357 to R360) -/

/-- A feature bit of FEAT0 is accepted (R383). Before FEATACC0 is written nothing is refused yet. -/
def accepted (s : State) (b : Nat) : Bool :=
  !(s.featWritten.getD 0 false) || bit (s.featacc.getD 0 0).toNat b

/-- The 64-byte entry of an ASID (R360 Table 4), as one number. -/
def asidEntry (s : State) (asid : Nat) : Nat := devRead s (s.asidtab.toNat + 64 * asid) 64

/-- The address of the table entry at a level (R357 Table 2). -/
def pteIndex (level va : Nat) : Nat :=
  match level with
  | 3 => bits va 51 39
  | 2 => bits va 38 30
  | 1 => bits va 29 21
  | _ => bits va 20 16

/-- log2 of the page that a leaf of a level maps (R357). -/
def pageLog (level : Nat) : Nat := match level with | 2 => 30 | 1 => 21 | _ => 16

/-- The address of the next table that a table entry names (R358 Table 3). -/
def nextTable (e : Nat) : Nat := bits e 51 8 * 256

/-- The size and alignment of the table that an entry of a level names (R357 Table 2). -/
def nextSize (level : Nat) : Nat := if level = 1 then 256 else 4096

/-- The frame address of a leaf (R358 Table 3). -/
def leafFrame (e : Nat) : Nat := bits e 51 16 * 65536

/-- A leaf lies in the region of its tier and domain (R355, R358), outside the reserved range (R356). -/
def frameOk (s : State) (level e : Nat) : Bool :=
  let f := leafFrame e
  let n := 2 ^ pageLog level
  match bits e 61 60, bit e 5 with
  | 0, false => rangeInHbm f n && !(meetsReserved s f n)
  | 0, true => (inGfam f && inGfam (f + n - 1)) || (inHost f && inHost (f + n - 1))
  | 1, _ => inGfam f && inGfam (f + n - 1)
  | _, _ => true

/-- The frame of a leaf lies in an enabled MIRIN range (R407). -/
def inMirin (s : State) (f n : Nat) : Bool :=
  let m := s.mirin.toNat
  bit m 127 && decide (f < (bits m 35 0 + bits m 99 64) * 65536) && decide (bits m 35 0 * 65536 < f + n)

/-- A valid entry is malformed (R358; R383 for features not accepted; R407). A table entry may not name a table that
meets the reserved range, which no entry reaches (R356, log 22). -/
def pteMalformed (s : State) (level e : Nat) : Bool :=
  let leaf := bit e 1
  let tier := bits e 61 60
  let kd := bits e 59 52
  let dom := bit e 5
  bits e 63 62 ≠ 0 || (leaf && level = 3) || (!leaf && level = 0) || tier = 3 ||
  (!leaf && (tier ≠ 0 || kd ≠ 0)) ||
  (leaf && kd ≠ 0 && (tier ≠ 0 || dom)) ||
  (leaf && bits e 15 8 ≠ 0) ||
  (leaf && tier ≠ 2 && leafFrame e % 2 ^ pageLog level ≠ 0) ||
  (leaf && !(frameOk s level e)) ||
  (dom && (tier ≠ 0 || bit e 4 || bit e 6 || bit e 7)) ||
  (leaf && level ≠ 0 && (bit e 4 || bit e 7)) ||
  (!leaf && nextTable e % nextSize level ≠ 0) ||
  (!leaf && (!(rangeInHbm (nextTable e) (nextSize level)) || meetsReserved s (nextTable e) (nextSize level))) ||
  (leaf && tier = 1 && !(accepted s 5)) || (leaf && tier = 2 && !(accepted s 6)) ||
  (leaf && bit e 6 && !(accepted s 7)) || (bit e 6 && !(bit s.mircfg.toNat 63)) ||
  (leaf && tier ≠ 2 && inMirin s (leafFrame e) (2 ^ pageLog level))

/-- What a walk finds: nothing (and whether through a malformed entry, or through one in the firmware range), or a leaf
with its level, its entry and the entry's address. -/
inductive Walk where
  | unmapped (malformed locked : Bool)
  | leaf (level : Nat) (pte : Nat) (at_ : Nat)
  deriving DecidableEq, Repr

/-- The walk from a table at a level (R357, R358). -/
def walkFrom (s : State) : Nat → Nat → Nat → Walk
  | 0, table, va =>
    let at_ := table + 8 * pteIndex 0 va
    let e := devRead s at_ 8
    if !(bit e 0) then .unmapped false (fwDenied s .phys at_ 8)
    else if pteMalformed s 0 e then .unmapped true false else .leaf 0 e at_
  | level + 1, table, va =>
    let at_ := table + 8 * pteIndex (level + 1) va
    let e := devRead s at_ 8
    if !(bit e 0) then .unmapped false (fwDenied s .phys at_ 8)
    else if pteMalformed s (level + 1) e then .unmapped true false
    else if bit e 1 then .leaf (level + 1) e at_
    else walkFrom s level (nextTable e) va

/-- The entry of a valid ASID names no root table: a reserved bit is set, or the root is misaligned or outside HBM4E
(R11, R360). -/
def asidMalformed (a : Nat) : Bool :=
  bits a 127 64 ≠ 0 || bits a 395 394 ≠ 0 || bits a 511 400 ≠ 0 ||
    bits a 63 0 % 65536 ≠ 0 || !(rangeInHbm (bits a 63 0) 65536)

/-- The walk under an ASID (R360). -/
def walk (s : State) (asid va : Nat) : Walk :=
  let a := asidEntry s asid
  if !(bit a 392) then .unmapped false (fwDenied s .phys (s.asidtab.toNat + 64 * asid) 64)
  else if asidMalformed a then .unmapped true false
  else walkFrom s 3 (bits a 63 0) va

/-- A successful translation; `kd` is the present key of the page's domain, which the access keeps (R382). -/
structure Tr where
  pa : Nat
  kd : Nat
  mir : Bool
  pte : Nat
  level : Nat
  deriving DecidableEq, Repr

/-- A refused access: class, code, and whether the walker met a malformed entry (R148, R358) or the firmware lock
(R377). -/
structure Denial where
  cls : Nat
  code : Nat
  malformed : Bool
  locked : Bool
  deriving DecidableEq, Repr

/-- A key is loaded for a domain (R382): domain 0 always has the package key. -/
def keyLoaded (s : State) (kd : Nat) : Bool := kd = 0 || (s.keys.lookup kd).isSome

/-- The check of one access (R134, R139, R149, R359, R382): the page's domain, then validity and
permission in the order of R359, then the resolvable conditions. `dom` is the domain the opcode may
reach, none where any is accepted; a write to a page that R368 is resolving parks (R368). -/
def translate (s : State) (asid va : Nat) (write fetch : Bool) (dom : Option Bool) : Except Denial Tr :=
  if 2 ^ 52 ≤ va then .error ⟨5, 2, false, false⟩
  else match walk s asid va with
  | .unmapped m l => .error ⟨6, 1, m, l⟩
  | .leaf level e _ =>
    let tier := bits e 61 60
    if (match dom with | some d => decide (bit e 5 ≠ d) | none => false) then .error ⟨5, 6, false, false⟩
    else if write && !(bit e 2) then .error ⟨6, 2, false, false⟩
    else if fetch && !(bit e 3) then .error ⟨6, 4, false, false⟩
    else if tier = 0 && !(keyLoaded s (bits e 59 52)) then .error ⟨6, 3, false, false⟩
    else if bit e 7 && (tier ≠ 0 || s.moves.any fun m => match m with
        | .demote _ a v .. => a = asid && v = va / 65536
        | _ => false) then .error ⟨7, 4, false, false⟩
    else if tier = 1 then .error ⟨7, 2, false, false⟩
    else if tier = 2 then .error ⟨7, 3, false, false⟩
    else if write && bit e 4 then .error ⟨7, 1, false, false⟩
    else
      let n := 2 ^ pageLog level
      .ok ⟨leafFrame e + va % n, keyId s (bits e 59 52), bit e 6, e, level⟩

/-- What the command processor reads at a translated address: none where a sector is poisoned or a tag fails (R347,
R373; log 68). -/
def cpRead (s : State) (t : Tr) (n : Nat) : Option Nat :=
  if isPoisoned s .phys t.pa n || tagMismatch s .phys t.pa n t.kd then none
  else some (ofBytes (agentBytes s .phys t.pa n t.kd))

/-- Add to a die's BADPTE (R358: saturating). -/
def addBadpte (s : State) (d n : Nat) : State :=
  modDie s d fun x => { x with badpte := BitVec.ofNat 32 (min 0xFFFFFFFF (x.badpte.toNat + n)) }

/-- What a walk met on the way counts (R358, R377): a malformed entry at the die, an entry in the firmware range. -/
def noteMet (s : State) (die : Nat) (malformed locked : Bool) : State :=
  let s := if malformed then addBadpte s die 1 else s
  if locked then countDenied s else s

/-- A refused access counts what its walk met. -/
def noteDenial (s : State) (die : Nat) (d : Denial) : State := noteMet s die d.malformed d.locked

/-- The walk for an address counts what it met. -/
def noteWalk (s : State) (die asid va : Nat) : State :=
  match walk s asid va with
  | .unmapped m l => noteMet s die m l
  | .leaf .. => s

/-- Write one page-table entry. -/
def writePte (s : State) (at_ e : Nat) : State := devWrite s at_ 8 e

/-! ### Frames (R362, R363) -/

/-- The reference count of the frame at an address (R362). -/
def countOf (s : State) (pa : Nat) : BitVec 16 := lookupD s.counts (pa / 65536) 0

/-- Set a reference count (R362). -/
def setCount (s : State) (pa : Nat) (c : BitVec 16) : State :=
  { s with counts := if c = 0 then s.counts.filter (fun x => x.1 ≠ pa / 65536)
                     else assign s.counts (pa / 65536) c }

/-- Change the entry of an ASID field `[hi:lo]` (R360). -/
def setAsidField (s : State) (asid hi lo v : Nat) : State :=
  devWrite s (s.asidtab.toNat + 64 * asid) 64 (putBits (asidEntry s asid) hi lo v)

/-- The pool ring is usable (R363). -/
def poolUsable (s : State) (asid : Nat) : Bool :=
  let a := asidEntry s asid
  decide (6 ≤ bits a 327 320) && decide (bits a 327 320 ≤ 24) &&
    rangeInHbm (bits a 319 256) (8 * 2 ^ bits a 327 320)

/-- Push a frame on the ASID's pool; a full or unusable ring drops it and counts it lost (R363). -/
def poolPush (s : State) (asid pa : Nat) : State :=
  let a := asidEntry s asid
  let cnt := bits a 359 328
  let size := 2 ^ bits a 327 320
  if poolUsable s asid && decide (cnt < size) then
    let slot := (lookupD s.poolHead asid 0 + cnt) % size
    setAsidField (devWrite s (bits a 319 256 + 8 * slot) 8 pa) asid 359 328 (cnt + 1)
  else setAsidField s asid 391 360 (min 0xFFFFFFFF (bits a 391 360 + 1))

/-- Pop a frame from the pool; its count is set to 1 (R363). None when the pool is empty. -/
def poolPop (s : State) (asid : Nat) : Option (Nat × State) :=
  let a := asidEntry s asid
  let cnt := bits a 359 328
  let size := 2 ^ bits a 327 320
  if poolUsable s asid && decide (0 < cnt) then
    let h := lookupD s.poolHead asid 0
    let f := devRead s (bits a 319 256 + 8 * (h % size)) 8
    let s := setAsidField s asid 359 328 (cnt - 1)
    some (f, setCount { s with poolHead := assign s.poolHead asid ((h + 1) % size) } f 1)
  else none

/-- One mapping less of a frame (R366, R368): a saturated count stays, and 0 pushes the frame. -/
def dropCount (s : State) (asid pa : Nat) : State :=
  let c := countOf s pa
  if c = 0xFFFF#16 then s
  else
    let s := setCount s pa (c - 1)
    if c - 1 = 0#16 then poolPush s asid pa else s

end Sys2Proof.Machine
end

