-- ==== Sys2Proof/Machine/Warps.lean ====
section
/-! DEFINITION. Finding and changing cores, warps, threads, grids and operations; register operands
(R17, R20, R26, R39, R155 to R160, R172). -/

namespace Sys2Proof.Machine

/-! ### Cores -/

/-- The binding entry of a position that nothing has bound: kind 3, disabled (R159). -/
def unboundEntry (pos : Nat) : BitVec 128 :=
  BitVec.ofNat 128 (putBits (3 * 2 ^ 8 + pos) 87 16 (2 ^ 72 - 1))

/-- A position to which nothing has happened since reset. -/
def Core.fresh (die pos : Nat) : Core :=
  { die := die, pos := pos, entry := unboundEntry pos, gen := 0, service := false, closed := false,
    scanning := none, warps := [], kernels := [], bank := false, bankWas := none, decided := [], picks := [],
    queue := [], qgang := none, beds := [], restore := [], spawned := none, sel := 0,
    passBegan := none, lastPass := none, runs := [] }

/-- The core at a position. -/
def coreAt (s : State) (die pos : Nat) : Core :=
  (s.cores.find? fun c => c.die = die ∧ c.pos = pos).getD (Core.fresh die pos)

/-- Replace a core. -/
def setCore (s : State) (c : Core) : State :=
  { s with cores := if s.cores.any (fun x => x.die = c.die ∧ x.pos = c.pos)
      then s.cores.map (fun x => if x.die = c.die ∧ x.pos = c.pos then c else x)
      else c :: s.cores }

/-- Change the core at a position. -/
def modCore (s : State) (die pos : Nat) (f : Core → Core) : State := setCore s (f (coreAt s die pos))

/-- Core kind (R159): 0 default, 1 wide, 2 grand, 3 disabled. -/
def Core.kind (c : Core) : Nat := bits c.entry.toNat 9 8

/-- Halves bound (R159). -/
def Core.halves (c : Core) : Nat := bits c.entry.toNat 13 10

/-- Warp slots of a kind (R160 Table 4). -/
def warpSlots (kind : Nat) : Nat := if kind = 0 then 32 else 64

/-- The cluster of a position (R155). -/
def clusterOf (pos : Nat) : Nat := pos / 12 / 4 * 2 + pos % 12 / 6

/-- The cluster-local index of a position (R260). -/
def localPos (pos : Nat) : Nat := 6 * (pos / 12 % 4) + pos % 12 % 6

/-- The position of a cluster-local index (R260). -/
def posOfLocal (cl k : Nat) : Nat := 12 * (4 * (cl / 2) + k / 6) + (6 * (cl % 2) + k % 6)

/-- `corepos` (R24): row in [7:4], column in [3:0]. -/
def corepos (pos : Nat) : Nat := 16 * (pos / 12) + pos % 12

/-- The cluster state of a position's cluster. -/
def clusterAt (s : State) (die cl : Nat) : Cluster := (dieOf s die).clusters.getD cl Cluster.reset

/-- Change a cluster. -/
def modCluster (s : State) (die cl : Nat) (f : Cluster → Cluster) : State :=
  modDie s die fun d => { d with clusters := updAt cl f d.clusters }

/-- A cluster is stopped or armed for debug (R278). -/
def clusterStopped (s : State) (die cl : Nat) : Bool := bit (clusterAt s die cl).dbgctl.toNat 30
/-- DBGCTL.armed (R278); it reads 0 while the debug controller is not accepted (R383). -/
def clusterArmed (s : State) (die cl : Nat) : Bool :=
  bit (clusterAt s die cl).dbgctl.toNat 31 && accepted s 11

/-! ### Grids, neighbourhoods and blocks -/

/-- A field of a launch record (R319). -/
def lrecBits (r : BitVec 2048) (hi lo : Nat) : Nat := bits r.toNat hi lo

/-- The grid of an id. -/
def gridAt (s : State) (g : Nat) : Option Grid := s.grids.find? fun x => x.id = g

/-- Change a grid. -/
def modGrid (s : State) (g : Nat) (f : Grid → Grid) : State :=
  { s with grids := updWhere (fun x => x.id = g) f s.grids }

/-- Members of a neighbourhood: cols × rows (R261). -/
def Grid.hoodSize (g : Grid) : Nat := lrecBits g.lrec 402 400 * lrecBits g.lrec 405 403

/-- The grid's shape in blocks and its block count (R319). -/
def Grid.blockCount (g : Grid) : Nat :=
  lrecBits g.lrec 287 256 * lrecBits g.lrec 319 288 * lrecBits g.lrec 351 320

/-- Threads of a block (R27, R319). -/
def Grid.threads (g : Grid) : Nat :=
  lrecBits g.lrec 367 352 * lrecBits g.lrec 383 368 * lrecBits g.lrec 399 384

/-- Warps of a block (R27). -/
def Grid.warpsPerBlock (g : Grid) : Nat := ceilDiv g.threads 32

/-- The allocation A of the kernel (R21, R319). -/
def Grid.regs (g : Grid) : Nat := 16 * lrecBits g.lrec 415 411

/-- The carve-out C in KiB (R180, R319). -/
def Grid.carveKib (g : Grid) : Nat :=
  match lrecBits g.lrec 417 416 with | 0 => 0 | 1 => 128 | 2 => 256 | _ => 512

/-- The carve-out S in bytes on a core with H halves (R175). -/
def Grid.scratch (g : Grid) (halves : Nat) : Nat := g.carveKib * 512 * halves

/-- Format slot k of the grid (R57, R319). -/
def Grid.fslot (g : Grid) (k : Nat) : BitVec 128 :=
  BitVec.ofNat 128 (lrecBits g.lrec (128 * k + 1151) (128 * k + 1024))

/-- The neighbourhood that holds a block. -/
def Grid.hoodOf (g : Grid) (blk : Nat) : Option Hood :=
  g.hoods.find? fun h => h.blocks.any fun b => b.idx = blk

/-- The block of a linear index. -/
def Grid.block (g : Grid) (blk : Nat) : Option Block :=
  (g.hoodOf blk).bind fun h => h.blocks.find? fun b => b.idx = blk

/-- Change a neighbourhood of a grid. -/
def modHood (s : State) (g h : Nat) (f : Hood → Hood) : State :=
  modGrid s g fun x => { x with hoods := updWhere (fun y => y.idx = h) f x.hoods }

/-- Change a block of a grid. -/
def modBlock (s : State) (g b : Nat) (f : Block → Block) : State :=
  modGrid s g fun x => { x with hoods := x.hoods.map fun h =>
    { h with blocks := updWhere (fun y => y.idx = b) f h.blocks } }

/-- The core that a block is on has this kernel reservation (R173, R176). -/
def Core.kernelOf (c : Core) (g : Nat) : Option Kernel := c.kernels.find? fun k => k.grid = g

/-- Change a kernel's reservation on a core. -/
def modKernel (s : State) (die pos g : Nat) (f : Kernel → Kernel) : State :=
  modCore s die pos fun c => { c with kernels := updWhere (fun k => k.grid = g) f c.kernels }

/-! ### Warps and threads -/

/-- The warp of a slot. -/
def Core.warpAt (c : Core) (slot : Nat) : Option Warp := c.warps.find? fun w => w.slot = slot

/-- Change the warp of a slot. -/
def modWarp (s : State) (die pos slot : Nat) (f : Warp → Warp) : State :=
  modCore s die pos fun c => { c with warps := updWhere (fun w => w.slot = slot) f c.warps }

/-- Change the warp of a unique id, wherever it is resident. -/
def modWarpUid (s : State) (uid : Nat) (f : Warp → Warp) : State :=
  { s with cores := s.cores.map fun c => { c with warps := updWhere (fun w => w.uid = uid) f c.warps } }

/-- The resident warp of a unique id with its core. -/
def warpOfUid (s : State) (uid : Nat) : Option (Core × Warp) :=
  s.cores.findSome? fun c => (c.warps.find? fun w => w.uid = uid).map fun w => (c, w)

/-- Apply `f` to the threads of the lanes of a mask. -/
def mapLanes (m : BitVec 32) (f : Nat → Thread → Thread) (th : List Thread) : List Thread :=
  th.mapIdx fun k t => if m.getLsbD k then f k t else t

/-- A thread with nothing in it. -/
def Thread.absent : Thread :=
  { life := .absent, v := [], g := [], p := 0, pc := 0, wb := 0, guardN := 0, guardEn := false,
    clkHi := 0, nsHi := 0, thx := 0, thy := 0, thz := 0, blk := 0, cutting := false, wait := .none,
    arrived := [], owed := [], after := [], stopIssues := 0 }

/-- The thread of a lane. -/
def Warp.lane (w : Warp) (k : Nat) : Thread := w.th.getD k Thread.absent

/-- A thread that has started and not exited. -/
def Thread.running (t : Thread) : Bool := t.life = .live

/-- The lanes of a warp that satisfy a test. -/
def Warp.lanesWhere (w : Warp) (p : Thread → Bool) : BitVec 32 :=
  maskOf ((List.range 32).filter fun k => p (w.lane k))

/-- The guard in force lets the thread act (R72, R73). -/
def Thread.enabled (t : Thread) : Bool := t.guardN = 0#4 || t.guardEn

/-- The lanes of a group: 8 is the warp group, 0 to 7 the sprig of that quad (R31). -/
def Warp.groupLanes (w : Warp) (grp : Nat) : BitVec 32 :=
  maskOf ((List.range 32).filter fun k =>
    if grp = 8 then !(w.sprigs.getLsbD (k / 4)) else w.sprigs.getLsbD (k / 4) && k / 4 = grp)

/-- The physical register of a per-thread field, none for `z` (R20). -/
def fieldLoc (wb n : Nat) : Option Loc :=
  if n < 112 then some (.v (16 * wb + n)) else if n < 127 then some (.g (n - 112)) else none

/-- The value of a location. -/
def Thread.get (t : Thread) (l : Loc) : Word :=
  match l with
  | .v i => t.v.getD i 0
  | .g i => t.g.getD i 0

/-- Write a location. -/
def Thread.put (t : Thread) (l : Loc) (x : Word) : Thread :=
  match l with
  | .v i => { t with v := t.v.set i x }
  | .g i => { t with g := t.g.set i x }

/-- Read a per-thread register field (R20): `z` reads 0. -/
def Thread.reg (t : Thread) (n : Nat) : Word :=
  match fieldLoc t.wb.toNat n with
  | some l => t.get l
  | none => 0

/-- Write a per-thread register field (R20): a write to `z` is discarded. -/
def Thread.setReg (t : Thread) (n : Nat) (x : Word) : Thread :=
  match fieldLoc t.wb.toNat n with
  | some l => t.put l x
  | none => t

/-- The 64-bit value of a pair (R39). -/
def Thread.pair (t : Thread) (n : Nat) : BitVec 64 := t.reg (n + 1) ++ t.reg n

/-- Write a pair (R39). -/
def Thread.setPair (t : Thread) (n : Nat) (x : BitVec 64) : Thread :=
  (t.setReg n (x.extractLsb' 0 32)).setReg (n + 1) (x.extractLsb' 32 32)

/-- A predicate (R19). -/
def Thread.pred (t : Thread) (n : Nat) : Bool := t.p.getLsbD n

/-- Write a predicate. -/
def Thread.setPred (t : Thread) (n : Nat) (b : Bool) : Thread :=
  let m : BitVec 12 := BitVec.ofNat 12 (2 ^ n)
  { t with p := if b then t.p ||| m else t.p &&& ~~~m }

/-- A uniform register (R22). -/
def Shared.u (x : Shared) (n : Nat) : Word := x.s.getD n 0

/-- The per-warp state at warp start (R23). -/
def Shared.start : Shared :=
  { s := List.replicate 64 0, loops := List.replicate 3 ⟨false, 0, 0, 0, 0, 0⟩, fl := 0,
    lx := List.replicate 8 0, gk := 0, idem := false, fence := 0 }

/-- A warp at its start (R23, R251, R300). It counts as selected when it comes, so a warp that waits is never passed by
later ones (R34, R166; log 69). -/
def Warp.start (uid slot grid : Nat) (widx : Option Nat) (lastSel : Nat) (th : List Thread) : Warp :=
  { uid := uid, slot := slot, grid := grid, widx := widx,
    th := (List.range 32).map fun k => th.getD k Thread.absent, sh := Shared.start,
    old := Shared.start, flSet := 0, flClr := 0, sprigs := 0, split := List.replicate 8 0, fair := [],
    forced := [], ldcnt := 0, stcnt := 0, faults := [], wdog := BitVec.ofNat 32 Config.watchdogLoad,
    wdFired := false, mmaOp := 0, mmaAck := 0, latch := none, lastSel := lastSel, stalled := 0, stopReq := false,
    restoring := [] }

/-- A thread at its start (R19). -/
def Thread.start (regs : Nat) (g : List Word) (pc : BitVec 52) (thx thy thz : Word) (blk : Nat)
    (cutting : Bool) (after : List After) : Thread :=
  { Thread.absent with
    life := .live, v := List.replicate regs 0, g := (List.range 15).map fun i => g.getD i 0, pc := pc,
    thx := thx, thy := thy, thz := thz, blk := blk, cutting := cutting, after := after }

/-! ### Operations -/

/-- The block of a lane of the operation's warp, as the operation issued. -/
def Op.blkOf (o : Op) (lane : Nat) : Nat := o.laneBlk.getD lane o.blk

/-- The weight store of an operation's kernel on its core (R176). -/
def Op.weights (o : Op) : Space := .weight o.die o.pos o.kern

/-- The accumulator store of an operation's kernel on its core. -/
def Op.accs (o : Op) : Space := .acc o.die o.pos o.kern

/-- An operand slot of an operation's kernel on its core. -/
def Op.operand (o : Op) (k : Nat) : Space := .slot o.die o.pos o.kern k

/-- The operation of an id. -/
def opAt (s : State) (id : Nat) : Option Op := s.ops.find? fun o => o.id = id

/-- Change an operation. -/
def modOp (s : State) (id : Nat) (f : Op → Op) : State :=
  { s with ops := updWhere (fun o => o.id = id) f s.ops }

/-- End an operation. -/
def endOp (s : State) (id : Nat) : State := { s with ops := s.ops.filter fun o => o.id ≠ id }

/-- The lane accesses an operation has still to perform. -/
def Op.pending (o : Op) : List LaneAcc :=
  match o.kind with
  | .access _ l => l
  | .late l => l
  | _ => []

/-- The device-domain accesses of some of these lanes of the operation are not all performed. -/
def Op.blocks (o : Op) (lanes : BitVec 32) : Bool :=
  match o.kind with
  | .access _ l => l.any fun a => lanes.getLsbD a.lane && !a.system
  | .late l => l.any fun a => lanes.getLsbD a.lane
  | .signal .. => (o.lanes &&& lanes) ≠ 0#32
  | _ => false

/-- Engine operations (R291): everything but the long-latency results of lanes. -/
def Op.isEngine (o : Op) : Bool :=
  match o.kind with
  | .divide _ | .access .. | .late _ | .mmack .. | .signal .. | .frames .. => false
  | _ => true

/-- Every access of a list of predecessors is performed (R213, R287, R291); an engine operation that has been joined
has ended (R292). -/
def afterDone (s : State) (l : List After) : Bool :=
  l.all fun a => match opAt s a.op with
    | some o => !(o.blocks a.lanes) && !o.isEngine
    | none => true

/-- The pending accesses of some lanes of a warp, which precede what those lanes do next (R287). -/
def pendingOf (s : State) (uid : Nat) (lanes : BitVec 32) : List After :=
  (s.ops.filter fun o => o.uid = uid && o.blocks lanes).map fun o => ⟨o.id, lanes⟩

/-- The predecessors a thread carries from barriers and its spawn that are still pending. -/
def liveAfter (s : State) (l : List After) : List After := l.filter fun a => !(afterDone s [a])

/-- The units left of an operation. -/
def Op.unitsLeft (o : Op) : List Unit :=
  match o.kind with
  | .units l => l
  | .mcast l => l
  | .transfer l .. => l
  | .ngu _ l .. => l
  | _ => []

end Sys2Proof.Machine
end

