-- ==== Sys2Proof/Machine/Release.lean ====
section
/-! DEFINITION. What a thread passes and what releases a waiting thread: loop holds (R195, R196), `fuse` holds
(R33), warp, block and cluster barriers (R213, R214, R269), and the exit of threads (R102). -/

namespace Sys2Proof.Machine

/-- Count an issue (R71 to R73, R101, R332): every lane of the path moves past the instruction, its
guard window and lookahead windows lose one. -/
def Thread.advance (stop : Bool) (t : Thread) : Thread :=
  { t with
    pc := t.pc + 4,
    guardN := if t.guardN = 0#4 then 0#4 else t.guardN - 1,
    owed := (t.owed.map fun o => { o with rem := o.rem - 1 }).filter fun o => !(o.done && o.rem = 0),
    stopIssues := if stop then t.stopIssues + 1 else t.stopIssues }

/-- The lookahead counts of a thread end (R71): what is not written yet is promised no more. -/
def Thread.endCounts (t : Thread) : Thread :=
  { t with owed := (t.owed.filter fun o => !o.done).map fun o => { o with rem := 0 } }

/-! ### Loop levels (R195, R196) -/

/-- The innermost active level at whose end a lane stands (R195): the one entered last. -/
def Warp.arriveLevel (w : Warp) (k : Nat) : Option Nat :=
  let t := w.lane k
  ((List.range 3).filter fun n =>
      match w.sh.loops[n]? with
      | some l => l.active && l.members.getLsbD k && decide (t.pc.toNat = l.last + 4)
      | none => false).foldl (fun best n => match best with
        | none => some n
        | some b => if (w.sh.loops.getD b ⟨false, 0, 0, 0, 0, 0⟩).order <
                       (w.sh.loops.getD n ⟨false, 0, 0, 0, 0, 0⟩).order then some n else some b) none

/-- Lanes that reached the end of a level wait in its hold (R195). -/
def Warp.arrive (w : Warp) (lanes : BitVec 32) : Warp :=
  { w with th := mapLanes lanes (fun k t =>
      if t.running && t.wait = .none then
        match w.arriveLevel k with
        | some n => { t with wait := .loopHold n }
        | none => t
      else t) w.th }

/-- One level acts when every member that has not exited or left has arrived (R195); a level without
members becomes inactive (R196). -/
def Warp.levelAct (w : Warp) (n : Nat) : Warp :=
  match w.sh.loops[n]? with
  | none => w
  | some l =>
    if !l.active then w
    else if l.members = 0#32 then
      { w with sh := { w.sh with loops := w.sh.loops.set n { l with active := false } } }
    else if (laneList l.members).all fun k => (w.lane k).wait = .loopHold n then
      let c := l.lc - 1
      if c ≠ 0#32 then
        { w with
          th := mapLanes l.members (fun _ t => { t with wait := .none, pc := BitVec.ofNat 52 l.first }) w.th,
          sh := { w.sh with loops := w.sh.loops.set n { l with lc := c } } }
      else
        let w := { w with
          th := mapLanes l.members (fun _ t => { t with wait := .none, pc := BitVec.ofNat 52 (l.last + 4) }) w.th,
          sh := { w.sh with loops := w.sh.loops.set n { l with lc := c, active := false } } }
        w.arrive l.members
    else w

/-- Some level is active. -/
def Warp.looping (w : Warp) : Bool := w.sh.loops.any fun l => l.active

/-- Arrivals and releases of the loop holds after an issue, inner levels first (R195, R196). -/
def Warp.loopSettle (w : Warp) (lanes : BitVec 32) : Warp :=
  if w.looping then
    (List.range 9).foldl (fun w i => w.levelAct (i % 3)) (w.arrive lanes)
  else w

/-! ### `fuse` (R33) -/

/-- The group of a lane: 8 the warp group, else the sprig of its quad (R31). -/
def Warp.groupOf (w : Warp) (k : Nat) : Nat := if w.sprigs.getLsbD (k / 4) then k / 4 else 8

/-- A lane waits in the hold of a `fuse` at an address. -/
def Warp.fusing (w : Warp) (f : BitVec 52) (k : Nat) : Bool :=
  (w.lane k).running && (w.lane k).pc = f && match (w.lane k).wait with
    | .fuse _ => true
    | _ => false

/-- The groups with a thread that has not exited. -/
def Warp.liveGroups (w : Warp) : List Nat :=
  distinct (((List.range 32).filter fun k => (w.lane k).running).map w.groupOf)

/-- The hold at an address ends (R33): when every group with a thread has one waiting there, or when
its 64 cycles are over (`expired`). -/
def Warp.fuseEnd (w : Warp) (f : BitVec 52) (expired : Bool) : Warp :=
  let lanes := (List.range 32).filter (w.fusing f)
  let groups := distinct (lanes.map w.groupOf)
  if lanes = [] || !(expired || w.liveGroups.all groups.contains) then w
  else
    let w := { w with th := mapLanes (maskOf lanes) (fun _ t =>
      { (t.advance false) with wait := .none }) w.th }
    let w := if 2 ≤ groups.length then
        let sprigs := w.sprigs &&& ~~~(BitVec.ofNat 8 (sumNat ((groups.filter (· < 8)).map (2 ^ ·))))
        { w with
          sprigs := sprigs,
          split := w.split.mapIdx fun q c => if sprigs.getLsbD q then c else 0 }
      else w
    w.loopSettle (maskOf lanes)

/-- The holds of the lanes of a list of which each ends when the groups make it due (R33). -/
def Warp.fuseRound (w : Warp) : Warp :=
  ((List.range 32).filterMap fun k => if w.fusing (w.lane k).pc k then some (w.lane k).pc else none).foldl
    (fun w f => w.fuseEnd f false) w

/-- Every hold whose end is due by the groups (R33); the end of one can make another due, once for each sprig. -/
def Warp.fuseSettle (w : Warp) : Warp :=
  if w.sprigs = 0#8 then w.fuseRound else (List.range 9).foldl (fun w _ => w.fuseRound) w

/-! ### Barriers (R213, R214, R269) -/

/-- A thread that a barrier still needs. -/
def Thread.needed (t : Thread) (br : Bar) : Bool := t.running && !(t.arrived.contains br)

/-- Release a thread of a barrier: its mark goes, its wait ends and it passes the instruction, and what it issues next
follows the accesses that the arrived threads issued (R213). -/
def Thread.release (br : Bar) (after : List After) (t : Thread) : Thread :=
  let u := if t.wait = .bar br then { t.advance false with wait := .none } else t
  { u with
    arrived := t.arrived.filter (· ≠ br),
    after := if t.running then t.after ++ after else t.after }

/-- Release the threads of a warp that satisfy a test, and let them arrive at loop levels (R195). -/
def Warp.release (w : Warp) (br : Bar) (after : List After) (p : Thread → Bool) : Warp :=
  let m := w.lanesWhere fun t => p t && t.wait = .bar br
  { w with th := w.th.map fun t => if p t then t.release br after else t }.loopSettle m

/-- The accesses of the threads of some warps that are not performed (R213). -/
def pendingAll (s : State) (ws : List Warp) (p : Thread → Bool) : List After :=
  ws.flatMap fun w => pendingOf s w.uid (w.lanesWhere p)

/-- `barw` releases when every thread of the warp has arrived or exited (R213). -/
def settleBarw (s : State) (die pos slot : Nat) : State :=
  match (coreAt s die pos).warpAt slot with
  | none => s
  | some w =>
    if w.th.any (fun t => t.running && t.arrived.contains .w) && !(w.th.any fun t => t.needed .w) then
      let after := pendingAll s [w] fun t => t.running
      modWarp s die pos slot fun w => w.release .w after fun _ => true
    else s

/-- A thread of a block that its block and cluster barriers count (R213, R269). -/
def Thread.member (g : Grid) (wg : Nat) (blks : List Nat) (t : Thread) : Bool :=
  wg = g.id && t.running && !t.cutting && blks.contains t.blk

/-- A barrier over the threads of some blocks of a grid, all placed (R213, R269, R322). -/
def settleBlocks (s : State) (g : Grid) (br : Bar) (blks : List Nat) : State :=
  let cores := s.cores.filter fun c => c.warps.any fun w => w.grid = g.id
  let ws := cores.flatMap fun c => c.warps.filter fun w => w.grid = g.id
  let mem := fun (w : Warp) (t : Thread) => t.member g w.grid blks
  let here := ws.any fun w => w.th.any fun t => mem w t && t.arrived.contains br
  let need := ws.any fun w => w.th.any fun t => mem w t && t.needed br
  if here && !need then
    let after := ws.flatMap fun w => pendingOf s w.uid (w.lanesWhere (mem w))
    { s with
      cores := s.cores.map fun c =>
        { c with
          warps := c.warps.map fun w => if w.grid = g.id then w.release br after (mem w) else w } }
  else s

/-- Block and cluster barriers of the block and neighbourhood of a block (R213, R269). -/
def settleHood (s : State) (g : Grid) (blk : Nat) : State :=
  let s := settleBlocks s g .b [blk]
  match g.hoodOf blk with
  | none => s
  | some h =>
    if h.blocks.all fun b => b.st = .placed || b.st = .retired then
      (List.range 8).foldl (fun st k => settleBlocks st g (.c k) (h.blocks.map (·.idx))) s
    else s

/-- Every thread of a block, cuttings excluded, has arrived at grid counter k or exited (R322). -/
def blockArrived (s : State) (g : Grid) (blk k : Nat) : Bool :=
  !(s.cores.any fun c => c.warps.any fun w => w.th.any fun t => t.member g w.grid [blk] && t.needed (.g k))

/-- A grid barrier releases when every block has arrived or retired (R322), and none of them is saved: the saved threads
are released when they are back (log 75). -/
def settleGrid (s : State) (gid k : Nat) : State :=
  match gridAt s gid with
  | none => s
  | some g =>
    let blks := g.hoods.flatMap (·.blocks)
    if g.barg.any (fun x => x.1 = k) && decide (blks.length = g.blockCount) &&
        blks.all (fun x => x.st = .retired || (x.st ≠ .saved && g.barg.contains (k, x.idx))) then
      let s := settleBlocks s g (.g k) (blks.map (·.idx))
      modGrid s gid fun g => { g with barg := g.barg.filter fun x => x.1 ≠ k }
    else s

/-! ### Exit (R102) -/

/-- Lanes leave a warp: they are no longer members of any loop level, and owed results are dropped. -/
def Warp.leave (w : Warp) (m : BitVec 32) (life : Life) : Warp :=
  { w with
    th := mapLanes m (fun _ t => { t with life := life, wait := .none, owed := [], arrived := [] }) w.th,
    sh := { w.sh with loops := w.sh.loops.map fun l => { l with members := l.members &&& ~~~m } } }

/-- After lanes left a warp: loop levels and `fuse` holds of the rest. -/
def Warp.settle (w : Warp) : Warp := (w.loopSettle 0).fuseSettle

end Sys2Proof.Machine
end

