-- ==== Sys2Proof/Machine/Records.lean ====
section
/-! DEFINITION. Record rings and the records that the device posts to the host (R324, R375, R389, R390). -/

namespace Sys2Proof.Machine

/-- The record rings of a die (R389). -/
inductive RingId where
  | fault
  | suspect
  | partialR
  | memerr
  | reclaim
  deriving DecidableEq, Repr

/-- Bytes of a ring's unit (R389). -/
def RingId.unit : RingId → Nat
  | .fault => 64
  | .suspect => 32
  | .partialR => 64
  | .memerr => 32
  | .reclaim => 16

/-- A ring of a die. -/
def ringOf (d : Die) : RingId → Ring
  | .fault => d.fault
  | .suspect => d.suspect
  | .partialR => d.partialR
  | .memerr => d.memerr
  | .reclaim => d.reclaim

/-- Replace a ring of a die. -/
def setRing (d : Die) (i : RingId) (r : Ring) : Die :=
  match i with
  | .fault => { d with fault := r }
  | .suspect => { d with suspect := r }
  | .partialR => { d with partialR := r }
  | .memerr => { d with memerr := r }
  | .reclaim => { d with reclaim := r }

/-- Change a ring. -/
def modRing (s : State) (die : Nat) (i : RingId) (f : Ring → Ring) : State :=
  modDie s die fun d => setRing d i (f (ringOf d i))

/-- The physical address of a BASE register (R389). -/
def baseAddr (b : BitVec 64) : Nat := bits b.toNat 51 12 * 4096

/-- The units of a ring (R389). -/
def baseUnits (b : BitVec 64) : Nat := 2 ^ bits b.toNat 4 0

/-- A BASE register names a usable ring of units of a size (R389). -/
def baseUsable (b : BitVec 64) (unit : Nat) : Bool :=
  let a := baseAddr b
  let n := baseUnits b * unit
  decide (4 ≤ bits b.toNat 4 0) && decide (bits b.toNat 4 0 ≤ 20) &&
    (rangeInHbm a n || (inHost a && inHost (a + n - 1)))

/-- The ring has room for `n` units (R389). -/
def ringRoom (r : Ring) (i : RingId) (n : Nat) : Bool :=
  baseUsable r.base i.unit && decide (r.prod.toNat + n ≤ r.cons.toNat + baseUnits r.base)

/-- A host interrupt of a die (R389). -/
def hostIrq (s : State) (die : Nat) : State := { s with out := s.out ++ [.irq die] }

/-- Write the units of a record from PROD onward, then advance PROD (R389). -/
def ringWrite (s : State) (die : Nat) (i : RingId) (bytes : List Byte) : State :=
  let r := ringOf (dieOf s die) i
  let n := bytes.length / i.unit
  let w := (List.range n).foldl (fun st k =>
    let slot := (r.prod.toNat + k) % baseUnits r.base
    devPublish st (baseAddr r.base + slot * i.unit) ((bytes.drop (k * i.unit)).take i.unit)) s
  hostIrq (modRing w die i fun r => { r with prod := r.prod + BitVec.ofNat 64 n }) die

/-- A record joins those that wait for room (R390). -/
def ringWait (s : State) (die : Nat) (i : RingId) (bytes : List Byte) : State :=
  modRing s die i fun r => { r with waiting := r.waiting ++ [bytes] }

/-- Write the oldest waiting record if the ring has room for it (R390). -/
def ringFlush (s : State) (die : Nat) (i : RingId) : State :=
  let r := ringOf (dieOf s die) i
  match r.waiting with
  | [] => s
  | b :: t =>
    if ringRoom r i (b.length / i.unit) then
      ringWrite (modRing s die i fun r => { r with waiting := t }) die i b
    else s

/-- The memory error record of R375; a ring without room drops it and counts it lost (R390). -/
def memErrorRecord (s : State) (die asid pa src kind : Nat) : State :=
  let v := kind + src * 2 ^ 4 + (pa / Config.stackBytes % 16) * 2 ^ 8 +
    (pa / 64 * 64) * 2 ^ 64 + asid * 2 ^ 128 + s.ns * 2 ^ 192
  if ringRoom (dieOf s die).memerr .memerr 1 then ringWrite s die .memerr (toBytes 32 v)
  else modRing s die .memerr fun r =>
    { r with lost := if r.lost = 0xFFFFFFFF#32 then r.lost else r.lost + 1 }

/-- A read whose tag does not match poisons both sectors of its unit and posts a record (R373). -/
def integrityFail (s : State) (asid pa src : Nat) : State :=
  memErrorRecord (poisonUnit s (pa / 64)) (dieOfPa pa) asid pa src 2

/-- A read of a range: each unit whose tag does not match is poisoned and recorded (R373); one that is poisoned already
was recorded then. -/
def tagsFail (s : State) (sp : Space) (a n kd asid src : Nat) : State :=
  ((mismatches s sp a n kd).filter fun u => !(marked s u)).foldl (fun st u => integrityFail st asid (64 * u) src) s

/-- What a read by the command processor that fails leaves (R358, R373, R377): what its walk met counts, and the units
whose tag fails are marked. -/
def readNotes (s : State) (die asid va n : Nat) : State :=
  match translate s asid va false false none with
  | .error d => noteDenial s die d
  | .ok t => noteRead (tagsFail s .phys t.pa n t.kd asid 0) .phys t.pa n

/-- The die's host interrupt record of a fault (R324): the 64-byte entry of a thread fault record. -/
def faultEntry (rec : BitVec 256) (seq : Word) (die pos blk : Nat) (engine xfer : Bool) : List Byte :=
  toBytes 64 (rec.toNat + seq.toNat * 2 ^ 256 + die * 2 ^ 288 +
    (if xfer then 0 else corepos pos * 2 ^ 290 + blk * 2 ^ 298) +
    (if engine then 2 ^ 330 else 0) + (if xfer then 2 ^ 331 else 0))

/-- Post a fault record (R324): it takes the die's next sequence number and waits for the ring. -/
def postFault (s : State) (rec : BitVec 256) (die pos blk : Nat) (engine xfer : Bool) : Word × State :=
  let seq := (dieOf s die).faultSeq
  let s := modDie s die fun d => { d with faultSeq := d.faultSeq + 1 }
  (seq, ringWait s die .fault (faultEntry rec seq die pos blk engine xfer))

/-! ### Performance counters (R385) -/

/-- A counter set after `n` occurrences of an event: a counter that wraps sets its ovf bit. -/
def Pmc.count (x : Pmc) (ev n : Nat) : Pmc :=
  let on := fun (sel : Word) => bit sel.toNat 31 && bits sel.toNat 7 0 = ev
  { x with
    cnt := x.cnt.mapIdx fun i c =>
      if on (x.sel.getD i 0) then BitVec.ofNat 64 ((c.toNat + n) % 2 ^ 48) else c,
    sel := x.sel.mapIdx fun i v =>
      if on v && decide (2 ^ 48 ≤ (x.cnt.getD i 0).toNat + n) then v ||| 0x40000000#32 else v }

/-- Counter i of the set wraps on `n` occurrences of an event. -/
def Pmc.wrapsAt (x : Pmc) (ev n i : Nat) : Bool :=
  let v := (x.sel.getD i 0).toNat
  bit v 31 && bits v 7 0 = ev && decide (2 ^ 48 ≤ (x.cnt.getD i 0).toNat + n)

/-- Some counter of the set wraps on `n` occurrences of an event. -/
def Pmc.wraps (x : Pmc) (ev n : Nat) : Bool := (List.range 4).any (x.wrapsAt ev n)

/-- The counters of a function; 16 is the physical function. -/
def pmcOf (s : State) (vf : Nat) : Pmc := lookupD s.pmcs vf ⟨List.replicate 4 0, List.replicate 4 0, false⟩

/-- Count an event of a function's work while it is the active function; event 7 counts only in the
physical function (R385). -/
def countEvent (s : State) (vf ev n : Nat) : State :=
  let v := if ev = 7 then 16 else vf
  if ev ≠ 7 && vf ≠ s.activeVf then s
  else
    let x := pmcOf s v
    let s := if x.sel.all (fun y => y = 0#32) then s else { s with pmcs := assign s.pmcs v (x.count ev n) }
    if x.wraps ev n then
      { s with out := s.out ++ [.msix v],
               justSet := ((List.range 4).filter (x.wrapsAt ev n)).map (.overflow v) ++ s.justSet }
    else s

/-- Some enabled counter of the set counts an event. -/
def Pmc.counts (x : Pmc) (ev : Nat) : Bool := x.sel.any fun v => bit v.toNat 31 && bits v.toNat 7 0 = ev

/-- What the caches count in a turn (R385): events 3 to 6, on the lines of the active function's work, while it has
some. The contents of the caches are no state of this model, so how many there are is a free value (log 67). -/
def cacheTurn (s : State) : State :=
  if s.grids.any fun g => g.vf = s.activeVf && !g.complete then
    [3, 4, 5, 6].foldl (fun st ev =>
      if (pmcOf st st.activeVf).counts ev then
        countEvent { st with fresh := st.fresh + 1 } st.activeVf ev (Config.freeWord st.fresh).toNat
      else st) s
  else s

/-- Count an event of a grid's function (R385). -/
def countGridEvent (s : State) (g ev n : Nat) : State :=
  match gridAt s g with
  | some x => countEvent s x.vf ev n
  | none => s

/-- The thread fault record (R147 Table 4). -/
def faultRecord (cls code space : Nat) (write : Bool) (asid slot : Nat) (lanes path : BitVec 32)
    (pc : BitVec 52) (addr : Nat) : BitVec 256 :=
  BitVec.ofNat 256 (addr % 2 ^ 64 + pc.toNat * 2 ^ 64 + lanes.toNat * 2 ^ 128 + path.toNat * 2 ^ 160 +
    cls * 2 ^ 192 + code * 2 ^ 196 + (lowLane lanes % 32) * 2 ^ 204 + slot * 2 ^ 209 +
    space * 2 ^ 224 + (if write then 2 ^ 227 else 0) + asid * 2 ^ 228)

end Sys2Proof.Machine
end

