-- ==== Sys2Proof/Machine/Blocks.lean ====
section
/-! DEFINITION. The life of blocks, neighbourhoods and grids: slots and their claims (R211, R212),
leaving a core (R173, R265), retirement (R37, R313), kill and relaunch (R276), the end of a grid (R348). -/

namespace Sys2Proof.Machine

/-! ### Operand slots -/

/-- The operation names a slot (R212). -/
def slotNamed (o : Op) (k : Nat) : Bool :=
  match o.kind with
  | .mma m => bits m.desc.toNat 3 0 = k || (!(bit m.desc.toNat 8) && bits m.desc.toNat 7 4 = k)
  | .tdec t _ => t.slot = k
  | .units l => l.any fun u => u.segs.any fun g => match g.dst with
      | some (.at (.slot _ _ _ j) _) => j = k
      | _ => false
  | _ => false

/-- An engine operation that named the slot before a release which the operation follows is not complete (R212). -/
def slotBusy (s : State) (o : Op) (k : Nat) : Bool :=
  match (coreAt s o.die o.pos).kernelOf o.grid with
  | none => false
  | some kn => s.ops.any fun e => e.die = o.die && e.pos = o.pos && e.kern = o.kern && slotNamed e k &&
      kn.releases.any fun r => r.1 = k && decide (e.id < r.2) && decide (r.2 ≤ o.id)

/-- Write the saved sectors of a slot (R248): they count as written there (R246), and a sector that was saved poisoned
is so again (R347). -/
def writeSectors (s : State) (sp : Space) (l : List (Nat × Bool × List Byte)) : State :=
  l.foldl (fun st x =>
    let st := clearPoison (writeBytes st sp (32 * x.1) x.2.2) sp (32 * x.1) 32
    let lo := localOf st sp
    let st := setLocal st { lo with touched := (x.1, 0) :: lo.touched.filter (· ≠ (x.1, 0)) }
    if x.2.1 then addPoison st sp x.1 else st) s

/-- Give a free slot to the first waiting claim (R212, R248), with its saved sectors. -/
def grantSlot (s : State) (die pos g k : Nat) : State :=
  match (coreAt s die pos).kernelOf g with
  | none => s
  | some kn =>
    if (kn.owner.lookup k).isSome then s
    else match kn.claims.find? fun c => c.slot = k with
    | none => s
    | some c =>
      let rest := kn.claims.filter fun x => ¬(x.slot = k ∧ x.warp = c.warp)
      let s := modKernel s die pos g fun kn => { kn with owner := (k, c.warp) :: kn.owner, claims := rest }
      let s := writeSectors s (.slot die pos g k) c.sectors
      modWarpUid s c.warp fun w => { w with restoring := w.restoring.filter (· ≠ k) }

/-- Free a slot (R211) and grant it to the first waiting claim; what is issued from here on follows the operations that
named it (R212). -/
def freeSlot (s : State) (die pos g k : Nat) : State :=
  grantSlot (modKernel s die pos g fun kn => { kn with
      owner := kn.owner.filter fun x => x.1 ≠ k,
      releases := if s.ops.any fun e => e.die = die && e.pos = pos && e.kern = g && slotNamed e k
        then (k, s.nextId) :: kn.releases else kn.releases })
    die pos g k

/-- A warp gives up its slots and its claims (R211, R250). -/
def freeWarpSlots (s : State) (die pos g uid : Nat) : State :=
  let s := modKernel s die pos g fun kn => { kn with claims := kn.claims.filter fun c => c.warp ≠ uid }
  match (coreAt s die pos).kernelOf g with
  | none => s
  | some kn => (kn.owner.filter fun x => x.2 = uid).foldl (fun st x => freeSlot st die pos g x.1) s

/-! ### Leaving a core -/

/-- Some lane of the warp holds a thread of another block that has not exited (R416). -/
def Warp.othersThan (w : Warp) (blk : Nat) : Bool := w.th.any fun t => t.running && t.blk ≠ blk

/-- Remove a block's lanes from a warp; the removed lanes are permanently inactive (R416). -/
def Warp.removeBlock (w : Warp) (blk : Nat) : Warp :=
  let gone := w.lanesWhere fun t => t.blk = blk && t.life ≠ .absent
  { (w.leave gone .removed).settle with
    faults := (w.faults.filter fun f => f.lanes &&& ~~~gone ≠ 0#32).map fun f =>
      { f with lanes := f.lanes &&& ~~~gone } }

/-- Take a block's warps and lanes off its core (R276, R416). -/
def removeWarps (s : State) (die pos g blk : Nat) : State :=
  let c := coreAt s die pos
  let mine := c.warps.filter fun w => w.grid = g && w.th.any fun t => t.life ≠ .absent && t.blk = blk
  mine.foldl (fun st w =>
    if w.othersThan blk then
      settleBarw (modWarp st die pos w.slot fun w => w.removeBlock blk) die pos w.slot
    else
      let st := freeWarpSlots st die pos g w.uid
      modCore st die pos fun c => { c with warps := c.warps.filter fun x => x.uid ≠ w.uid }) s

/-- Drop a block's cuttings from the beds and the restore list (R250, R276); an emptied bed releases
its key (R171). -/
def dropCuttings (s : State) (die pos g blk : Nat) : State :=
  modCore s die pos fun c =>
    { c with
      beds := (c.beds.map fun b => { b with cuttings := b.cuttings.filter fun x => ¬(x.grid = g ∧ x.blk = blk) }).filter
        fun b => b.cuttings ≠ [],
      restore := c.restore.filter fun x => ¬(x.grid = g ∧ x.blk = blk) }

/-- Anything of a grid is left on a core (R173). -/
def kernelHeld (s : State) (die pos g : Nat) : Bool :=
  let c := coreAt s die pos
  c.warps.any (fun w => w.grid = g) || c.beds.any (fun b => b.grid = g) ||
    c.restore.any (fun x => x.grid = g) ||
    (match gridAt s g with
     | some x => x.hoods.any fun h => h.blocks.any fun b => b.st = .placed && b.die = die && b.pos = pos
     | none => false)

/-- The space is one of the stores that a kernel reserves on a core (R176). -/
def kernelStore (die pos g : Nat) (sp : Space) : Bool :=
  match sp with
  | .weight d p k => d = die && p = pos && k = g
  | .acc d p k => d = die && p = pos && k = g
  | .slot d p k _ => d = die && p = pos && k = g
  | _ => false

/-- A late result of a warp's threads: with the threads gone, nothing takes it (R102). -/
def Op.lateResult (o : Op) : Bool :=
  match o.kind with
  | .late _ | .mmack .. => true
  | _ => false

/-- A store of a kernel on a core, under another kernel name. -/
def rekeySpace (die pos g k : Nat) (sp : Space) : Space :=
  match sp with
  | .weight d p x => if d = die && p = pos && x = g then .weight d p k else sp
  | .acc d p x => if d = die && p = pos && x = g then .acc d p k else sp
  | .slot d p x j => if d = die && p = pos && x = g then .slot d p k j else sp
  | _ => sp

/-- A unit with the spaces it names changed. -/
def Unit.mapSpace (f : Space → Space) (u : Unit) : Unit :=
  let place := fun (x : Place) => match x with
    | .at sp a => .at (f sp) a
    | x => x
  { u with
    segs := u.segs.map fun g => { g with src := g.src.map place, dst := g.dst.map place },
    out := u.out.map fun l => l.map fun ps => ps.map fun x => { x with sp := f x.sp } }

/-- The operation with its kernel's stores under another name. -/
def Op.rekey (die pos g k : Nat) (o : Op) : Op :=
  if o.die = die && o.pos = pos && o.kern = g then
    { o with
      kern := k,
      kind := match o.kind with
        | .units l => .units (l.map (Unit.mapSpace (rekeySpace die pos g k)))
        | x => x }
  else o

/-- Operations go, and with them the rows that they put in the elastic queue (R191, R276). -/
def dropOps (s : State) (p : Op → Bool) : State :=
  let ids := (s.ops.filter p).map (·.id)
  { s with
    ops := s.ops.filter fun o => !(p o),
    cores := s.cores.map fun c => { c with queue := c.queue.filter fun r => !(ids.contains r.op) } }

/-- The stores that a kernel leaves on a core are kept, under a name of their own, for the operations that go on with them
(R102, R178; log 70). -/
def keepKernel (s : State) (die pos g : Nat) : State :=
  if s.ops.any fun o => o.die = die && o.pos = pos && o.kern = g && o.isEngine then
    let k := s.nextId
    { s with
      nextId := k + 1,
      ops := s.ops.map (Op.rekey die pos g k),
      locals := s.locals.map fun l => { l with key := rekeySpace die pos g k l.key },
      poison := s.poison.map fun x => (rekeySpace die pos g k x.1, x.2) }
  else s

/-- The reservation is released when the kernel's last block, cutting and bed have left (R173), and its stores are gone
for every later kernel (R178). What its threads issued before goes on (R102). -/
def releaseKernel (s : State) (die pos g : Nat) : State :=
  if kernelHeld s die pos g then s
  else
    let s := modCore s die pos fun c => { c with kernels := c.kernels.filter fun k => k.grid ≠ g }
    let s := dropOps s fun o => o.die = die && o.pos = pos && o.kern = g && o.lateResult
    let s := keepKernel s die pos g
    { s with locals := s.locals.filter fun l => !(kernelStore die pos g l.key),
             poison := s.poison.filter fun x => !(kernelStore die pos g x.1) }

/-- The generations that accesses still to be performed carry for a core (R265). -/
def gensInFlight (s : State) (die pos : Nat) : List Word :=
  s.ops.flatMap fun o => (o.pending.filterMap (·.gen) ++ o.unitsLeft.filterMap (·.gen)).filterMap fun x =>
    if x.1 = die && x.2.1 = pos then some x.2.2 else none

/-- The generation after an increment (R265): one that an access in flight carries is passed over, where the part delays
the increment; nothing reads a generation (log 72). -/
def nextGen (s : State) (die pos : Nat) (gen : Word) : Word :=
  let used := gensInFlight s die pos
  (((List.range (used.length + 1)).map fun i => gen + 1 + BitVec.ofNat 32 i).find? fun x => !(used.contains x)).getD (gen + 1)

/-- The accesses of a block's threads to their own scratch, when the block leaves a core: they reach what the core keeps
of it, and no later block's scratch (R178, R290). -/
def Op.leaving (g blk die pos : Nat) (o : Op) : Op :=
  match o.kind with
  | .access ld l =>
    if o.grid = g then
      { o with kind := .access ld (l.map fun a =>
          if a.blk = blk && a.gen.isNone && a.sp = .scratch die pos then { a with sp := .left g blk } else a) }
    else o
  | _ => o

/-- The scratch of a block that leaves is kept for the operations that it has outstanding (R178, R268, R290; log 70). -/
def keepScratch (s : State) (die pos g blk : Nat) : State :=
  if s.ops.any fun o => o.grid = g && (o.blk = blk || o.pending.any fun a => a.blk = blk) then
    { (moveLocal s (.scratch die pos) (.left g blk)) with ops := s.ops.map (Op.leaving g blk die pos) }
  else s

/-- A block leaves its core: its generation advances (R265), its stay ends (R346), and the kernel's
reservation goes with the last of it. -/
def leaveCore (s : State) (g blk : Nat) (st : BlockState) : State :=
  match (gridAt s g).bind fun x => x.block blk with
  | none => s
  | some b =>
    let s := modBlock s g blk fun b => { b with
      st := st, ran := true,
      unconfirmed := (b.die, b.pos) :: b.unconfirmed.filter (· ≠ (b.die, b.pos)) }
    let s := keepScratch s b.die b.pos g blk
    let next := nextGen s b.die b.pos
    let s := modCore s b.die b.pos fun c =>
      { c with gen := next c.gen,
               runs := updWhere (fun r => r.grid = g ∧ r.blk = blk ∧ r.left = none)
                 (fun r => { r with left := some s.ns }) c.runs }
    releaseKernel s b.die b.pos g

/-- The warps of a core that go with a block as a whole (R416). -/
def wholeWarps (s : State) (die pos g blk : Nat) : List Nat :=
  ((coreAt s die pos).warps.filter fun w =>
    w.grid = g && w.th.any (fun t => t.life ≠ .absent && t.blk = blk) && !(w.othersThan blk)).map (·.uid)

/-- The block of a unit: that of its lane for a lane copy (R182). -/
def Op.unitBlk (o : Op) (u : Unit) : Nat := if u.recv = 0 then o.blkOf u.tag else o.blk

/-- The units of lane copies and tensor copies that other blocks' lanes issued. -/
def Op.spared (o : Op) (blk : Nat) : List Unit :=
  match o.kind with
  | .units l => l.filter fun u => o.unitBlk u ≠ blk
  | _ => []

/-- The engine operations of a block are discarded (R250, R276): those of the warps that go with it, and its own of warps
that have ended, but not those of a warp that other blocks keep (R416); accesses that passed their check point stay
(R290). -/
def discardEngines (s : State) (g blk : Nat) (uids : List Nat) : State :=
  let ended := fun (o : Op) => o.grid = g && o.isEngine && (warpOfUid s o.uid).isNone
  let own := fun (o : Op) => match o.kind with
    | .units _ => o.spared blk = []
    | _ => o.blk = blk
  let s' := dropOps s fun o => (o.grid = g && o.isEngine && uids.contains o.uid) || (ended o && own o)
  { s' with ops := s'.ops.map fun o => if ended o then match o.kind with
      | .units _ => { o with kind := .units (o.spared blk) }
      | _ => o
    else o }

/-- A block is killed or flushed: what is left of what its threads issued belongs to no block any more, so no error of it
kills another stay of the block (R152; log 54), and no failure of it waits for a release. -/
def markGone (s : State) (g blk : Nat) : State :=
  { s with
    ops := s.ops.map fun o => if o.grid = g then
        { o with gone := o.gone ||| maskOf ((List.range 32).filter fun k => o.blkOf k = blk) }
      else o,
    dies := s.dies.map fun d => { d with clusters := d.clusters.map fun c =>
      { c with held := c.held.filter fun x => ¬(x.grid = g ∧ x.blk = blk) } } }

/-- A kill waits until the window accesses of the block's threads are performed or discarded (R265): here that is one
instant, and what they do goes with the scratch they reach (log 72). -/
def endWindows (s : State) (g blk : Nat) : State :=
  let mine := fun (a : LaneAcc) => a.blk = blk && a.gen.isSome
  { s with ops := (s.ops.filter fun o => !(o.grid = g && o.pending ≠ [] && o.pending.all mine)).map fun o =>
      match o.kind with
      | .access ld l => if o.grid = g then { o with kind := .access ld (l.filter fun a => !(mine a)) } else o
      | _ => o }

/-- A kill on a stopped cluster clears the debug records of the block's warps (R276, R280). -/
def clearSkids (s : State) (die pos g blk : Nat) : State :=
  let cl := clusterOf pos
  if clusterStopped s die cl then
    let gone := ((coreAt s die pos).warps.filter fun w => w.grid = g && !(w.othersThan blk)).map fun w =>
      64 * localPos pos + w.slot
    modCluster s die cl fun c => { c with skid := c.skid.filter fun x => !(gone.contains x.1) }
  else s

/-- A block is killed (R152, R276): its warps, cuttings, slots and engine operations go. -/
def killBlock (s : State) (g blk : Nat) (st : BlockState) : State :=
  match (gridAt s g).bind fun x => x.block blk with
  | none => s
  | some b =>
    let s := markGone s g blk
    if b.st = .placed then
      let s := clearSkids s b.die b.pos g blk
      let s := discardEngines s g blk (wholeWarps s b.die b.pos g blk)
      let s := removeWarps s b.die b.pos g blk
      let s := dropCuttings s b.die b.pos g blk
      leaveCore (endWindows s g blk) g blk st
    else if b.st = .saved then modBlock s g blk fun b => { b with st := st }
    else discardEngines s g blk []

/-! ### Stopped warps (R243, R332) -/

/-- The placed blocks of a neighbourhood. -/
def Hood.placed (h : Hood) : List Block := h.blocks.filter fun b => b.st = .placed

/-- The warp holds a lane of a block of the list. -/
def Warp.holds (w : Warp) (g : Nat) (blks : List Nat) : Bool :=
  w.grid = g && w.th.any fun t => t.life = .live && blks.contains t.blk

/-- Change every resident warp that satisfies a test. -/
def modWarps (s : State) (p : Warp → Bool) (f : Warp → Warp) : State :=
  { s with cores := s.cores.map fun c => { c with warps := updWhere p f c.warps } }

/-- Some neighbourhood that is being saved has lanes in the warp. -/
def stillSaving (s : State) (w : Warp) : Bool :=
  match gridAt s w.grid with
  | none => false
  | some g => g.hoods.any fun h => h.st = .saving && w.holds g.id (h.placed.map (·.idx))

/-- The thread waits where a save stops its path (R243). -/
def Thread.rests (t : Thread) : Bool :=
  match t.wait with
  | .none | .signal _ => false
  | _ => true

/-- Warps that no save stops any more issue again; the stop has ended the counts of the threads that it stopped
(R71). -/
def resumeWarps (s : State) : State :=
  modWarps s (fun w => w.stopReq && !(stillSaving s w)) fun w =>
    { w with
      stopReq := false,
      th := w.th.map fun t =>
        if t.rests then { t.endCounts with wait := if t.wait = .stopped then .none else t.wait } else t }

/-! ### Headers of saved contexts (R337) -/

/-- The header of a context as a number (R337 Table 7). -/
def headerWord (s : State) (c : Context) (raw pay : Nat) : Nat :=
  let g := gridAt s c.grid
  let members := sumNat (c.blocks.map fun b => 2 ^ b.rank)
  let later := s.contexts.filter fun x => x.grid = c.grid && decide (c.id < x.id)
  let next := match sortBy (fun (x y : Context) => decide (x.id < y.id)) later with
    | x :: _ => x.addr
    | [] => 0
  c.st + c.kind * 4 + c.cdie * 16 + 2 ^ 8 + raw / 256 * 2 ^ 32 + (Config.retainedAt c.grid).toNat * 2 ^ 64 +
    ((g.map (·.asid)).getD 0) * 2 ^ 116 + next * 2 ^ 128 + c.hood * 2 ^ 192 + members * 2 ^ 224 + c.savedNs * 2 ^ 256 +
    pay * 2 ^ 320 + raw * 2 ^ 352

/-- Write a context's header, keeping its sizes. -/
def writeHeader (s : State) (c : Context) : State :=
  let old := devRead s c.addr 128
  devWrite s c.addr 128 (headerWord s c (bits old 383 352) (bits old 351 320))

/-- A context is gone: its header reads state 0 and its units return to the heap; the links of the grid's other
contexts follow (R337, R340). -/
def dropContext (s : State) (id : Nat) : State :=
  match s.contexts.find? fun c => c.id = id with
  | none => s
  | some c =>
    let s := { s with contexts := s.contexts.filter fun x => x.id ≠ id }
    let s := devWrite s c.addr 1 (putBits (devRead s c.addr 1) 1 0 0)
    (s.contexts.filter fun x => x.grid = c.grid && x.st = 2).foldl writeHeader s

/-! ### Ends -/

/-- A started packet leaves the queue's started packets (R313). -/
def dropPacket (s : State) (die q idx : Nat) : State :=
  modDie s die fun d => { d with packets := d.packets.filter fun p => ¬(p.queue = q ∧ p.idx = idx) }

/-- A signal update joins those that its command processor has to make (R314). -/
def addUpdate (s : State) (die : Nat) (u : Update) : State :=
  modDie s die fun d => { d with updates := d.updates ++ [u] }

/-- Queue a completion update of a queue's work (R313, R314). An address of 0 names no signal (R312), and the packet
is complete; that of a grid stays until the grid's writes are in their place (R352). -/
def queueUpdate (s : State) (die : Nat) (u : Update) : State :=
  if u.va = 0 ∧ u.grid = none then
    match u.pkt with
    | some i => dropPacket s die u.queue i
    | none => s
  else addUpdate s die u

/-- The two's-complement word of a negative signal value (R314 Table 4). -/
def negative (n : Nat) : BitVec 64 := BitVec.ofNat 64 (2 ^ 64 - n)

/-- The blocks whose work a completion reports (R344). -/
def Grid.work (g : Grid) : List (Nat × Nat) :=
  g.hoods.flatMap fun h => h.blocks.map fun b => (g.id, b.idx)

/-- Put a queue in error: `err` holds the first error only (R308). -/
def queueError (s : State) (die q err : Nat) : State :=
  let a := baseAddr (dieOf s die).qdescBase + 64 * q
  let x := devRead s a 64
  if bits x 239 238 = 2 then
    (if bits x 247 240 = 1 then modDie s die fun d => { d with halted := q :: d.halted } else s)
  else if bits x 239 238 ≠ 1 then s
  else devWrite s a 64 (putBits (putBits x 247 240 err) 239 238 2)

/-- A grid ends without completing (R348): nothing more is placed, every placed block is killed, its
saved contexts are discarded, and the partial-completion record is owed. -/
def endGrid (s : State) (g cause : Nat) : State :=
  match gridAt s g with
  | none => s
  | some x =>
    if x.ended.isSome || x.complete then s
    else
      let s := (x.hoods.flatMap (·.blocks)).foldl (fun st b =>
        if b.st = .placed then killBlock st g b.idx .killed else st) s
      let s := modGrid s g fun x => { x with
        ended := some cause,
        hoods := x.hoods.map fun h => { h with
          st := .done, freeFor := none,
          blocks := h.blocks.map fun b =>
            if b.st = .waiting ∧ b.ran then { b with st := .killed } else b } }
      let s := (s.contexts.filter fun c => c.grid = g).foldl (fun st c => dropContext st c.id) s
      let s := modDie s x.die fun d => { d with pcrs := d.pcrs ++ [⟨g, cause, false⟩] }
      let s := if cause = 5 then s else queueError s x.die x.queue 4
      queueUpdate (resumeWarps s) x.die
        { queue := x.queue, own := true, asid := x.asid, va := x.csig, value := negative cause,
          add := false, grid := some g, pkt := some x.pkt, seq := none,
          prov := x.work, negative := true }

/-- The kill path of a neighbourhood (R276): every member is killed; a rerunnable launch places it
again from entry, its retired members included; otherwise the grid ends with −4. -/
def killHood (s : State) (g h : Nat) : State :=
  match gridAt s g with
  | none => s
  | some x =>
    match x.hoods.find? fun y => y.idx = h with
    | none => s
    | some y =>
      let s := y.blocks.foldl (fun st b => killBlock st g b.idx .killed) s
      let s := modGrid s g fun x => { x with barg := x.barg.filter fun a => !(y.blocks.any fun b => b.idx = a.2) }
      let s := (s.contexts.filter fun c => c.grid = g ∧ c.hood = h).foldl (fun st c => dropContext st c.id) s
      if bit x.lrec.toNat 418 ∧ x.ended = none then
        resumeWarps (modHood s g h fun y => { y with
          st := .ready, resumed := false, freeFor := none, skipSince := [], starving := [], coppice := false,
          blocks := y.blocks.map fun b => { b with st := .waiting, r := 0, iss := [] } })
      else endGrid s g 4

/-- A packet completes (R313): its signal falls by 1, and it leaves the started packets with that update (R352), which
follows the writes of its grid (R314). -/
def completePacket (s : State) (die q idx asid csig : Nat) (grid : Option Nat)
    (prov : List (Nat × Nat)) : State :=
  let u : Update :=
    { queue := q, own := true, asid := asid, va := csig, value := BitVec.ofNat 64 (2 ^ 64 - 1), add := true,
      grid := grid, pkt := some idx, seq := none, prov := prov, negative := false }
  queueUpdate s die u

/-- The dispatch completes when every block has retired (GRID_COMPLETE, R313). -/
def checkGridDone (s : State) (g : Nat) : State :=
  match gridAt s g with
  | none => s
  | some x =>
    let all := x.hoods.flatMap (·.blocks)
    if x.ended.isNone && !x.complete && all.length = x.blockCount && all.all (fun b => b.st = .retired) then
      let s := modGrid s g fun x => { x with complete := true }
      completePacket s x.die x.queue x.pkt x.asid x.csig (some g) x.work
    else s

/-- Some thread or cutting of the block is left (R37). -/
def blockAlive (s : State) (g : Nat) (b : Block) : Bool :=
  let c := coreAt s b.die b.pos
  c.warps.any (fun w => w.grid = g && w.th.any fun t => t.life = .live && t.blk = b.idx) ||
    c.beds.any (fun x => x.cuttings.any fun k => k.grid = g && k.blk = b.idx) ||
    c.restore.any (fun k => k.grid = g && k.blk = b.idx)

/-- A placed block with nothing left retires (R37, R102, R263). -/
def checkRetired (s : State) (g blk : Nat) : State :=
  match (gridAt s g).bind fun x => x.block blk with
  | none => s
  | some b =>
    if b.st = .placed && !(blockAlive s g b) then
      let s := leaveCore s g blk .retired
      let s := match (gridAt s g).bind fun x => x.hoodOf blk with
        | some h => if h.blocks.all (fun b => b.st = .retired) then
            modHood s g h.idx fun h => { h with st := .done } else s
        | none => s
      let s := match gridAt s g with
        | some x => settleHood s x blk
        | none => s
      checkGridDone ((List.range 4).foldl (fun st k => settleGrid st g k) s) g
    else s

/-- Warps with no running thread end and free their slots (R102, R211). -/
def reapWarps (s : State) (die pos : Nat) : State :=
  let dead := (coreAt s die pos).warps.filter fun w => !(w.th.any Thread.running)
  dead.foldl (fun st w =>
    let st := freeWarpSlots st die pos w.grid w.uid
    modCore st die pos fun c => { c with warps := c.warps.filter fun x => x.uid ≠ w.uid }) s

end Sys2Proof.Machine
end

