-- ==== Sys2Proof/WellFormed.lean ====
section
/-! DEFINITION. Which instructions are well formed: every field inside its kind (R63, R64) and inside
the range its entry gives (R67). Rows without a word have nothing to check. -/

namespace Sys2Proof

/-- The kinds of register-sized fields (R63 Table 2). -/
inductive Kind where
  | reg
  | pair
  | quad
  | uni
  | pred
  | lx
  | lc
  deriving DecidableEq, Repr

/-- An operand: its kind, its field value, whether the instruction reads and writes it. -/
structure Opd where
  kind : Kind
  n : Nat
  rd : Bool
  wr : Bool
  deriving DecidableEq, Repr

/-- The valid field values of a kind (R63 Table 2). -/
def Opd.ok (o : Opd) : Bool :=
  match o.kind with
  | .reg => o.n < 128
  | .pair => o.n % 2 = 0 && o.n ≤ 124
  | .quad => o.n % 4 = 0 && o.n ≤ 120
  | .uni => o.n < 64
  | .pred => o.n < 12
  | .lx => o.n < 8
  | .lc => o.n < 3

/-- The kind of d for a load size code (R138 Table 2). -/
def ldKind (s : BitVec 3) : Kind := if s = 5#3 then .pair else if s = 6#3 then .quad else .reg

/-- The kind of d for a store size code (R138 Table 2). -/
def stKind (s : BitVec 3) : Kind := if s = 3#3 then .pair else if s = 4#3 then .quad else .reg

/-- The kind of d for an `accld` size code (R233). -/
def acKind (s : BitVec 3) : Kind := if s = 1#3 then .pair else if s = 2#3 then .quad else .reg

/-- The kind of d for an atomic (R271 Table 3). -/
def atKind (o : BitVec 4) (w : BitVec 1) : Kind :=
  if o = 9#4 then (if w = 1#1 then .quad else .pair) else if w = 1#1 then .pair else .reg

/-- The register operands of an instruction, the link pair of calls and returns (R99) included; the
kinds are those of each entry (R83 to R106, R111 to R130, R138 to R145, R196 to R239, R296 to R301,
R317, R318, R364, R398, R403). -/
def operands : Instr → List Opd
  | .add d a b => [⟨.reg, d.toNat, false, true⟩, ⟨.reg, a.toNat, true, false⟩, ⟨.reg, b.toNat, true, false⟩]
  | .sub d a b => [⟨.reg, d.toNat, false, true⟩, ⟨.reg, a.toNat, true, false⟩, ⟨.reg, b.toNat, true, false⟩]
  | .and d a b => [⟨.reg, d.toNat, false, true⟩, ⟨.reg, a.toNat, true, false⟩, ⟨.reg, b.toNat, true, false⟩]
  | .or d a b => [⟨.reg, d.toNat, false, true⟩, ⟨.reg, a.toNat, true, false⟩, ⟨.reg, b.toNat, true, false⟩]
  | .xor d a b => [⟨.reg, d.toNat, false, true⟩, ⟨.reg, a.toNat, true, false⟩, ⟨.reg, b.toNat, true, false⟩]
  | .andn d a b => [⟨.reg, d.toNat, false, true⟩, ⟨.reg, a.toNat, true, false⟩, ⟨.reg, b.toNat, true, false⟩]
  | .shl d a b => [⟨.reg, d.toNat, false, true⟩, ⟨.reg, a.toNat, true, false⟩, ⟨.reg, b.toNat, true, false⟩]
  | .shr d a b => [⟨.reg, d.toNat, false, true⟩, ⟨.reg, a.toNat, true, false⟩, ⟨.reg, b.toNat, true, false⟩]
  | .sra d a b => [⟨.reg, d.toNat, false, true⟩, ⟨.reg, a.toNat, true, false⟩, ⟨.reg, b.toNat, true, false⟩]
  | .rotl d a b => [⟨.reg, d.toNat, false, true⟩, ⟨.reg, a.toNat, true, false⟩, ⟨.reg, b.toNat, true, false⟩]
  | .min d a b => [⟨.reg, d.toNat, false, true⟩, ⟨.reg, a.toNat, true, false⟩, ⟨.reg, b.toNat, true, false⟩]
  | .max d a b => [⟨.reg, d.toNat, false, true⟩, ⟨.reg, a.toNat, true, false⟩, ⟨.reg, b.toNat, true, false⟩]
  | .minu d a b => [⟨.reg, d.toNat, false, true⟩, ⟨.reg, a.toNat, true, false⟩, ⟨.reg, b.toNat, true, false⟩]
  | .maxu d a b => [⟨.reg, d.toNat, false, true⟩, ⟨.reg, a.toNat, true, false⟩, ⟨.reg, b.toNat, true, false⟩]
  | .addsat d a b => [⟨.reg, d.toNat, false, true⟩, ⟨.reg, a.toNat, true, false⟩, ⟨.reg, b.toNat, true, false⟩]
  | .subsat d a b => [⟨.reg, d.toNat, false, true⟩, ⟨.reg, a.toNat, true, false⟩, ⟨.reg, b.toNat, true, false⟩]
  | .uadd d a b => [⟨.uni, d.toNat, false, false⟩, ⟨.uni, a.toNat, false, false⟩, ⟨.uni, b.toNat, false, false⟩]
  | .usub d a b => [⟨.uni, d.toNat, false, false⟩, ⟨.uni, a.toNat, false, false⟩, ⟨.uni, b.toNat, false, false⟩]
  | .uand d a b => [⟨.uni, d.toNat, false, false⟩, ⟨.uni, a.toNat, false, false⟩, ⟨.uni, b.toNat, false, false⟩]
  | .uor d a b => [⟨.uni, d.toNat, false, false⟩, ⟨.uni, a.toNat, false, false⟩, ⟨.uni, b.toNat, false, false⟩]
  | .uxor d a b => [⟨.uni, d.toNat, false, false⟩, ⟨.uni, a.toNat, false, false⟩, ⟨.uni, b.toNat, false, false⟩]
  | .uandn d a b => [⟨.uni, d.toNat, false, false⟩, ⟨.uni, a.toNat, false, false⟩, ⟨.uni, b.toNat, false, false⟩]
  | .ushl d a b => [⟨.uni, d.toNat, false, false⟩, ⟨.uni, a.toNat, false, false⟩, ⟨.uni, b.toNat, false, false⟩]
  | .ushr d a b => [⟨.uni, d.toNat, false, false⟩, ⟨.uni, a.toNat, false, false⟩, ⟨.uni, b.toNat, false, false⟩]
  | .usra d a b => [⟨.uni, d.toNat, false, false⟩, ⟨.uni, a.toNat, false, false⟩, ⟨.uni, b.toNat, false, false⟩]
  | .urotl d a b => [⟨.uni, d.toNat, false, false⟩, ⟨.uni, a.toNat, false, false⟩, ⟨.uni, b.toNat, false, false⟩]
  | .umin d a b => [⟨.uni, d.toNat, false, false⟩, ⟨.uni, a.toNat, false, false⟩, ⟨.uni, b.toNat, false, false⟩]
  | .umax d a b => [⟨.uni, d.toNat, false, false⟩, ⟨.uni, a.toNat, false, false⟩, ⟨.uni, b.toNat, false, false⟩]
  | .uminu d a b => [⟨.uni, d.toNat, false, false⟩, ⟨.uni, a.toNat, false, false⟩, ⟨.uni, b.toNat, false, false⟩]
  | .umaxu d a b => [⟨.uni, d.toNat, false, false⟩, ⟨.uni, a.toNat, false, false⟩, ⟨.uni, b.toNat, false, false⟩]
  | .uaddsat d a b => [⟨.uni, d.toNat, false, false⟩, ⟨.uni, a.toNat, false, false⟩, ⟨.uni, b.toNat, false, false⟩]
  | .usubsat d a b => [⟨.uni, d.toNat, false, false⟩, ⟨.uni, a.toNat, false, false⟩, ⟨.uni, b.toNat, false, false⟩]
  | .mul d a b => [⟨.reg, d.toNat, false, true⟩, ⟨.reg, a.toNat, true, false⟩, ⟨.reg, b.toNat, true, false⟩]
  | .mulhi d a b => [⟨.reg, d.toNat, false, true⟩, ⟨.reg, a.toNat, true, false⟩, ⟨.reg, b.toNat, true, false⟩]
  | .mulhu d a b => [⟨.reg, d.toNat, false, true⟩, ⟨.reg, a.toNat, true, false⟩, ⟨.reg, b.toNat, true, false⟩]
  | .dot4s d a b => [⟨.reg, d.toNat, true, true⟩, ⟨.reg, a.toNat, true, false⟩, ⟨.reg, b.toNat, true, false⟩]
  | .dot4u d a b => [⟨.reg, d.toNat, true, true⟩, ⟨.reg, a.toNat, true, false⟩, ⟨.reg, b.toNat, true, false⟩]
  | .popc d a => [⟨.reg, d.toNat, false, true⟩, ⟨.reg, a.toNat, true, false⟩]
  | .clz d a => [⟨.reg, d.toNat, false, true⟩, ⟨.reg, a.toNat, true, false⟩]
  | .ctz d a => [⟨.reg, d.toNat, false, true⟩, ⟨.reg, a.toNat, true, false⟩]
  | .brev d a => [⟨.reg, d.toNat, false, true⟩, ⟨.reg, a.toNat, true, false⟩]
  | .abs d a => [⟨.reg, d.toNat, false, true⟩, ⟨.reg, a.toNat, true, false⟩]
  | .lea d a b _ => [⟨.pair, d.toNat, false, true⟩, ⟨.pair, a.toNat, true, false⟩, ⟨.reg, b.toNat, true, false⟩]
  | .leas d a b _ => [⟨.pair, d.toNat, false, true⟩, ⟨.pair, a.toNat, true, false⟩, ⟨.reg, b.toNat, true, false⟩]
  | .addc d a b _ => [⟨.reg, d.toNat, false, true⟩, ⟨.reg, a.toNat, true, false⟩, ⟨.reg, b.toNat, true, false⟩]
  | .subc d a b _ => [⟨.reg, d.toNat, false, true⟩, ⟨.reg, a.toNat, true, false⟩, ⟨.reg, b.toNat, true, false⟩]
  | .cmp p a b _ => [⟨.pred, p.toNat, false, false⟩, ⟨.reg, a.toNat, true, false⟩, ⟨.reg, b.toNat, true, false⟩]
  | .pand d a b => [⟨.pred, d.toNat, false, false⟩, ⟨.pred, a.toNat, false, false⟩, ⟨.pred, b.toNat, false, false⟩]
  | .por d a b => [⟨.pred, d.toNat, false, false⟩, ⟨.pred, a.toNat, false, false⟩, ⟨.pred, b.toNat, false, false⟩]
  | .pxor d a b => [⟨.pred, d.toNat, false, false⟩, ⟨.pred, a.toNat, false, false⟩, ⟨.pred, b.toNat, false, false⟩]
  | .pandn d a b => [⟨.pred, d.toNat, false, false⟩, ⟨.pred, a.toNat, false, false⟩, ⟨.pred, b.toNat, false, false⟩]
  | .pnot d a => [⟨.pred, d.toNat, false, false⟩, ⟨.pred, a.toNat, false, false⟩]
  | .pmov d a => [⟨.pred, d.toNat, false, false⟩, ⟨.pred, a.toNat, false, false⟩]
  | .pset d => [⟨.pred, d.toNat, false, false⟩]
  | .pclr d => [⟨.pred, d.toNat, false, false⟩]
  | .sel d a b _ => [⟨.reg, d.toNat, false, true⟩, ⟨.reg, a.toNat, true, false⟩, ⟨.reg, b.toNat, true, false⟩]
  | .seln d a b _ => [⟨.reg, d.toNat, false, true⟩, ⟨.reg, a.toNat, true, false⟩, ⟨.reg, b.toNat, true, false⟩]
  | .div _ d a b => [⟨.reg, d.toNat, false, true⟩, ⟨.reg, a.toNat, true, false⟩, ⟨.reg, b.toNat, true, false⟩]
  | .divu _ d a b => [⟨.reg, d.toNat, false, true⟩, ⟨.reg, a.toNat, true, false⟩, ⟨.reg, b.toNat, true, false⟩]
  | .rem _ d a b => [⟨.reg, d.toNat, false, true⟩, ⟨.reg, a.toNat, true, false⟩, ⟨.reg, b.toNat, true, false⟩]
  | .remu _ d a b => [⟨.reg, d.toNat, false, true⟩, ⟨.reg, a.toNat, true, false⟩, ⟨.reg, b.toNat, true, false⟩]
  | .addi d a _ => [⟨.reg, d.toNat, false, true⟩, ⟨.reg, a.toNat, true, false⟩]
  | .andi d a _ => [⟨.reg, d.toNat, false, true⟩, ⟨.reg, a.toNat, true, false⟩]
  | .ori d a _ => [⟨.reg, d.toNat, false, true⟩, ⟨.reg, a.toNat, true, false⟩]
  | .xori d a _ => [⟨.reg, d.toNat, false, true⟩, ⟨.reg, a.toNat, true, false⟩]
  | .shli d a _ => [⟨.reg, d.toNat, false, true⟩, ⟨.reg, a.toNat, true, false⟩]
  | .shri d a _ => [⟨.reg, d.toNat, false, true⟩, ⟨.reg, a.toNat, true, false⟩]
  | .srai d a _ => [⟨.reg, d.toNat, false, true⟩, ⟨.reg, a.toNat, true, false⟩]
  | .rotli d a _ => [⟨.reg, d.toNat, false, true⟩, ⟨.reg, a.toNat, true, false⟩]
  | .bfx d a _ _ => [⟨.reg, d.toNat, false, true⟩, ⟨.reg, a.toNat, true, false⟩]
  | .bfxs d a _ _ => [⟨.reg, d.toNat, false, true⟩, ⟨.reg, a.toNat, true, false⟩]
  | .bfi d a _ _ => [⟨.reg, d.toNat, true, true⟩, ⟨.reg, a.toNat, true, false⟩]
  | .movi d _ => [⟨.reg, d.toNat, false, true⟩]
  | .movhi d _ => [⟨.reg, d.toNat, true, true⟩]
  | .uaddi d a _ => [⟨.uni, d.toNat, false, false⟩, ⟨.uni, a.toNat, false, false⟩]
  | .umovi d _ => [⟨.uni, d.toNat, false, false⟩]
  | .bcast d a => [⟨.reg, d.toNat, false, true⟩, ⟨.uni, a.toNat, false, false⟩]
  | .rdfirst d a => [⟨.uni, d.toNat, false, false⟩, ⟨.reg, a.toNat, true, false⟩]
  | .fadd d a b _ => [⟨.reg, d.toNat, false, true⟩, ⟨.reg, a.toNat, true, false⟩, ⟨.reg, b.toNat, true, false⟩]
  | .fsub d a b _ => [⟨.reg, d.toNat, false, true⟩, ⟨.reg, a.toNat, true, false⟩, ⟨.reg, b.toNat, true, false⟩]
  | .fmul d a b _ => [⟨.reg, d.toNat, false, true⟩, ⟨.reg, a.toNat, true, false⟩, ⟨.reg, b.toNat, true, false⟩]
  | .fmin d a b => [⟨.reg, d.toNat, false, true⟩, ⟨.reg, a.toNat, true, false⟩, ⟨.reg, b.toNat, true, false⟩]
  | .fmax d a b => [⟨.reg, d.toNat, false, true⟩, ⟨.reg, a.toNat, true, false⟩, ⟨.reg, b.toNat, true, false⟩]
  | .ffma d a b _ => [⟨.reg, d.toNat, true, true⟩, ⟨.reg, a.toNat, true, false⟩, ⟨.reg, b.toNat, true, false⟩]
  | .ffms d a b _ => [⟨.reg, d.toNat, true, true⟩, ⟨.reg, a.toNat, true, false⟩, ⟨.reg, b.toNat, true, false⟩]
  | .ffnma d a b _ => [⟨.reg, d.toNat, true, true⟩, ⟨.reg, a.toNat, true, false⟩, ⟨.reg, b.toNat, true, false⟩]
  | .bfadd2 d a b _ => [⟨.reg, d.toNat, false, true⟩, ⟨.reg, a.toNat, true, false⟩, ⟨.reg, b.toNat, true, false⟩]
  | .bfsub2 d a b _ => [⟨.reg, d.toNat, false, true⟩, ⟨.reg, a.toNat, true, false⟩, ⟨.reg, b.toNat, true, false⟩]
  | .bfmul2 d a b _ => [⟨.reg, d.toNat, false, true⟩, ⟨.reg, a.toNat, true, false⟩, ⟨.reg, b.toNat, true, false⟩]
  | .bfmin2 d a b => [⟨.reg, d.toNat, false, true⟩, ⟨.reg, a.toNat, true, false⟩, ⟨.reg, b.toNat, true, false⟩]
  | .bfmax2 d a b => [⟨.reg, d.toNat, false, true⟩, ⟨.reg, a.toNat, true, false⟩, ⟨.reg, b.toNat, true, false⟩]
  | .bffma2 d a b _ => [⟨.reg, d.toNat, true, true⟩, ⟨.reg, a.toNat, true, false⟩, ⟨.reg, b.toNat, true, false⟩]
  | .bffms2 d a b _ => [⟨.reg, d.toNat, true, true⟩, ⟨.reg, a.toNat, true, false⟩, ⟨.reg, b.toNat, true, false⟩]
  | .bffnma2 d a b _ => [⟨.reg, d.toNat, true, true⟩, ⟨.reg, a.toNat, true, false⟩, ⟨.reg, b.toNat, true, false⟩]
  | .fcmp p a b _ => [⟨.pred, p.toNat, false, false⟩, ⟨.reg, a.toNat, true, false⟩, ⟨.reg, b.toNat, true, false⟩]
  | .fabs d a => [⟨.reg, d.toNat, false, true⟩, ⟨.reg, a.toNat, true, false⟩]
  | .fneg d a => [⟨.reg, d.toNat, false, true⟩, ⟨.reg, a.toNat, true, false⟩]
  | .fclass d a => [⟨.reg, d.toNat, false, true⟩, ⟨.reg, a.toNat, true, false⟩]
  | .bfabs2 d a => [⟨.reg, d.toNat, false, true⟩, ⟨.reg, a.toNat, true, false⟩]
  | .bfneg2 d a => [⟨.reg, d.toNat, false, true⟩, ⟨.reg, a.toNat, true, false⟩]
  | .rcp d a => [⟨.reg, d.toNat, false, true⟩, ⟨.reg, a.toNat, true, false⟩]
  | .rsqrt d a => [⟨.reg, d.toNat, false, true⟩, ⟨.reg, a.toNat, true, false⟩]
  | .sqrt d a => [⟨.reg, d.toNat, false, true⟩, ⟨.reg, a.toNat, true, false⟩]
  | .exp2 d a => [⟨.reg, d.toNat, false, true⟩, ⟨.reg, a.toNat, true, false⟩]
  | .log2 d a => [⟨.reg, d.toNat, false, true⟩, ⟨.reg, a.toNat, true, false⟩]
  | .sin d a => [⟨.reg, d.toNat, false, true⟩, ⟨.reg, a.toNat, true, false⟩]
  | .cos d a => [⟨.reg, d.toNat, false, true⟩, ⟨.reg, a.toNat, true, false⟩]
  | .sfe d a => [⟨.reg, d.toNat, false, true⟩, ⟨.reg, a.toNat, true, false⟩]
  | .sfe2 d a => [⟨.reg, d.toNat, false, true⟩, ⟨.reg, a.toNat, true, false⟩]
  | .tblld a => [⟨.reg, a.toNat, true, false⟩]
  | .cvt d a _ _ _ _ => [⟨.reg, d.toNat, false, true⟩, ⟨.reg, a.toNat, true, false⟩]
  | .cvto d a b _ _ => [⟨.pair, d.toNat, false, true⟩, ⟨.reg, a.toNat, true, false⟩, ⟨.quad, b.toNat, true, false⟩]
  | .flrd d => [⟨.reg, d.toNat, false, true⟩]
  | .ldg _ d a _ s => [⟨.pair, a.toNat, true, false⟩, ⟨ldKind s, d.toNat, false, true⟩]
  | .lds _ d a _ s => [⟨.reg, a.toNat, true, false⟩, ⟨ldKind s, d.toNat, false, true⟩]
  | .ldh _ d a _ s => [⟨.reg, a.toNat, true, false⟩, ⟨ldKind s, d.toNat, false, true⟩]
  | .stg _ d a _ _ s => [⟨.pair, a.toNat, true, false⟩, ⟨stKind s, d.toNat, true, false⟩]
  | .sts _ d a _ _ s => [⟨.reg, a.toNat, true, false⟩, ⟨stKind s, d.toNat, true, false⟩]
  | .sth _ d a _ _ s => [⟨.reg, a.toNat, true, false⟩, ⟨stKind s, d.toNat, true, false⟩]
  | .ldsys _ d a _ s => [⟨.pair, a.toNat, true, false⟩, ⟨ldKind s, d.toNat, false, true⟩]
  | .stsys _ d a _ s => [⟨.pair, a.toNat, true, false⟩, ⟨stKind s, d.toNat, true, false⟩]
  | .pfl1 _ a => [⟨.pair, a.toNat, true, false⟩]
  | .pfl2 _ a => [⟨.pair, a.toNat, true, false⟩]
  | .evl1 _ a => [⟨.pair, a.toNat, true, false⟩]
  | .atomg _ d a r _ w o => [⟨.pair, a.toNat, true, false⟩, ⟨atKind o w, d.toNat, true, false⟩, ⟨if w = 1#1 then .pair else .reg, d.toNat, false, r = 1#1⟩]
  | .atoms _ d a r w o => [⟨.reg, a.toNat, true, false⟩, ⟨atKind o w, d.toNat, true, false⟩, ⟨if w = 1#1 then .pair else .reg, d.toNat, false, r = 1#1⟩]
  | .atomh _ d a r w o => [⟨.reg, a.toNat, true, false⟩, ⟨atKind o w, d.toNat, true, false⟩, ⟨if w = 1#1 then .pair else .reg, d.toNat, false, r = 1#1⟩]
  | .tbinit _ a b => [⟨.reg, a.toNat, true, false⟩, ⟨.reg, b.toNat, true, false⟩]
  | .tbarr _ a => [⟨.reg, a.toNat, true, false⟩]
  | .tbarrOne _ a => [⟨.reg, a.toNat, true, false⟩]
  | .tbexp _ a b => [⟨.reg, a.toNat, true, false⟩, ⟨.reg, b.toNat, true, false⟩]
  | .tbwait _ a b => [⟨.reg, a.toNat, true, false⟩, ⟨.reg, b.toNat, true, false⟩]
  | .fenceEng d => [⟨.uni, d.toNat, false, false⟩]
  | .fenceSys d => [⟨.uni, d.toNat, false, false⟩]
  | .fenceMir d => [⟨.uni, d.toNat, false, false⟩]
  | .fenceAll d => [⟨.uni, d.toNat, false, false⟩]
  | .fwait a => [⟨.uni, a.toNat, false, false⟩]
  | .xlaneAt d a b => [⟨.reg, d.toNat, false, true⟩, ⟨.reg, a.toNat, true, false⟩, ⟨.reg, b.toNat, true, false⟩]
  | .xlaneBack d a b => [⟨.reg, d.toNat, false, true⟩, ⟨.reg, a.toNat, true, false⟩, ⟨.reg, b.toNat, true, false⟩]
  | .xlaneFwd d a b => [⟨.reg, d.toNat, false, true⟩, ⟨.reg, a.toNat, true, false⟩, ⟨.reg, b.toNat, true, false⟩]
  | .xlaneSwz d a b => [⟨.reg, d.toNat, false, true⟩, ⟨.reg, a.toNat, true, false⟩, ⟨.reg, b.toNat, true, false⟩]
  | .push d a b => [⟨.reg, d.toNat, false, true⟩, ⟨.reg, a.toNat, true, false⟩, ⟨.reg, b.toNat, true, false⟩]
  | .scanAdd d a => [⟨.reg, d.toNat, false, true⟩, ⟨.reg, a.toNat, true, false⟩]
  | .scanAddx d a => [⟨.reg, d.toNat, false, true⟩, ⟨.reg, a.toNat, true, false⟩]
  | .scanMin d a => [⟨.reg, d.toNat, false, true⟩, ⟨.reg, a.toNat, true, false⟩]
  | .scanMax d a => [⟨.reg, d.toNat, false, true⟩, ⟨.reg, a.toNat, true, false⟩]
  | .pgath d a => [⟨.reg, d.toNat, false, true⟩, ⟨.pred, a.toNat, false, false⟩]
  | .pall d a => [⟨.pred, d.toNat, false, false⟩, ⟨.pred, a.toNat, false, false⟩]
  | .pany d a => [⟨.pred, d.toNat, false, false⟩, ⟨.pred, a.toNat, false, false⟩]
  | .lsame d a => [⟨.reg, d.toNat, false, true⟩, ⟨.reg, a.toNat, true, false⟩]
  | .lsameAll d a => [⟨.reg, d.toNat, false, true⟩, ⟨.reg, a.toNat, true, false⟩]
  | .lfoldAdd d a => [⟨.reg, d.toNat, false, true⟩, ⟨.reg, a.toNat, true, false⟩]
  | .lfoldMin d a => [⟨.reg, d.toNat, false, true⟩, ⟨.reg, a.toNat, true, false⟩]
  | .lfoldMax d a => [⟨.reg, d.toNat, false, true⟩, ⟨.reg, a.toNat, true, false⟩]
  | .lfoldAnd d a => [⟨.reg, d.toNat, false, true⟩, ⟨.reg, a.toNat, true, false⟩]
  | .lfoldOr d a => [⟨.reg, d.toNat, false, true⟩, ⟨.reg, a.toNat, true, false⟩]
  | .lfoldXor d a => [⟨.reg, d.toNat, false, true⟩, ⟨.reg, a.toNat, true, false⟩]
  | .cpy _ a b _ _ _ => [⟨.pair, a.toNat, true, false⟩, ⟨.pair, b.toNat, true, false⟩]
  | .tld _ a b _ => [⟨.quad, a.toNat, true, false⟩, ⟨.quad, b.toNat, true, false⟩]
  | .tst _ a b _ => [⟨.quad, a.toNat, true, false⟩, ⟨.quad, b.toNat, true, false⟩]
  | .mcast _ a b => [⟨.quad, a.toNat, true, false⟩, ⟨.pair, b.toNat, true, false⟩]
  | .spawn a b => [⟨.pair, a.toNat, true, false⟩, ⟨.quad, b.toNat, true, false⟩]
  | .lxbase d a => [⟨.lx, d.toNat, false, false⟩, ⟨.pair, a.toNat, true, false⟩]
  | .lxext0 d a => [⟨.lx, d.toNat, false, false⟩, ⟨.reg, a.toNat, true, false⟩]
  | .lxext1 d a => [⟨.lx, d.toNat, false, false⟩, ⟨.reg, a.toNat, true, false⟩]
  | .lxext2 d a => [⟨.lx, d.toNat, false, false⟩, ⟨.reg, a.toNat, true, false⟩]
  | .lxext3 d a => [⟨.lx, d.toNat, false, false⟩, ⟨.reg, a.toNat, true, false⟩]
  | .gkset a => [⟨.pair, a.toNat, true, false⟩]
  | .gkrd d => [⟨.pair, d.toNat, false, true⟩]
  | .mma _ a b _ _ => [⟨.pair, a.toNat, true, false⟩, ⟨.reg, b.toNat, true, false⟩]
  | .accld _ d a s => [⟨.reg, a.toNat, true, false⟩, ⟨acKind s, d.toNat, false, true⟩]
  | .accst _ d a _ => [⟨.pair, d.toNat, true, false⟩, ⟨.pair, a.toNat, true, false⟩]
  | .mmack _ d => [⟨.reg, d.toNat, false, true⟩]
  | .mmackCut _ d => [⟨.reg, d.toNat, false, true⟩]
  | .tdec _ a b _ => [⟨.quad, a.toNat, true, false⟩, ⟨.reg, b.toNat, true, false⟩]
  | .tdecQ _ a _ => [⟨.quad, a.toNat, true, false⟩]
  | .venc _ a b _ => [⟨.quad, a.toNat, true, false⟩, ⟨.reg, b.toNat, true, false⟩]
  | .twget _ d a _ => [⟨.reg, d.toNat, false, true⟩, ⟨.pair, a.toNat, true, false⟩]
  | .call _ _ => [⟨.pair, 124, false, true⟩]
  | .jmp a => [⟨.pair, a.toNat, true, false⟩]
  | .callr a => [⟨.pair, a.toNat, true, false⟩, ⟨.pair, 124, false, true⟩]
  | .ret => [⟨.pair, 124, true, false⟩]
  | .guard p _ => [⟨.pred, p.toNat, false, false⟩]
  | .guardN p _ => [⟨.pred, p.toNat, false, false⟩]
  | .loop d a _ => [⟨.lc, d.toNat, false, false⟩, ⟨.reg, a.toNat, true, false⟩]
  | .loopLong d a _ => [⟨.lc, d.toNat, false, false⟩, ⟨.reg, a.toNat, true, false⟩]
  | .brk d => [⟨.lc, d.toNat, false, false⟩]
  | .movs d _ => [⟨.reg, d.toNat, false, true⟩]
  | .pshare a b => [⟨.pair, a.toNat, true, false⟩, ⟨.quad, b.toNat, true, false⟩]
  | .pshareRo a b => [⟨.pair, a.toNat, true, false⟩, ⟨.quad, b.toNat, true, false⟩]
  | .prel a b => [⟨.pair, a.toNat, true, false⟩, ⟨.reg, b.toNat, true, false⟩]
  | .pq a d => [⟨.pair, a.toNat, true, false⟩, ⟨.pair, d.toNat, false, true⟩]
  | .nput a b _ => [⟨.quad, a.toNat, true, false⟩, ⟨.quad, b.toNat, true, false⟩]
  | .nget a b _ => [⟨.quad, a.toNat, true, false⟩, ⟨.quad, b.toNat, true, false⟩]
  | .ncoll a b _ => [⟨.pair, a.toNat, true, false⟩, ⟨.reg, b.toNat, true, false⟩]
  | .nscmax a b _ => [⟨.pair, a.toNat, true, false⟩, ⟨.reg, b.toNat, true, false⟩]
  | .nsum a b _ => [⟨.pair, a.toNat, true, false⟩, ⟨.reg, b.toNat, true, false⟩]
  | .dxfer a => [⟨.pair, a.toNat, true, false⟩]
  | .sigst a b => [⟨.pair, a.toNat, true, false⟩, ⟨.pair, b.toNat, true, false⟩]
  | .sigadd a b => [⟨.pair, a.toNat, true, false⟩, ⟨.pair, b.toNat, true, false⟩]
  | _ => []

/-- The ranges that an entry gives fields without a kind (R67), and the codes it reserves. `addc`, `subc`, `sel` and `seln`
with fn[3:0] from 12 on name a predicate that is none, which is class 1 code 3 (R86, R96, log 20). -/
def rangesOk : Instr → Bool
  | .lea _ _ _ k => decide (k ≤ 4#3)
  | .leas _ _ _ k => decide (k ≤ 4#3)
  | .addc _ _ _ q => decide (q < 12#4)
  | .subc _ _ _ q => decide (q < 12#4)
  | .cmp _ _ _ c => decide (c < 10#5)
  | .sel _ _ _ p => decide (p < 12#4)
  | .seln _ _ _ p => decide (p < 12#4)
  | .bfx _ _ len1 pos => decide (pos.toNat + len1.toNat + 1 ≤ 32)
  | .bfxs _ _ len1 pos => decide (pos.toNat + len1.toNat + 1 ≤ 32)
  | .bfi _ _ len1 pos => decide (pos.toNat + len1.toNat + 1 ≤ 32)
  | .fcmp _ _ _ c => decide (c < 8#4)
  | .cvt _ _ _ _ s t => decide (s < 11#4 ∧ t < 11#4)
  | .cvto _ _ _ _ q => decide (q < 12#4)
  | .flclr m => decide (m < 64#7)
  | .ldg _ _ _ _ s => decide (s ≠ 7#3)
  | .lds _ _ _ _ s => decide (s ≠ 7#3)
  | .ldh _ _ _ _ s => decide (s ≠ 7#3)
  | .stg _ _ _ _ _ s => decide (s < 5#3)
  | .sts _ _ _ _ _ s => decide (s < 5#3)
  | .sth _ _ _ _ _ s => decide (s < 5#3)
  | .ldsys _ _ _ _ s => decide (s ≠ 7#3)
  | .stsys _ _ _ _ s => decide (s < 5#3)
  | .atomg _ _ _ _ s w o => decide (o < 13#4 ∧ s ≠ 3#2 ∧ (w = 1#1 → o < 11#4))
  | .atoms _ _ _ _ w o => decide (o < 13#4 ∧ (w = 1#1 → o < 11#4))
  | .atomh _ _ _ _ w o => decide (o < 13#4 ∧ (w = 1#1 → o < 11#4))
  | .cpy _ _ _ _ _ z => decide (z ≠ 3#2)
  | .mma _ _ _ _ s => decide (s < 5#3)
  | .accld _ _ _ s => decide (s < 3#3)
  | .bra c _ => decide (c < 14#4)
  | .call c _ => decide (c < 14#4)
  | .guard _ n => decide (1#7 ≤ n ∧ n ≤ 8#7)
  | .guardN _ n => decide (1#7 ≤ n ∧ n ≤ 8#7)
  | .wbase n => decide (n < 16#7)
  | .movs _ s => decide (s ≤ 26#7)
  | _ => true

/-- Every static check of R63 and R67 on the fields that the constructor keeps. -/
def wellFormed (i : Instr) : Bool := rangesOk i && (operands i).all Opd.ok

/-- The row has a thread instruction word (R61), and so can be fetched by a thread. -/
def isThread : Instr → Bool
  | .xrf .. | .xbfx .. | .xsw .. | .xdisp .. | .xjr .. | .schedulingDecision .. | .quadSplit .. | .pathForced .. | .fuseHoldExpiry .. | .bedTimerExpiry .. | .bedLaunch .. | .watchdogExpiry .. | .divideResult .. | .loadDataReturn .. | .storePerformed .. | .atomicElementApply .. | .hoodAccessArrival .. | .signalInstructionUpdate .. | .clusterStopped .. | .pathReplay .. | .faultRecordPost .. | .copyUnitPerformed .. | .tensorCopyPart .. | .mcastChunk .. | .mmaKstepComplete .. | .arrayHangReset .. | .tdecSector .. | .tdecQRow .. | .vencBlock .. | .accstSector .. | .accldRead .. | .twgetResult .. | .tblldCopy .. | .packageReset | .bootRomReady | .fwrangeWrite .. | .firmwareVerify | .feataccWrite .. | .memcfgWrite .. | .keypolWrite .. | .ctxheapWrite .. | .heapbwWrite .. | .vfsliceWrite .. | .pwrcapWrite .. | .qdescBaseWrite .. | .mircfgWrite .. | .clkindWrite .. | .clusterRebind .. | .tlbinvWrite .. | .tlbinvComplete | .pooladdWrite .. | .rcwinWrite .. | .confwatchWrite .. | .hooddropClear .. | .ringBaseWrite .. | .ringConsWrite .. | .migtailWrite .. | .registerWrite .. | .qtailWrite .. | .queueStart .. | .queueReset .. | .queueResetReport .. | .faultreplyResume .. | .faultreplyKill .. | .signotifyWrite .. | .debugGo .. | .debugStep .. | .dbgaccRead .. | .dbgaccWrite .. | .checkpointSave .. | .checkpointRestore .. | .checkpointComplete | .getVersion | .getCapabilities | .negotiateAlgorithms | .getDigests | .getCertificate | .challenge | .getMeasurements .. | .keyExchange | .finish | .keyrel .. | .unsupportedRequest .. | .worldSwitch | .functionLevelReset .. | .peerMemoryAccess .. | .packetDispatch .. | .packetBarrier .. | .barrierReevaluate .. | .barrierRereadTimeout .. | .packetSignal .. | .packetDieTransfer .. | .dieTransferPart .. | .completionSignalUpdate .. | .gridBarrierBlockArrival .. | .schedulerCoreFailed .. | .standbyTakeover .. | .placementRound .. | .restoreListEntry .. | .neighbourhoodStarving .. | .saveCapture .. | .saveToDrain .. | .blockFlush .. | .contextSaved .. | .contextDiscard .. | .partialCompletionRecord .. | .coppiceSlot .. | .coppiceScanStart .. | .coppiceScanDone .. | .suspectReport .. | .confirmedShadowCopy .. | .uncorrectableError .. | .copyOnWriteResolution .. | .tierMove .. | .migrationCommand .. | .demotionCopyDone .. | .ngurothPutFlit .. | .getRequest .. | .getData .. | .acknowledgement .. | .combine .. | .remoteSignalFlit .. | .mirrorFlit .. | .mirrorAck .. | .mirrorAckTimeout | .sectorAckTimeout .. | .portDown .. | .systemStoreAcknowledged .. | .xswWaitTimeout .. | .portUp .. => false
  | _ => true

end Sys2Proof
end

