-- ==== Sys2Proof/Machine/Path.lean ====
section
/-! DEFINITION. The issuing path: its lanes, its operands and its changes of state (R15, R17, R28, R29,
R110, R193). -/

namespace Sys2Proof.Machine

/-- The issuing path with what it reads: its lanes, the lanes its guards enable (R17), and the core,
warp and grid as they stand before the instruction. -/
structure Path where
  die : Nat
  pos : Nat
  slot : Nat
  grp : Nat
  lanes : BitVec 32
  act : BitVec 32
  pc : BitVec 52
  core : Core
  w : Warp
  grid : Grid
  deriving DecidableEq, Repr

/-- The path of `State.cur`: every lane of it belongs to the issuing group, runs, waits for nothing and has one program
counter (R17, R29); none otherwise. -/
def pathOf (s : State) : Option Path :=
  let c := coreAt s s.cur.die s.cur.pos
  match c.warpAt s.cur.slot with
  | none => none
  | some w =>
    match gridAt s w.grid with
    | none => none
    | some g =>
      let pc := (w.lane (lowLane s.cur.lanes)).pc
      if s.cur.lanes ≠ 0#32 ∧ s.cur.lanes &&& ~~~(w.groupLanes s.cur.grp) = 0#32 ∧ (laneList s.cur.lanes).all (fun k =>
          (w.lane k).running && (w.lane k).wait = .none && (w.lane k).pc = pc)
      then some { die := s.cur.die, pos := s.cur.pos, slot := s.cur.slot, grp := s.cur.grp,
                  lanes := s.cur.lanes,
                  act := maskOf ((laneList s.cur.lanes).filter fun k => (w.lane k).enabled),
                  pc := pc, core := c, w := w, grid := g }
      else none

/-- The lowest active lane (R193). -/
def Path.l0 (p : Path) : Nat := lowLane p.act

/-- The thread of a lane as the instruction reads it (R15). -/
def Path.th (p : Path) (k : Nat) : Thread := p.w.lane k

/-- A per-path operand, read from l0 (R193). -/
def Path.reg0 (p : Path) (n : Nat) : Word := (p.th p.l0).reg n

/-- A per-path pair operand, read from l0 (R193). -/
def Path.pair0 (p : Path) (n : Nat) : BitVec 64 := (p.th p.l0).pair n

/-- Some lane is active (R193). -/
def Path.any (p : Path) : Bool := p.act ≠ 0#32

/-- Change the issuing warp. -/
def Path.mod (p : Path) (s : State) (f : Warp → Warp) : State := modWarp s p.die p.pos p.slot f

/-- Change the threads of a mask of the issuing warp. -/
def Path.setThreads (p : Path) (s : State) (m : BitVec 32) (f : Nat → Thread → Thread) : State :=
  p.mod s fun w => { w with th := mapLanes m f w.th }

/-- Write a per-thread register field in every active lane, from the old state (R15, R17). -/
def Path.write (p : Path) (s : State) (n : Nat) (f : Nat → Word) : State :=
  p.setThreads s p.act fun k t => t.setReg n (f k)

/-- Change the per-warp state. -/
def Path.share (p : Path) (s : State) (f : Shared → Shared) : State :=
  p.mod s fun w => { w with sh := f w.sh }

/-- The carve-out S of the issuing block (R135, R175). -/
def Path.scratchBytes (p : Path) : Nat := p.grid.scratch p.core.halves

/-- The scratch of the issuing core. -/
def Path.scratch (p : Path) : Space := .scratch p.die p.pos

/-- The kernel's reservation on the issuing core (R173). -/
def Path.kernel (p : Path) : Kernel :=
  (p.core.kernelOf p.grid.id).getD ⟨p.grid.id, 0, 0, 0, 0, 0, 0, false, [], [], []⟩

/-! ### Flags (R18, R109, R110) -/

/-- The flag register after a cycle in which bits were set and cleared: a set bit wins (R110). -/
def flagsOf (old set clr : BitVec 6) : BitVec 6 := (old &&& ~~~clr) ||| set

/-- Add a flag contribution of the issuing path (R18, R110). -/
def Path.flags (p : Path) (s : State) (f : BitVec 6) : State :=
  p.mod s fun w =>
    let set := w.flSet ||| f
    { w with flSet := set, sh := { w.sh with fl := flagsOf w.old.fl set w.flClr } }

/-- Add an engine operation's flags to a warp (R110, R230): they are set in this cycle, so a reader of the cycle does not
see them and a clear of the cycle does not take them away. -/
def addFlags (s : State) (uid : Nat) (f : BitVec 6) : State :=
  modWarpUid s uid fun w => { w with flSet := w.flSet ||| f, sh := { w.sh with fl := w.sh.fl ||| f } }

/-! ### Debug stops (R279) -/

/-- A hit or a fatal fault while armed (R279): the first fills DBGHIT and stops the cluster; a later
one sets overrun. -/
def debugHit (s : State) (die cl pos slot lane kind wp : Nat) (pc : BitVec 52) : State :=
  let s := if bit (clusterAt s die cl).dbghit.toNat 0 then { s with justSet := .overrun die cl :: s.justSet } else s
  modCluster s die cl fun c =>
    if bit c.dbghit.toNat 0 then { c with dbgctl := c.dbgctl ||| 0x100#32 }
    else { c with
      dbghit := BitVec.ofNat 128 (1 + wp * 2 ^ 50 + localPos pos * 2 ^ 53 + slot * 2 ^ 58 +
        lane % 32 * 2 ^ 64 + kind * 2 ^ 69 + pc.toNat * 2 ^ 76),
      stopping := if bit c.dbgctl.toNat 30 then c.stopping else some (dieOf s die).cycles,
      skid := if bit c.dbgctl.toNat 30 then c.skid else [] }

/-! ### Order -/

/-- The accesses of the path's threads are performed, so an instruction that reads or writes memory as
it issues takes its place after them (R287). -/
def drained (s : State) (p : Path) : Bool :=
  !(s.ops.any fun o => o.uid = p.w.uid && o.blocks p.act) &&
    (laneList p.act).all fun k => afterDone s (p.th k).after

end Sys2Proof.Machine
end

