-- ==== Sys2Proof/Machine/Barriers.lean ====
section
/-! DEFINITION. Watched accesses (R277, R279) and transaction barriers (R183, R188 to R190). -/

namespace Sys2Proof.Machine

/-! ### Watched accesses -/

/-- Who makes an access (R279 Table 7): core, warp slot, lane, kind, and the address of its instruction. -/
structure Src where
  die : Nat
  pos : Nat
  slot : Nat
  lane : Nat
  kind : Nat
  pc : BitVec 52
  deriving DecidableEq, Repr

/-- The source of an engine operation's accesses (R279). -/
def Op.src (o : Op) (kind : Nat) : Src := ⟨o.die, o.pos, o.slot, o.l0, kind, o.pc⟩

/-- The source of an access of a path. -/
def Path.src (p : Path) (lane kind : Nat) : Src := ⟨p.die, p.pos, p.slot, lane, kind, p.pc⟩

/-- The source core's cluster is armed or the scratch's is; the first watchpoint of the cluster that
matches (R277): `pos` is the cluster-local position of a scratch word, none for a global one. -/
def watchIndex (c : Cluster) (rd wr : Bool) (pos : Option Nat) (asid a n : Nat) : Option Nat :=
  (List.range 8).find? fun i =>
    let ctl := (c.wpctl.getD i 0).toNat
    let w := bits (c.wpaddr.getD i 0).toNat 51 3 * 8
    let m := bits ctl 30 29
    bit ctl 31 && ((m % 2 = 1 && wr) || (2 ≤ m && rd)) && decide (w < a + n) && decide (a < w + 8) &&
      (match pos with
       | some k => bit ctl 28 && bits ctl 27 23 = k
       | none => !(bit ctl 28) && bits ctl 11 0 = asid)

/-- A performed access may hit a watchpoint of an armed cluster (R277 to R279). -/
def watchIn (s : State) (x : Src) (die cl : Nat) (rd wr : Bool) (pos : Option Nat) (asid a n : Nat) : State :=
  if n ≠ 0 && clusterArmed s die cl then
    match watchIndex (clusterAt s die cl) rd wr pos asid a n with
    | some i => debugHit s die cl x.pos x.slot x.lane x.kind i x.pc
    | none => s
  else s

/-- A global access by a thread or engine of a core (R277). -/
def watchGlobal (s : State) (x : Src) (rd wr : Bool) (asid va n : Nat) : State :=
  watchIn s x x.die (clusterOf x.pos) rd wr none asid va n

/-- An access to a word of a core's scratch, whatever its source (R277). -/
def watchScratch (s : State) (x : Src) (rd wr : Bool) (die pos a n : Nat) : State :=
  watchIn s x die (clusterOf pos) rd wr (some (localPos pos)) 0 a n

/-- An access to the bytes of a space. -/
def watchSpace (s : State) (x : Src) (rd wr : Bool) (sp : Space) (asid va a n : Nat) : State :=
  match sp with
  | .scratch d p => watchScratch s x rd wr d p a n
  | .phys => watchGlobal s x rd wr asid va n
  | _ => s

/-! ### Transaction barriers -/

/-- The barrier at an address of a core's scratch, as a number (R188). -/
def tbRead (s : State) (die pos a : Nat) : Nat := readN s (.scratch die pos) a 16

/-- A reserved bit is set (R188). -/
def tbReserved (b : Nat) : Bool := bits b 127 92 ≠ 0 || bits b 90 88 ≠ 0

def tbPhase (b : Nat) : Nat := bits b 3 0
def tbArrivals (b : Nat) : Nat := bits b 23 4
def tbExpected (b : Nat) : Nat := bits b 43 24
def tbSectors (b : Nat) : Int := sintN 32 (bits b 75 44)

/-- The advance of a barrier (R189). -/
def tbAdvance (b : Nat) : Nat :=
  if tbArrivals b = 0 ∧ tbSectors b = 0 then
    putBits (putBits b 3 0 ((tbPhase b + 1) % 16)) 23 4 (tbExpected b)
  else b

/-- An arrival or sector change with the advance that follows it (R189). -/
def tbUpdate (b arrivals : Nat) (sectors : Int) : Nat :=
  tbAdvance (putBits (putBits b 23 4 arrivals) 75 44 (wrapN 32 sectors))

/-- A barrier after `tbinit` n (R189). -/
def tbInit (n : Nat) : Nat := n * 2 ^ 24 + n * 2 ^ 4

/-- Write a barrier, an access of its source that a watchpoint sees (R188, R277). -/
def tbWrite (s : State) (x : Src) (die pos a b : Nat) : State :=
  watchScratch (writeN s (.scratch die pos) a 16 b) { x with kind := 5 } true true die pos a 16

/-- A sector lands at a barrier (R189). -/
def tbLand (s : State) (x : Src) (die pos a : Nat) : State :=
  let b := tbRead s die pos a
  tbWrite s x die pos a (tbUpdate b (tbArrivals b) (tbSectors b - 1))

/-- Set the fault fields of a barrier whose fault is 0 (R189). -/
def tbFault (s : State) (x : Src) (die pos a cls code : Nat) : State :=
  let b := tbRead s die pos a
  if bit b 91 then s
  else tbWrite s x die pos a (putBits (putBits (putBits b 91 91 1) 87 84 cls) 83 76 code)

/-- A number of sectors land (R189). -/
def tbLandN (s : State) (x : Src) (die pos a : Nat) : Nat → State
  | 0 => s
  | n + 1 => tbLandN (tbLand s x die pos a) x die pos a n

end Sys2Proof.Machine
end

