-- ==== Sys2Proof/Machine/Waits.lean ====
section
/-! DEFINITION. The waits that an instruction makes before it issues (R28): the scheduler decides them
before it forms paths, and the issue of the instruction decides them again. -/

namespace Sys2Proof.Machine

/-! ### Fence frontiers (R297, R298) -/

/-- The fence that first covers an operation for a warp; a producer is covered until it ends (R299). -/
def Op.covFor (o : Op) (uid : Nat) : Option (BitVec 24) :=
  match o.kind with
  | .mma m => m.members.lookup uid
  | _ => if o.uid = uid then some o.cov else none

/-- How many fences of a warp cover an operation, with counter c: 0 when none does yet. -/
def coveredBy (c cov : BitVec 24) : Nat := (c + 1 - cov).toNat

/-- The page of a virtual address is mirrored (R295). -/
def mirroredPage (s : State) (asid va : Nat) : Bool :=
  bit s.mircfg.toNat 63 && match walk s asid va with
    | .leaf _ e _ => bit e 6
    | .unmapped .. => false

/-- The operation writes a mirrored page: it has done so, or what is left of it does (R297). -/
def Op.writesMirrored (s : State) (o : Op) : Bool :=
  o.mir || (match o.kind with
    | .access false l => l.any fun a => a.mir
    | .access true l => l.any fun a => a.mir && match a.kind with
      | .atomic .. => true
      | _ => false
    | .signal a _ => a.mir
    | _ => false) ||
    o.unitsLeft.any fun u => match u.out with
      | some l => l.any fun ps => ps.any fun x => x.mir
      | none => u.segs.any fun g => match g.dst with
        | some (.virt asid va) => mirroredPage s asid va
        | _ => false

/-- Coverage of the unfinished operations of kind eng, sys or mir of a warp (R297 Table 3). -/
def pendingCov (s : State) (uid : Nat) (c : BitVec 24) (kind : Nat) : List Nat :=
  let eng := (s.ops.filter Op.isEngine).filterMap fun o => (o.covFor uid).map (coveredBy c)
  match kind with
  | 0 => eng
  | 1 => (s.ops.filter fun o => o.uid = uid && !o.isEngine &&
      ((match o.kind with | .signal .. => true | _ => false) || o.pending ≠ [])).map fun o => coveredBy c o.cov
  | _ => ((s.mirrors.filter fun m => m.uid = uid).map fun m => coveredBy c m.cov) ++
      ((s.ops.filter (Op.writesMirrored s)).filterMap fun o => (o.covFor uid).map (coveredBy c))

/-- The frontier f of a kind (R297). -/
def frontier (s : State) (uid : Nat) (c : BitVec 24) (kind : Nat) : BitVec 24 :=
  c - BitVec.ofNat 24 (maxNat (pendingCov s uid c kind))

/-- A token is malformed (R298, R303). -/
def tokenBad (tok : Word) : Bool := bits tok.toNat 7 3 ≠ 0 || bits tok.toNat 2 0 = 0

/-- The condition of `fwait` (R298). -/
def fenceMet (s : State) (w : Warp) (tok : Word) : Bool :=
  let c := w.sh.fence
  let q : BitVec 24 := tok.extractLsb' 8 24
  (List.range 3).all fun k => !(bit tok.toNat k) ||
    decide (2 ^ 23 ≤ (c - q).toNat) || decide ((frontier s w.uid c k - q).toNat < 2 ^ 23)

/-- The mir frontier of a token is held back by a write that can no longer become mirror-durable (R409). -/
def mirLost (s : State) (w : Warp) (tok : Word) : Bool :=
  let c := w.sh.fence
  let q : BitVec 24 := tok.extractLsb' 8 24
  let held := maxNat ((s.mirrors.filter fun m => m.uid = w.uid).map fun m => coveredBy c m.cov)
  bit tok.toNat 2 && s.mirBroken && decide ((c - q).toNat < 2 ^ 23) &&
    !(decide ((c - BitVec.ofNat 24 held - q).toNat < 2 ^ 23))

/-! ### Other objects waited for -/

/-- A `tbwait` finds the phase it names (R210); a wait that would fault does not wait. -/
def tbHolds (s : State) (p : Path) (a b : BitVec 7) : Bool :=
  let ad := (p.reg0 a.toNat).toNat
  let v := tbRead s p.die p.pos ad
  ad % 16 = 0 && decide (ad + 16 ≤ p.scratchBytes) && !(tbReserved v) &&
    tbPhase v = bits (p.reg0 b.toNat).toNat 3 0

/-- A slot claim that is registered and not granted (R211, R212). -/
def claimPending (p : Path) (k : Nat) : Bool :=
  p.kernel.claims.any fun c => c.slot = k && c.warp = p.w.uid

/-- The matrix operations of a warp that have not ended (R222, R227). -/
def mmasOf (s : State) (uid : Nat) : List Op :=
  s.ops.filter fun o => match o.kind with
    | .mma m => (m.members.lookup uid).isSome
    | _ => false

/-- A `tblld` of the core is still copying (R124 to R126). -/
def tableBusy (s : State) (die pos : Nat) : Bool :=
  s.ops.any fun o => o.die = die && o.pos = pos && match o.kind with
    | .table .. => true
    | _ => false

/-- A `tblsw` has switched the banks in this cycle, in which an `sfe` still reads the old one (R125, R126). -/
def Core.switched (c : Core) (now : Nat) : Bool := c.bankWas.any fun x => x.1 = now

/-- The bed that a cutting of an entry can enter, by key (R35, R36, R170, R174): one of its key with
room, else a free bed within the quota. -/
def bedRoom (c : Core) (quota grid : Nat) (entry : BitVec 52) : Bool :=
  match c.beds.find? fun b => b.grid = grid && b.entry = entry with
  | some b => decide (b.cuttings.length < 32)
  | none => decide (c.beds.length < 16) &&
      decide ((c.beds.filter fun b => b.grid = grid).length < quota)

/-- A `spawn` that faults does not wait (R197). -/
def spawnHolds (p : Path) (a : BitVec 7) : Bool :=
  let ent := fun k => (p.th k).pair a.toNat
  !((laneList p.act).any fun k => (ent k).toNat % 4 ≠ 0 || 2 ^ 52 ≤ (ent k).toNat) &&
    p.kernel.beds ≠ 0 &&
    !((laneList p.act).any fun k => bedRoom p.core p.kernel.beds p.grid.id ((ent k).extractLsb' 0 52))

/-- Instructions that read or write memory as they issue take their place after the accesses of their
path (R287). -/
def actsAtIssue (i : Instr) : Bool :=
  match i with
  | .tbinit .. | .tbarr .. | .tbarrOne .. | .tbexp .. | .tbwait .. | .cvto .. | .tblld .. | .tld .. | .tst ..
  | .tdec .. | .tdecQ .. | .venc .. | .pshare .. | .pshareRo .. | .prel .. | .pq .. | .nput .. | .nget ..
  | .ncoll .. | .nscmax .. | .nsum .. | .dxfer .. => true
  | _ => false

/-- Instructions that count in ldcnt (R300). -/
def countsLoad (i : Instr) : Bool :=
  match i with
  | .ldg .. | .lds .. | .ldh .. | .ldsys .. | .accld .. | .twget .. => true
  | .atomg _ _ _ r _ _ _ => r = 1#1
  | .atoms _ _ _ r _ _ => r = 1#1
  | .atomh _ _ _ r _ _ => r = 1#1
  | _ => false

/-- Instructions that count in stcnt (R300). -/
def countsStore (i : Instr) : Bool :=
  match i with
  | .stg .. | .sts .. | .sth .. | .stsys .. => true
  | .atomg _ _ _ r _ _ _ => r = 0#1
  | .atoms _ _ _ r _ _ => r = 0#1
  | .atomh _ _ _ r _ _ => r = 0#1
  | _ => false

/-- The instruction must wait before it issues (R28). A path with no active lane waits for nothing. -/
def waits (i : Instr) (s : State) (p : Path) : Bool :=
  p.any &&
    ((actsAtIssue i && !(drained s p)) || (countsLoad i && p.w.ldcnt = 255#8) ||
     (countsStore i && p.w.stcnt = 255#8) ||
     match i with
     | .waitcLd n => decide (n.toNat < p.w.ldcnt.toNat)
     | .waitcSt n => decide (n.toNat < p.w.stcnt.toNat)
     | .fwait a => !(tokenBad (p.w.old.u a.toNat)) && !(mirLost s p.w (p.w.old.u a.toNat)) &&
         !(fenceMet s p.w (p.w.old.u a.toNat))
     | .tbwait _ a b => tbHolds s p a b
     | .slotClaim _ k => claimPending p k.toNat
     | .gkset _ => mmasOf s p.w.uid ≠ []
     | .wbase _ => (laneList p.act).any fun k => (p.th k).owed.any fun o => !o.done
     | .mma .. => decide (4 ≤ (mmasOf s p.w.uid).length)
     | .tblld _ => tableBusy s p.die p.pos || p.core.switched (dieOf s p.die).cycles
     | .tblsw => tableBusy s p.die p.pos
     | .spawn a _ => spawnHolds p a
     | _ => false)

end Sys2Proof.Machine
end

