-- ==== Sys2Proof/Machine/Ops.lean ====
section
/-! DEFINITION. Taking an exception (R147 to R154) and returning from it; the
issue of one instruction by one path (R17, R28, R68 to R73). -/

namespace Sys2Proof.Machine

/-! ### Exceptions (R147 to R154) -/

/-- A precise fault of an instruction (R148, R149): class, code, space, write, the lanes of the
reported class, the address of the first, the pages a class 7 fault needs, how many malformed
entries the walkers met (R358) and how many in the firmware range (R377), and the address and length of a read whose tag
failed with the key of its page (R373). -/
structure Flt where
  cls : Nat
  code : Nat
  space : Nat
  write : Bool
  lanes : BitVec 32
  addr : Nat
  pages : List (Nat × Nat)
  bad : Nat
  locked : Nat
  unit : Option (Nat × Nat × Nat)
  deriving DecidableEq, Repr

/-- A fault of a check on the lanes of a mask that concerns no address (R149). -/
def Flt.plain (cls code : Nat) (lanes : BitVec 32) : Flt := ⟨cls, code, 5, false, lanes, 0, [], 0, 0, none⟩

/-- A class 4 fault: the address that the check concerns is the branch target (R149; its space by log 18). -/
def Flt.target (code : Nat) (lanes : BitVec 32) (addr : Nat) : Flt := ⟨4, code, 4, false, lanes, addr, [], 0, 0, none⟩

/-- A fault whose check made walks that met malformed and locked entries (R358, R377). -/
def Flt.met (f : Flt) (x : Nat × Nat) : Flt := { f with bad := f.bad + x.1, locked := f.locked + x.2 }

/-- The malformed and the locked entry that a refused access met. -/
def Denial.met (d : Denial) : Nat × Nat := (if d.malformed then 1 else 0, if d.locked then 1 else 0)

/-- Count n accesses that the firmware lock refused. -/
def countLocked (s : State) (n : Nat) : State := n.repeat countDenied s

/-- What follows a posted record (R148, R152): wait for hardware, wait for the host, kill the block and
end the grid, or kill the neighbourhood. -/
inductive Disposition where
  | hardware
  | host
  | fatal
  | killPath
  deriving DecidableEq, Repr

/-- The disposition of a class and code (R148 Table 5, R154, R252, R383). -/
def disposition (s : State) (g : Grid) (cls code : Nat) : Disposition :=
  if cls = 6 then .host
  else if cls = 7 then .hardware
  else if cls = 8 then .killPath
  else if cls = 10 then (if bit g.lrec.toNat 420 && accepted s 10 then .host else .fatal)
  else if cls = 11 && code = 2 then .killPath
  else .fatal

/-- A move of the page is in progress (R368, R370, R371). -/
def moveOn (s : State) (asid vpage : Nat) : Bool :=
  s.moves.any fun m => match m with
    | .cow _ a v => a = asid && v = vpage
    | .promote _ a v .. => a = asid && v = vpage
    | .demote _ a v .. => a = asid && v = vpage

/-- The page's entry has mv set. -/
def mvSet (s : State) (asid vpage : Nat) : Bool :=
  match walk s asid (vpage * 65536) with
  | .leaf _ e _ => bit e 7
  | .unmapped .. => false

/-- Paths that are parked on a page may not replay yet (R151, R371): a move of it is in progress, and where that is a
demotion an attempt of it has set mv. -/
def replayWaits (s : State) (asid vpage : Nat) : Bool :=
  s.moves.any fun m => match m with
    | .cow _ a v => a = asid && v = vpage
    | .promote _ a v .. => a = asid && v = vpage
    | .demote _ a v .. => a = asid && v = vpage && mvSet s asid vpage

/-- Set or clear the mv bit of a page's leaf; a larger page cannot carry it (R358). -/
def setMv (s : State) (asid vpage : Nat) (v : Nat) : State :=
  match walk s asid (vpage * 65536) with
  | .leaf 0 e at_ => writePte s at_ (putBits e 7 7 v)
  | _ => s

/-- Start the resolution of a page (R151, R368, R370), once for all that need it. -/
def startMove (s : State) (die asid vpage code : Nat) : State :=
  if moveOn s asid vpage then s
  else
    let tier := match walk s asid (vpage * 65536) with | .leaf _ e _ => bits e 61 60 | _ => 0
    let s := setMv s asid vpage 1
    { s with moves := s.moves ++ [if code = 1 then .cow die asid vpage else .promote die asid vpage tier false] }

/-- Carry out a disposition for the record of a path (R151, R152): class 7 starts its resolutions;
the others post the record, and a fatal fault or a kill path ends the block or the neighbourhood. -/
def dispose (s : State) (die pos : Nat) (uid g blk : Nat) (f : Fault256) : State :=
  match gridAt s g with
  | none => s
  | some x =>
    let cls := bits f.bits.toNat 195 192
    let code := bits f.bits.toNat 203 196
    match disposition s x cls code with
    | .hardware => f.pages.foldl (fun st q => startMove st die x.asid q.1 q.2) s
    | .host =>
      let (seq, s) := postFault s f.bits die pos blk false false
      modWarpUid s uid fun w =>
        { w with
          faults := updWhere (fun y => y.bits = f.bits ∧ y.lanes = f.lanes)
            (fun y => { y with seq := some (die, seq) }) w.faults }
    | .fatal =>
      let (_, s) := postFault s f.bits die pos blk false false
      endGrid (killBlock s g blk .killed) g 2
    | .killPath =>
      let (_, s) := postFault s f.bits die pos blk false false
      match x.hoodOf blk with
      | some h => killHood s g h.idx
      | none => s

/-- TAKING AN EXCEPTION (R150): the path parks at the faulting instruction with its registers as they
were, its lookahead counts end (R71), the record is kept in the warp's fault register file and the
disposition follows. While the cluster is armed, a fatal fault stops it instead and is disposed of at
the release (R152, R279). -/
def raiseNow (s : State) (p : Path) (f : Flt) : State :=
  let rec_ := faultRecord f.cls f.code f.space f.write p.grid.asid p.slot f.lanes p.lanes p.pc f.addr
  let cl := clusterOf p.pos
  let stop := clusterArmed s p.die cl && disposition s p.grid f.cls f.code = .fatal
  let r : Fault256 := ⟨rec_, p.lanes, f.pages, false, none, stop, false⟩
  let s := p.mod s fun w =>
    { w with
      faults := w.faults ++ [r],
      th := mapLanes p.lanes (fun _ t => { t.endCounts with wait := .parked }) w.th }
  let s := countLocked (addBadpte s p.die f.bad) f.locked
  let s := match f.unit with
    | some (pa, n, kd) => tagsFail s .phys pa n kd p.grid.asid 0
    | none => s
  let blk := (p.th (lowLane f.lanes)).blk
  if stop then debugHit s p.die cl p.pos p.slot (lowLane f.lanes) 6 0 p.pc
  else dispose s p.die p.pos p.w.uid p.grid.id blk r


/-- RETURN FROM AN EXCEPTION (R104, R150, R151, R324): the parked lanes of a record run again, from the
faulting instruction, or from the next one for a user trap, once every owed result is written (R71).
Nothing happens while a result is owed or the record may not yet replay. -/
def replay (s : State) (die pos slot i : Nat) : State :=
  match (coreAt s die pos).warpAt slot with
  | none => s
  | some w =>
    match w.faults[i]?, gridAt s w.grid with
    | some f, some g =>
      let cls := bits f.bits.toNat 195 192
      let resolved := cls = 7 && !f.escalated && f.pages.all fun q => !(replayWaits s g.asid q.1)
      let owed := (laneList f.lanes).any fun k => (w.lane k).owed.any fun o => !o.done
      if (resolved || f.ready) && !f.held && !owed then
        modWarp s die pos slot fun w =>
          { w with
            faults := w.faults.eraseIdx i,
            th := mapLanes f.lanes (fun _ t =>
              { (if cls = 10 then t.advance false else t) with wait := .none }) w.th }.loopSettle
            (if cls = 10 then f.lanes else 0)
      else s
    | _, _ => s

/-! ### What an issue counts for -/

/-- A path issue counts for the progress and the recent issues of a block (R330). -/
def Block.counted (now : Nat) (x : Block) : Block :=
  { x with r := min (2 ^ 64 - 1) (x.r + 1), iss := (now, 1) :: x.iss.filter fun y => now < y.1 + 4096 }

/-- A path issue after the stop of its cluster counts as skid of its slot (R280). -/
def Cluster.skidded (k : Nat) (c : Cluster) : Cluster :=
  let v := (lookupD c.skid k 0).toNat % 256
  { c with skid := assign c.skid k (BitVec.ofNat 32 (0x8000 + min 255 (v + 1))) }

/-- The cluster of a path is stopping and has not stopped (R279, R280). -/
def skidding (s : State) (p : Path) : Bool :=
  let cl := clusterOf p.pos
  (match (clusterAt s p.die cl).stopping with
    | some h => decide (h < (dieOf s p.die).cycles)
    | none => false) && !(clusterStopped s p.die cl)

/-- A path issue counts for progress (R330), skid (R280) and event 1 of the counters (R385). -/
def account (s : State) (p : Path) : State :=
  let blks := distinct ((laneList p.lanes).map fun k => (p.th k).blk)
  let t := blks.foldl (fun st b => modBlock st p.grid.id b (Block.counted (dieOf s p.die).cycles)) s
  let t := if skidding s p then
      modCluster t p.die (clusterOf p.pos) (Cluster.skidded (64 * localPos p.pos + p.slot))
    else t
  countEvent t p.grid.vf 1 1

/-! ### The rendezvous latch (R226) -/

/-- The path of an `mma` that waits at the rendezvous latch (R226). -/
def latchPath (s : State) (die pos : Nat) (w : Warp) (l : Latch) : Option Path :=
  (gridAt s w.grid).map fun g =>
    { die := die, pos := pos, slot := w.slot, grp := 8, lanes := w.lanesWhere fun t => t.wait = .latch,
      act := l.lanes, pc := l.pc, core := coreAt s die pos, w := w, grid := g }

/-- The waiting `mma` of a warp faults (R226). -/
def latchFault (s : State) (die pos : Nat) (w : Warp) (code : Nat) : State :=
  match w.latch.bind fun l => latchPath s die pos w l with
  | some p => raiseNow (account (modWarp s die pos w.slot fun w => { w with latch := none }) p) p (Flt.plain 9 code p.act)
  | none => s

/-- The warps of a block on a core that wait at the latch in the gang that a bit of `gk` names. -/
def gangWaiting (s : State) (die pos g blk widx : Nat) : List Warp :=
  (coreAt s die pos).warps.filter fun w =>
    w.grid = g && w.latch.isSome && bit w.sh.gk.toNat widx && (w.widx ≠ some widx) &&
      (w.lane 0).blk = blk && w.widx.isSome

/-- A member is gone from its gang while others wait at the latch (R226). -/
def gangBroken (s : State) (die pos : Nat) (w : Warp) : State :=
  match w.widx with
  | none => s
  | some i => (gangWaiting s die pos w.grid (w.lane 0).blk i).foldl (fun st x => latchFault st die pos x 33) s

/-! ### The issue of one instruction -/

/-- How the meaning of an instruction ends: with a state, with a precise fault and no effect (R16), or
with a state in which the path has not yet passed the instruction (a wait that registers itself). -/
inductive Step1 where
  | done (s : State)
  | fault (f : Flt)
  | again (s : State)

/-- Registers of the allocation that an operand names in a thread, none for `z` (R20, R39). -/
def opdLocs (t : Thread) (o : Opd) : List Loc :=
  match o.kind with
  | .reg => [fieldLoc t.wb.toNat o.n].filterMap id
  | .pair => [fieldLoc t.wb.toNat o.n, fieldLoc t.wb.toNat (o.n + 1)].filterMap id
  | .quad => ((List.range 4).map fun i => fieldLoc t.wb.toNat (o.n + i)).filterMap id
  | _ => []

/-- Every register field of the instruction lies inside the allocation of the thread (R20). -/
def inRange (i : Instr) (t : Thread) : Bool :=
  (operands i).all fun o => (opdLocs t o).all fun l => match l with
    | .v n => decide (n < t.v.length)
    | .g _ => true

/-- Locations an instruction reads, or writes, in a thread. -/
def locsOf (i : Instr) (t : Thread) (write : Bool) : List Loc :=
  ((operands i).filter fun o => if write then o.wr else o.rd).flatMap (opdLocs t)

/-- The instruction touches registers whose late result or capture is still outstanding and no longer
inside its window, so it waits (R70). -/
def interlocked (i : Instr) (t : Thread) : Bool :=
  t.owed.any fun o => o.rem = 0 && !o.done &&
    ((locsOf i t false ++ locsOf i t true).any (fun l => o.wr.contains l) ||
     (locsOf i t true).any fun l => o.rd.contains l)

/-- The class 3 code of the instruction in a thread, 0 for none (R70, R148): 1 a read of a late-written
register, 2 a write of one, 3 a write of a late-read one; the lowest code that applies (R149). DEDUCED (log 92): the
registers are those that the word names, so a `call` counts as a write of g12:g13 in a lane that does not take it. -/
def violation (i : Instr) (t : Thread) : Nat :=
  let win := t.owed.filter fun o => 0 < o.rem
  if win.any fun o => (locsOf i t false).any fun l => o.wr.contains l then 1
  else if win.any fun o => (locsOf i t true).any fun l => o.wr.contains l then 2
  else if win.any fun o => (locsOf i t true).any fun l => o.rd.contains l then 3
  else 0

/-- Instructions refused by a feature that the driver did not accept (R383). -/
def featureIllegal (s : State) (i : Instr) : Bool :=
  match i with
  | .tdec .. | .tdecQ .. | .venc .. | .twget .. => !(accepted s 0)
  | .cvto .. => !(accepted s 1)
  | .mma _ _ _ _ f => !(accepted s 2) && f ≠ 0#3
  | .pshare .. | .pshareRo .. | .prel .. | .pq .. => !(accepted s 4)
  | _ => false

/-- A `guard` is never disabled by the window it lies in (R417). -/
def activeLanes (i : Instr) (p : Path) : BitVec 32 :=
  match i with
  | .guard .. | .guardN .. => p.lanes
  | _ => p.act

/-- The exception of an instruction that is issuing (R150): the issue counts; a path that would need a ninth record does
not issue. -/
def raise (s : State) (p : Path) (f : Flt) : State :=
  if 8 ≤ p.w.faults.length then s else raiseNow (account s p) p f

/-- The state in which the body of an instruction acts: counted, every lane moved on. -/
def advanced (s : State) (p : Path) : State :=
  let s := { (account s p) with cur := { s.cur with jumped := 0 } }
  p.setThreads s p.lanes fun _ t => t.advance p.w.stopReq

/-- After the body: loop holds (R195). -/
def finish (s : State) (p : Path) : State :=
  p.mod s fun w => w.loopSettle (p.lanes &&& ~~~s.cur.jumped)

/-- Why the path does not run the body now. -/
inductive Gate where
  | go
  | hold
  | trap (f : Flt)
  deriving DecidableEq, Repr

/-- The checks that every instruction passes before its own (R20, R67, R68, R70, R150, R383), and its
readiness (R28). DEDUCED (log 92): the lookahead check goes lane by lane over every active lane, also for an operand that
the instruction reads from lane l0 alone (R193), and names the lanes that fail it. -/
def gate (s : State) (p : Path) (i : Instr) : Gate :=
  let act := activeLanes i p
  let out := maskOf ((laneList act).filter fun k => !(inRange i (p.th k)))
  let bad := maskOf ((laneList act).filter fun k => violation i (p.th k) ≠ 0)
  if featureIllegal s i then .trap (Flt.plain 1 1 p.lanes)
  else if !(wellFormed i) then .trap (Flt.plain 1 3 p.lanes)
  else if out ≠ 0#32 then .trap (Flt.plain 2 1 out)
  else if p.w.restoring ≠ [] || (laneList act).any fun k => interlocked i (p.th k) then .hold
  else if bad ≠ 0#32 then
    .trap (Flt.plain 3 ((laneList bad).foldl (fun c k => min c (violation i (p.th k))) 3) bad)
  else if waits i s p then .hold
  else .go

/-- A store with `.inplace` clears the idempotent bit as it issues, even when it faults (R142). -/
def clearsIdem (i : Instr) : Bool :=
  match i with
  | .stg _ _ _ j _ _ => j = 1#1
  | .sts _ _ _ j _ _ => j = 1#1
  | .sth _ _ _ j _ _ => j = 1#1
  | _ => false

/-- The exception of an instruction: no effect (R16) but the one that its entry names as made before the fault
(R142). -/
def faulted (s : State) (p : Path) (i : Instr) (f : Flt) : State :=
  if clearsIdem i && p.any && f.cls ≠ 1 && decide (p.w.faults.length < 8) then
    raise (p.share s fun h => { h with idem := false }) p f
  else raise s p f

/-- THE ISSUE OF AN INSTRUCTION by the path of `State.cur`: nothing while it must wait (R28), the
exception of the first check that fails (R68), or its own effect `body` on the counted state. -/
def issue (i : Instr) (s : State) (body : Path → State → Step1) :
    Host.Outcome State Fault Refusal :=
  match pathOf s with
  | none => .next s
  | some p =>
    match gate s p i with
    | .hold => .next s
    | .trap f => .next (faulted s p i f)
    | .go =>
      match body p (advanced s p) with
      | .done t => .next (finish t p)
      | .fault f => .next (faulted s p i f)
      | .again t => .next t

/-- A new operation of the path. -/
def Path.newOp (p : Path) (s : State) (kind : OpKind) (lanes : BitVec 32) (l0 : Nat) : Op :=
  { id := s.nextId, uid := p.w.uid, die := p.die, pos := p.pos, slot := p.slot, grid := p.grid.id,
    blk := (p.th l0).blk, lanes := lanes, l0 := l0, pc := p.pc, asid := p.grid.asid, kind := kind,
    after := [], bar := none, secs := [], path := p.lanes, laneBlk := p.w.th.map (·.blk), gone := 0, kern := p.grid.id,
    fl := 0,
    cov := (match (coreAt s p.die p.pos).warpAt p.slot with | some w => w.sh.fence | none => 0) + 1,
    stamp := p.w.lastSel, cyc := (dieOf s p.die).cycles, dropped := false, mir := false }

/-- Start an operation. -/
def addOp (s : State) (o : Op) : State := { s with ops := s.ops ++ [o], nextId := s.nextId + 1 }

/-- The accesses that an engine operation of some lanes of a warp follows (R291, R213, R198). -/
def Warp.forkAfter (w : Warp) (s : State) (lanes : BitVec 32) : List After :=
  pendingOf s w.uid lanes ++ liveAfter s ((laneList lanes).flatMap fun k => (w.lane k).after)

/-- The accesses that an engine operation of some lanes of the path follows. -/
def Path.forkAfter (p : Path) (s : State) (lanes : BitVec 32) : List After := p.w.forkAfter s lanes

/-- What the active lanes' accesses follow besides the lanes' own earlier ones (R198, R213, R292). -/
def Path.threadAfter (p : Path) (s : State) : List After :=
  liveAfter s ((laneList p.act).flatMap fun k => (p.th k).after)

/-- The active lanes join the matrix operations that their warp has outstanding: what they access from here on follows
them (R292). -/
def Path.joinMma (p : Path) (s : State) : State :=
  let l := (mmasOf s p.w.uid).map fun o => (⟨o.id, p.act⟩ : After)
  if l = [] then s else p.setThreads s p.act fun _ t => { t with after := t.after ++ l }

end Sys2Proof.Machine
end

