-- ==== Sys2Proof/Machine/Operands.lean ====
section
/-! DEFINITION. Operand forms and the shapes of instruction effects (R15, R17, R39, R62, R82, R193): each
meaning is one of these shapes with its own function of the operands. -/

namespace Sys2Proof.Machine

/-- imm12 sign-extended (R62). -/
def imm12 (i : BitVec 12) : Word := i.signExtend 32

/-- imm19 sign-extended (R62). -/
def imm19 (i : BitVec 19) : Word := i.signExtend 32

/-- Register d of every active lane receives a function of a and b (R15, R17). -/
def perLane2 (i : Instr) (d a b : BitVec 7) (f : Word → Word → Word) (s : State) :
    Host.Outcome State Fault Refusal :=
  issue i s fun p t =>
    .done (p.write t d.toNat fun k => f ((p.th k).reg a.toNat) ((p.th k).reg b.toNat))

/-- Register d of every active lane receives a function of a. -/
def perLane1 (i : Instr) (d a : BitVec 7) (f : Word → Word) (s : State) :
    Host.Outcome State Fault Refusal :=
  issue i s fun p t => .done (p.write t d.toNat fun k => f ((p.th k).reg a.toNat))

/-- Register d of every active lane receives a function of d, a and b. -/
def perLane3 (i : Instr) (d a b : BitVec 7) (f : Word → Word → Word → Word) (s : State) :
    Host.Outcome State Fault Refusal :=
  issue i s fun p t =>
    .done (p.write t d.toNat fun k =>
      f ((p.th k).reg d.toNat) ((p.th k).reg a.toNat) ((p.th k).reg b.toNat))

/-- Register d of every active lane receives a function of its thread. -/
def perThread (i : Instr) (d : BitVec 7) (f : Thread → Word) (s : State) :
    Host.Outcome State Fault Refusal :=
  issue i s fun p t => .done (p.write t d.toNat fun k => f (p.th k))

/-- Pair d of every active lane receives a function of its thread (R39). -/
def perThreadPair (i : Instr) (d : BitVec 7) (f : Thread → BitVec 64) (s : State) :
    Host.Outcome State Fault Refusal :=
  issue i s fun p t =>
    .done (p.setThreads t p.act fun k th => th.setPair d.toNat (f (p.th k)))

/-- Predicate d of every active lane receives a function of its thread. -/
def perPred (i : Instr) (d : BitVec 7) (f : Thread → Bool) (s : State) :
    Host.Outcome State Fault Refusal :=
  issue i s fun p t =>
    .done (p.setThreads t p.act fun k th => th.setPred d.toNat (f (p.th k)))

/-- Register d and the flags receive a function of the thread, the flags ORed over the active lanes
(R18, R110). -/
def perFloat (i : Instr) (d : BitVec 7) (f : Thread → Word × Fl) (s : State) :
    Host.Outcome State Fault Refusal :=
  issue i s fun p t =>
    .done (p.flags (p.write t d.toNat fun k => (f (p.th k)).1)
      (orFlags ((laneList p.act).map fun k => (f (p.th k)).2)))

/-- Write a uniform register once for a path with an active lane (R82). -/
def Path.writeU (p : Path) (s : State) (d : Nat) (x : Word) : State :=
  if p.any then p.share s fun h => { h with s := h.s.set d x } else s

/-- A uniform instruction of two operands (R82, R83): it reads the registers as they stood at the start
of the cycle. -/
def uniform2 (i : Instr) (d a b : BitVec 7) (f : Word → Word → Word) (s : State) :
    Host.Outcome State Fault Refusal :=
  issue i s fun p t => .done (p.writeU t d.toNat (f (p.w.old.u a.toNat) (p.w.old.u b.toNat)))

/-- A uniform instruction of one operand. -/
def uniform1 (i : Instr) (d a : BitVec 7) (f : Word → Word) (s : State) :
    Host.Outcome State Fault Refusal :=
  issue i s fun p t => .done (p.writeU t d.toNat (f (p.w.old.u a.toNat)))

/-- An instruction that acts once for a path with an active lane (R193). -/
def perPath (i : Instr) (s : State) (body : Path → State → Step1) :
    Host.Outcome State Fault Refusal :=
  issue i s fun p t => if p.any then body p t else .done t

/-- A thread owes the results of an operation (R69, R70): nothing is kept when the window is empty and
the results or captures are done. -/
def owe (t : Thread) (op la : Nat) (done : Bool) (wr rd : List Loc) : Thread :=
  let done := done || (wr = [] && rd = [])
  if done && la = 0 then t else { t with owed := t.owed ++ [⟨op, la, done, wr, rd⟩] }

/-- The lanes that wait for an operation that their instruction makes go on, and those at the end of a loop level arrive
there (R146, R195, R317). -/
def endSignalWait (s : State) (uid op : Nat) : State :=
  modWarpUid s uid fun w =>
    Warp.loopSettle { w with th := w.th.map fun t => if t.wait = .signal op then { t with wait := .none } else t }
      (w.lanesWhere fun t => t.wait = .signal op)

/-- The first failing check of a list (R149). -/
def firstFault (l : List (Bool × Flt)) : Option Flt := (l.find? fun x => x.1).map fun x => x.2

/-- Lanes of the active set that fail a test. -/
def Path.failing (p : Path) (bad : Nat → Bool) : BitVec 32 := maskOf ((laneList p.act).filter bad)

/-- A check of every active lane (R149): it fails in the lanes of `bad`, and the record names the address
of the lowest. -/
def Path.laneCheck (p : Path) (cls code space : Nat) (write : Bool) (addr : Nat → Nat)
    (bad : Nat → Bool) : Bool × Flt :=
  let m := p.failing bad
  (m ≠ 0#32, ⟨cls, code, space, write, m, addr (lowLane m), [], 0, 0, none⟩)

/-- A check of a per-path operand: it fails in every active lane (R149). -/
def Path.pathCheck (p : Path) (bad : Bool) (cls code space : Nat) (write : Bool) (addr : Nat) : Bool × Flt :=
  (bad, ⟨cls, code, space, write, p.act, addr, [], 0, 0, none⟩)

/-- The checks of a barrier address (R188), then of its reserved bits when the instruction reads it. Each concerns
the barrier at that address of the scratch (R149). -/
def Path.tbFaults (p : Path) (s : State) (ad : Nat) (reads : Bool) : List (Bool × Flt) :=
  [p.pathCheck (ad % 16 ≠ 0) 5 1 1 true ad, p.pathCheck (decide (p.scratchBytes < ad + 16)) 5 3 1 true ad,
   p.pathCheck (reads && tbReserved (tbRead s p.die p.pos ad)) 9 20 1 true ad]

end Sys2Proof.Machine
end

