-- ==== Sys2Proof/Machine/Shares.lean ====
section
/-! DEFINITION. The units of the frame instructions: sharing and releasing one page (R366), and the wait for the
completion of a change of an entry (R146). -/

namespace Sys2Proof.Machine

/-- An access to some of `n` pages from a virtual page was checked and is not performed yet (R146). -/
def accessPending (s : State) (asid vpage n : Nat) : Bool :=
  let hit := fun (a : LaneAcc) => a.sp = .phys && decide (vpage ≤ a.va / 65536) && decide (a.va / 65536 < vpage + n)
  s.ops.any fun o => o.asid = asid && (o.pending.any hit || match o.kind with
    | .signal a _ => hit a
    | _ => false)

/-- The address of the level-0 entry of a virtual page, when the tables above it are there (R357). -/
def entryFrom (s : State) : Nat → Nat → Nat → Option Nat
  | 0, table, va => some (table + 8 * pteIndex 0 va)
  | level + 1, table, va =>
    let e := devRead s (table + 8 * pteIndex (level + 1) va) 8
    if bit e 0 && !(pteMalformed s (level + 1) e) && !(bit e 1) then entryFrom s level (nextTable e) va
    else none

/-- The level-0 entry of a virtual page under an ASID (R360). -/
def entryOf (s : State) (asid va : Nat) : Option Nat :=
  let a := asidEntry s asid
  if bit a 392 && !(asidMalformed a) then entryFrom s 3 (bits a 63 0) va else none

/-- One page of `pshare` (R366). -/
def sharePage (s : State) (asid src dst : Nat) (ro : Bool) : State :=
  match walk s asid src, entryOf s asid dst with
  | .leaf _ e at_, some t =>
    let e' := putBits e 4 4 1
    let s := writePte s at_ e'
    let c := countOf s (leafFrame e)
    let s := if c = 0xFFFF#16 then s else setCount s (leafFrame e) (c + 1)
    let n := putBits e' 7 7 0
    writePte s t (if ro then putBits (putBits n 2 2 0) 4 4 0 else n)
  | _, _ => s

/-- One page of `prel` (R366): the frame is the one that its entry named when its steps began. -/
def releasePage (s : State) (asid va frame : Nat) : State :=
  match walk s asid va with
  | .leaf _ e at_ => dropCount (writePte s at_ (putBits e 0 0 0)) asid frame
  | .unmapped .. => s

/-- The frame that a page's entry names. -/
def frameOf (s : State) (asid va : Nat) : Option Nat :=
  match walk s asid va with
  | .leaf _ e _ => some (leafFrame e)
  | .unmapped .. => none

/-- The unit of a page has to wait (R146, R366): a resolution or move of the page has not ended, or the change
of the entry that comes first is not complete, since an access checked under the old entry is not performed. -/
def pageWaits (s : State) (asid va : Nat) (share : Bool) : Bool :=
  match walk s asid va with
  | .leaf _ e _ => bit e 7 || (!(share && bit e 4) && accessPending s asid (va / 65536) 1)
  | .unmapped .. => false

/-- The steps of a frame instruction's next page, which are one unit (R366), unless it has to wait; with the last page
its path goes on. -/
def framesTurn (s : State) (op : Nat) : State :=
  match opAt s op with
  | none => s
  | some o =>
    match o.kind with
    | .frames share ro src dst i n f =>
      let va := src + 65536 * i
      let f := f.or (frameOf s o.asid va)
      if pageWaits s o.asid va share then
        modOp s op fun o => { o with kind := .frames share ro src dst i n f }
      else
        let s := if share then sharePage s o.asid va (dst + 65536 * i) ro else releasePage s o.asid va (f.getD 0)
        if n ≤ i + 1 then endSignalWait (endOp s op) o.uid op
        else modOp s op fun o => { o with kind := .frames share ro src dst (i + 1) n none }
    | _ => s

/-- Every frame instruction that waits tries again after a move has ended or an access is performed (R366). -/
def framesSettle (s : State) : State :=
  (s.ops.filterMap fun o => match o.kind with
    | .frames .. => some o.id
    | _ => none).foldl framesTurn s

end Sys2Proof.Machine
end

