-- ==== Sys2Proof/Machine/Access.lean ====
section
/-! DEFINITION. Accesses of threads and engines: the checks of R134 to R139 and R149, late results (R69,
R70), and what performing a read or a write does (R140, R143, R265, R277, R289, R295, R347, R371, R373). -/

namespace Sys2Proof.Machine

/-! ### Checks (R133 to R139, R149) -/

/-- The address spaces of R133 Table 1, numbered as the fault record numbers them (R147). -/
inductive Sp where
  | global
  | scratch
  | hood
  | system
  deriving DecidableEq, Repr

def Sp.code : Sp → Nat
  | .global => 0
  | .scratch => 1
  | .hood => 2
  | .system => 3

/-- Where a checked access goes. -/
structure Target where
  sp : Space
  addr : Nat
  kd : Nat
  mir : Bool
  gen : Option (Nat × Nat × Word)
  deriving DecidableEq, Repr

/-- The neighbourhood of a lane's block, with its members (R136, R262). -/
def Path.hood (p : Path) (k : Nat) : Option Hood := p.grid.hoodOf (p.th k).blk

/-- The check of a scratch offset (R135). -/
def checkScratch (p : Path) (size ea : Nat) : Except Denial Target :=
  if ea + size ≤ p.scratchBytes then .ok ⟨p.scratch, ea, 0, false, none⟩ else .error ⟨5, 3, false, false⟩

/-- The check of a hood-window offset (R136): the member's scratch and its recorded generation (R265). -/
def checkHood (p : Path) (k size ea : Nat) : Except Denial Target :=
  let sz := p.scratchBytes
  if sz = 0 || decide (p.grid.hoodSize * sz < ea + size) then .error ⟨5, 4, false, false⟩
  else match p.hood k with
    | none => .error ⟨5, 5, false, false⟩
    | some h =>
      match h.blocks[ea / sz]? with
      | none => .error ⟨5, 4, false, false⟩
      | some b =>
        if b.st = .retired then .error ⟨5, 5, false, false⟩
        else .ok ⟨.scratch b.die b.pos, ea % sz, 0, false, some (b.die, b.pos, h.gens.getD (ea / sz) 0)⟩

/-- The check of a virtual address under an ASID (R134, R358, R359). -/
def checkVirtual (s : State) (asid ea : Nat) (write : Bool) (dom : Bool) : Except Denial Target :=
  (translate s asid ea write false (some dom)).map fun tr => ⟨.phys, tr.pa, tr.kd, tr.mir, none⟩

/-- The check of one lane's access of `size` bytes (R139): alignment first (R137). -/
def checkLane (s : State) (p : Path) (sp : Sp) (write : Bool) (size k ea : Nat) : Except Denial Target :=
  if ea % size ≠ 0 then .error ⟨5, 1, false, false⟩
  else match sp with
    | .global => checkVirtual s p.grid.asid ea write false
    | .system => checkVirtual s p.grid.asid ea write true
    | .scratch => checkScratch p size ea
    | .hood => checkHood p k size ea

/-- The denial of a check, if it failed. -/
def denied {α : Type} (x : Except Denial α) : Option Denial :=
  match x with
  | .error d => some d
  | .ok _ => none

/-- The fault of the checks of several lanes (R149): the lowest class, its lowest code, its lanes. -/
def lanesFault (p : Path) (space : Nat) (write : Bool) (ea : Nat → Nat) (chk : Nat → Option Denial) : Option Flt :=
  let fails := (laneList p.act).filterMap fun k => (chk k).map fun d => (k, d)
  match fails with
  | [] => none
  | f :: _ =>
    let cls := fails.foldl (fun m x => min m x.2.cls) f.2.cls
    let mine := fails.filter fun x => x.2.cls = cls
    let code := mine.foldl (fun m x => min m x.2.code) 255
    let m := maskOf (mine.map (·.1))
    let bad := distinct ((fails.filter fun x => x.2.malformed).map fun x => ea x.1 / 65536)
    let locked := distinct ((fails.filter fun x => x.2.locked).map fun x => ea x.1 / 65536)
    let pages := if cls = 7 then mine.map fun x => (ea x.1 / 65536, x.2.code) else []
    some { cls := cls, code := code, space := space, write := write, lanes := m, addr := ea (lowLane m),
           pages := pages, bad := bad.length, locked := locked.length, unit := none }

/-- R139's first loop over the active lanes. -/
def Path.checkAll (p : Path) (s : State) (sp : Sp) (write : Bool) (size : Nat) (ea : Nat → Nat) : Option Flt :=
  lanesFault p sp.code write ea fun k => denied (checkLane s p sp write size k (ea k))

/-! ### Late results (R69, R70, R93) -/

/-- A thread receives the late results of an operation; what it no longer owes is discarded (R102). -/
def Thread.receive (t : Thread) (op : Nat) (vals : List (Loc × Word)) : Thread :=
  if t.owed.any fun o => o.op = op && !o.done then
    let t := vals.foldl (fun t v => t.put v.1 v.2) t
    let owed := updWhere (fun o => o.op = op) (fun o => { o with done := true }) t.owed
    { t with owed := owed.filter fun o => !(o.done && o.rem = 0) }
  else t

/-- A lane of a warp receives late results. -/
def receive (s : State) (uid op lane : Nat) (vals : List (Loc × Word)) : State :=
  modWarpUid s uid fun w => { w with th := w.th.mapIdx fun k t => if k = lane then t.receive op vals else t }

/-- The 32-bit words of a value. -/
def wordsOf (x : Nat) (n : Nat) : List Word := (List.range n).map fun i => BitVec.ofNat 32 (x / 2 ^ (32 * i))

/-! ### Counters (R300) and the frontier (R348) -/

/-- Change ldcnt (true) or stcnt of a warp. -/
def bumpCount (s : State) (uid : Nat) (load up : Bool) : State :=
  modWarpUid s uid fun w =>
    let f := fun (c : BitVec 8) => if up then c + 1 else c - 1
    if load then { w with ldcnt := f w.ldcnt } else { w with stcnt := f w.stcnt }

/-- A path issue of a store, atomic or signal instruction passed its check point (R348). -/
def Path.frontier (p : Path) (s : State) : State :=
  (distinct ((laneList p.act).map fun k => (p.th k).blk)).foldl (fun st b =>
    modBlock st p.grid.id b fun x => { x with frontier := min (2 ^ 40 - 1) (x.frontier + 1) }) s

/-! ### Performing (R143, R265, R287) -/

/-- The memory-error path of an operation (R152, R204, R347): the record names the instruction, the path that issued it
and the lanes whose data failed, and the neighbourhood of the block of the first of them is killed; its fault registers go
with it. Lanes whose block has been killed or flushed since count no more (log 54). -/
def memoryError (s : State) (o : Op) (code space : Nat) (write : Bool) (lanes : BitVec 32) (addr : Nat) : State :=
  let m := lanes &&& ~~~o.gone
  if m = 0#32 then s
  else
    let blk := o.blkOf (lowLane m)
    let r := faultRecord 8 code space write o.asid o.slot m o.path o.pc addr
    let (_, s) := postFault s r o.die o.pos blk false false
    match (gridAt s o.grid).bind fun g => g.hoodOf blk with
    | some h => killHood s o.grid h.idx
    | none => s

/-- The thread of a lane that issued the operation still runs, so a result it is owed would be written (R102). -/
def owing (s : State) (o : Op) (lane : Nat) : Bool := (warpOfUid s o.uid).any fun x => (x.2.lane lane).running

/-- What stops the data of a read (R347, R373): the code of class 8, with the state in which every unit of the range
whose tag fails is marked. -/
def readError (s : State) (sp : Space) (a n kd asid : Nat) : Option (Nat × State) :=
  if isPoisoned s sp a n then some (1, tagsFail s sp a n kd asid 0)
  else if n ≠ 0 && tagMismatch s sp a n kd then some (2, tagsFail s sp a n kd asid 0)
  else none

/-- A write performed in a frame sets the dirty filter of a demotion of it (R371). -/
def markDirty (s : State) (sp : Space) (a n : Nat) : State :=
  if sp = .phys then
    { s with moves := s.moves.map fun m => match m with
        | .demote d as v f t g k dirty =>
          .demote d as v f t g k (dirty || (decide (a < f + 65536) && decide (f < a + n)))
        | m => m }
  else s

/-- The duplicates of a mirrored write, one for each sector (R295, R407): they wait for the partner's
acknowledgement. -/
def mirrorWrite (s : State) (mir : Bool) (pa n uid : Nat) (cov : BitVec 24) (needs : List (Nat × Nat)) : State :=
  if mir && bit s.mircfg.toNat 63 then
    (sectorsOf pa n).foldl (fun st k =>
      { st with mirrors := st.mirrors ++ [⟨st.nextId, 32 * k, uid, cov, st.ns, (needs.headD (0, 0)).1, (needs.headD (0, 0)).2, none⟩], nextId := st.nextId + 1 }) s
  else s

/-- The physical address of the signal that a confirmed watch names, while it is active (R345). -/
def Watch.pa (w : Watch) (s : State) : Option Nat :=
  let r := w.reg.toNat
  if bit r 127 then
    match translate s (bits r 63 52) (bits r 51 0) false false (some false) with
    | .ok t => some t.pa
    | .error _ => none
  else none

/-- The work of a block of a grid is named in a suspect report (R346). -/
def suspectWork (s : State) (x : Nat × Nat) : Bool :=
  ((gridAt s x.1).bind fun g => g.block x.2).any fun b => b.suspect

/-- A write of memory that a confirmed watch sees (R345): the value joins the held ones, and the watch is suspect when
the value depends on named work. -/
def noteWatched (s : State) (sp : Space) (a n : Nat) (once : Bool) (needs : List (Nat × Nat)) : State :=
  if sp = .phys && n ≠ 0 && s.dies.any fun d => d.watches ≠ [] then
    let bad := !once && needs.any (suspectWork s)
    let seen := fun (w : Watch) => (w.pa s).filter fun pa => decide (a < pa + 8) && decide (pa < a + n)
    { s with
      dies := s.dies.map fun d =>
        { d with watches := d.watches.map fun x =>
            match seen x.2 with
            | some pa =>
              (x.1, { reg := if bad then x.2.reg ||| 0x40000000000000000000000000000000#128 else x.2.reg,
                      held := x.2.held ++ [⟨BitVec.ofNat 64 (readN s .phys pa 8), once, needs⟩] })
            | none => x },
      justSet := (if bad then (s.dies.mapIdx fun i d =>
          (d.watches.filter fun x => (seen x.2).isSome).map fun x => Sticky.suspect i x.1).flatten else []) ++ s.justSet }
  else s

/-- A write at its home, with the memory error records of the units whose old bytes fail their tag (R374, R375), and the
values that it leaves for later fetches (R169). -/
def homeWrite (s : State) (sp : Space) (a kd : Nat) (bs : List (Option Byte)) : State :=
  let bad := (torn s sp a kd (unlocked s sp a bs)).filter fun u => !(s.rmwBad.contains u)
  let s := bad.foldl (fun st u => memErrorRecord st (dieOfPa (64 * u)) 0 (64 * u) 1 2) (agentWrite s sp a kd bs)
  if sp = .phys && bs.any Option.isSome then logWords s a bs.length else s

/-- Perform a write of an agent: the bytes, the dirty filter, the mirror, the confirmed watches (R140, R289,
R295, R345, R371); `needs` are the grid and block whose work it is. -/
def performWrite (s : State) (sp : Space) (a kd : Nat) (bs : List (Option Byte)) (mir : Bool) (uid : Nat)
    (cov : BitVec 24) (needs : List (Nat × Nat)) : State :=
  let s := homeWrite s sp a kd bs
  let s := markDirty s sp a bs.length
  let s := noteWatched s sp a (if bs.any Option.isSome then bs.length else 0) false needs
  mirrorWrite s (mir && bs.any Option.isSome) a bs.length uid cov needs

/-- The generation a window access carries is its target's current one (R265). -/
def genCurrent (s : State) (g : Option (Nat × Nat × Word)) : Bool :=
  match g with
  | some (d, p, x) => (coreAt s d p).gen = x
  | none => true

/-- Count a discarded or zeroed window access at the target's cluster (R265). -/
def countDrop (s : State) (die pos : Nat) : State :=
  modCluster s die (clusterOf pos) fun c =>
    { c with drop := if c.drop = 0x7FFFFFFF#31 then c.drop else c.drop + 1 }

/-- The bytes of an access that are still to be performed: of a system access of 16 bytes, the half that is left (R144);
offset and length. -/
def LaneAcc.rest (a : LaneAcc) : Nat × Nat :=
  match a.system, a.halves with
  | true, [h] => (8 * h, 8)
  | _, _ => (0, a.size)

/-- Two accesses have a byte in common that is still to be performed. -/
def LaneAcc.meets (a b : LaneAcc) : Bool :=
  decide (b.addr + b.rest.1 < a.addr + a.rest.1 + a.rest.2) && decide (a.addr + a.rest.1 < b.addr + b.rest.1 + b.rest.2)

/-- An earlier access of the lane that must be performed first (R287, R293): every earlier device-domain
access for a device-domain one; an earlier system access to a byte of it for a system one. -/
def laneBlocked (s : State) (o : Op) (a : LaneAcc) : Bool :=
  s.ops.any fun e => decide (e.id < o.id) && e.uid = o.uid &&
    (if a.system then
      e.pending.any fun b => b.lane = a.lane && b.system && a.meets b
     else match e.kind with
      | .access .. => e.pending.any fun b => b.lane = a.lane && !b.system
      | .late _ => e.pending.any fun b => b.lane = a.lane
      | .signal .. => e.lanes.getLsbD a.lane
      | _ => false)

/-- An access may be performed now: its place in T is next among those that bind it (R213, R272, R287). A system access
has no place in T (R293). -/
def enabled (s : State) (o : Op) (a : LaneAcc) : Bool :=
  (a.system || afterDone s o.after) && !(laneBlocked s o a) &&
    (match a.kind with
     | .atomic .. => !(o.pending.any fun b => decide (b.lane < a.lane) && b.sp = a.sp && b.addr = a.addr)
     | _ => true)

/-- The access of a lane leaves the operation; the last one ends it and lowers its counter (R300). A frame
instruction that waits for it tries again (R146, R366). -/
def accessDone (s : State) (o : Op) (lane : Nat) : State :=
  let left := o.pending.filter fun a => a.lane ≠ lane
  framesSettle (match o.kind with
    | .access ld _ =>
      if left = [] then bumpCount (endOp s o.id) o.uid ld false
      else modOp s o.id fun o => { o with kind := .access ld left }
    | .late _ =>
      if left = [] then bumpCount (endOp s o.id) o.uid true false
      else modOp s o.id fun o => { o with kind := .late left }
    | _ => s)

/-- The pending access of a lane of an operation. -/
def pendingAt (s : State) (op lane : Nat) : Option (Op × LaneAcc) :=
  (opAt s op).bind fun o => (o.pending.find? fun a => a.lane = lane).map fun a => (o, a)

/-- The fault space of a place, for a record (R147). -/
def spaceCode (sp : Space) : Nat :=
  match sp with
  | .phys => 0
  | .scratch .. | .left .. => 1
  | _ => 5

/-- The fault space of an access, for a record (R147). -/
def LaneAcc.space (a : LaneAcc) : Nat :=
  if a.system then 3 else if a.gen.isSome then 2 else spaceCode a.sp

end Sys2Proof.Machine
end

