-- ==== Sys2Proof/Machine/Engine.lean ====
section
/-! DEFINITION. Units of engine operations (R179, R183, R186, R189, R204, R291): translation, resolution, errors,
the bytes they move and the sectors they land. -/

namespace Sys2Proof.Machine

/-! ### Bytes of local stores -/

/-- An engine writes sectors of a kernel's store for a block (R246). -/
def touch (s : State) (sp : Space) (a n blk : Nat) : State :=
  match sp with
  | .weight .. | .acc .. | .slot .. =>
    let l := localOf s sp
    let new := (sectorsOf a n).filter fun k => !(l.touched.contains (k, blk))
    setLocal s { l with touched := l.touched ++ new.map fun k => (k, blk) }
  | _ => s

/-- The block of an operation is still on the operation's core, so the scratch there is still its own (R178). -/
def Op.here (s : State) (o : Op) : Bool :=
  match (gridAt s o.grid).bind fun g => g.block o.blk with
  | some b => b.st = .placed && b.die = o.die && b.pos = o.pos
  | none => false

/-- Where a store of the issuing core is for an operation: the scratch of a block that has left is what the core kept of
it (R178, R290; log 70). -/
def Op.place (o : Op) (s : State) (sp : Space) : Space :=
  if sp = .scratch o.die o.pos && !(o.here s) then .left o.grid o.blk else sp

/-- An engine operation writes bytes of a place of the issuing core or of memory; a write of a mirrored page is noted
(R297). -/
def engineWrite (s : State) (o : Op) (sp : Space) (va a kd : Nat) (mir : Bool) (bs : List Byte) : State :=
  let sp := o.place s sp
  let s := performWrite s sp a kd (bs.map some) mir o.uid o.cov [(o.grid, o.blk)]
  let s := if mir then modOp s o.id fun o => { o with mir := true } else s
  let s := touch s sp a bs.length o.blk
  watchSpace s (o.src 3) false true sp o.asid va a bs.length

/-- The state as a unit of an engine reads it: a sector of its source that it has read already is as it was then (R179). -/
def withEarly (s : State) (sp : Space) (l : List Early) (unit : Nat) : State :=
  (l.filter fun x => x.unit = unit).foldl (fun st x =>
    let st := clearPoison (writeBytes st sp (32 * x.sector) x.bytes) sp (32 * x.sector) 32
    let st := if x.poison then addPoison st sp x.sector else st
    let lo := localOf st sp
    let rest := lo.tags.filter (· ≠ x.sector)
    setLocal st { lo with tags := if x.tag then x.sector :: rest else rest }) s

/-- A unit reads a sector of its source (R179). -/
def readEarly (s : State) (sp : Space) (l : List Early) (unit sector : Nat) : List Early :=
  if l.any fun x => x.unit = unit && x.sector = sector then l
  else ⟨unit, sector, s.poison.contains (sp, sector), (localOf s sp).tags.contains sector,
    readBytes s sp (32 * sector) 32⟩ :: l

/-- What the other units have read ahead. -/
def earlyRest (l : List Early) (unit : Nat) : List Early := l.filter fun x => x.unit ≠ unit

/-! ### Records read at issue (R184, R318, R403) -/

/-- What stops the read of a 64-byte record that an instruction makes as it issues, checked as a lane load is (R148,
R347, R373). -/
def Path.recordFault (p : Path) (s : State) (va : Nat) (g : Target) : Option Flt :=
  (readError s .phys g.addr 64 g.kd p.grid.asid).map fun x =>
    { Flt.plain 8 x.1 p.act with space := 0, addr := va, unit := some (g.addr, 64, g.kd) }

/-- The record was read: a read of its words that the firmware lock counts (R377) and a watchpoint sees (R277). -/
def Path.noteRecord (p : Path) (t : State) (va : Nat) (g : Target) : State :=
  watchGlobal (noteRead t .phys g.addr 64) (p.src p.l0 0) true false p.grid.asid va 64

/-- The first of a fault and of the failing checks that follow it (R149). -/
def faultThen (x : Option Flt) (l : List (Bool × Flt)) : Option Flt :=
  match x with
  | some f => some f
  | none => firstFault l

/-! ### Translation of a unit (R151, R186, R204, R372) -/

/-- A resolved byte run. -/
structure Run1 where
  src : Option (Space × Nat × Nat × Nat)
  dst : Option (Space × Nat × Nat × Bool × Nat)
  n : Nat
  deriving DecidableEq, Repr

/-- The source of a run of an operation: space, address, key domain, virtual address. -/
def resolveSrc (s : State) (o : Op) (x : Option Place) : Except (Denial × Nat) (Option (Space × Nat × Nat × Nat)) :=
  match x with
  | none => .ok none
  | some (.at sp a) => .ok (some (o.place s sp, a, 0, a))
  | some (.virt asid va) =>
    match translate s asid va false false (some false) with
    | .ok t => .ok (some (.phys, t.pa, t.kd, va))
    | .error d => .error (d, va)

/-- The destination of a run: space, address, key domain, mirrored, virtual address. -/
def resolveDst (s : State) (x : Option Place) : Except (Denial × Nat) (Option (Space × Nat × Nat × Bool × Nat)) :=
  match x with
  | none => .ok none
  | some (.at sp a) => .ok (some (sp, a, 0, false, a))
  | some (.virt asid va) =>
    match translate s asid va true false (some false) with
    | .ok t => .ok (some (.phys, t.pa, t.kd, t.mir, va))
    | .error d => .error (d, va)

/-- A run that cannot be translated: why, its virtual address, and whether the access is a write. -/
structure Refused where
  d : Denial
  va : Nat
  write : Bool
  deriving DecidableEq, Repr

/-- Every run of a unit translated, or the first refusal. -/
def resolveSegs (s : State) (o : Op) : List Seg → Except Refused (List Run1)
  | [] => .ok []
  | g :: t =>
    match resolveSrc s o g.src, resolveDst s g.dst, resolveSegs s o t with
    | .ok a, .ok b, .ok r => .ok (⟨a, b, g.n⟩ :: r)
    | .error e, _, _ => .error ⟨e.1, e.2, false⟩
    | _, .error e, _ => .error ⟨e.1, e.2, true⟩
    | _, _, .error e => .error e

/-- A read that fails: the code of class 8, its space and address for the record, and the state in which the unit is
marked. -/
structure Spoilt where
  code : Nat
  space : Nat
  addr : Nat
  state : State

/-- The first run whose source is poisoned or fails its tag (R204, R347, R373). -/
def sourceError (s : State) (asid : Nat) (rs : List Run1) : Option Spoilt :=
  rs.findSome? fun r => match r.src with
    | some (sp, a, kd, va) => (readError s sp a r.n kd asid).map fun x =>
        ⟨x.1, spaceCode sp, if spaceCode sp = 5 then 0 else va, x.2⟩
    | none => none

/-- The bytes that the runs of a unit read. -/
def runData (s : State) (r : Run1) : List Byte :=
  match r.src with
  | some (sp, a, kd, _) => agentBytes s sp a r.n kd
  | none => List.replicate r.n 0

/-- The reads of a unit are made: the firmware lock counts them (R377) and watchpoints see them (R277). -/
def noteRuns (s : State) (o : Op) (rs : List Run1) : State :=
  rs.foldl (fun st r => match r.src with
    | some (sp, a, _, va) => watchSpace (noteRead st sp a r.n) (o.src 4) true false sp o.asid va a r.n
    | none => st) s

/-- Move the bytes of a unit: its reads come before its writes (R291). -/
def moveRuns (s : State) (o : Op) (rs : List Run1) : State :=
  let data := rs.map (runData s)
  let s := noteRuns s o rs
  (rs.zip data).foldl (fun st x => match x.1.dst with
    | some (sp, a, kd, mir, va) => engineWrite st o sp va a kd mir x.2
    | none => st) s

/-! ### Sectors of a unit (R179, R183, R291) -/

/-- A place some bytes further on. -/
def Place.shift (p : Place) (n : Nat) : Place :=
  match p with
  | .virt asid va => .virt asid (va + n)
  | .at sp a => .at sp (a + n)

/-- The sectors of the local footprint that some bytes of a place lie in (R183); those of the slots are told apart. -/
def Place.secs (p : Place) (n : Nat) : List Nat :=
  match p with
  | .virt .. => []
  | .at (.slot _ _ _ j) a => (sectorsOf a n).map (· + 2 ^ 32 * j)
  | .at _ a => sectorsOf a n

/-- The end of a run that lies in a local store: its destination, or the source of a write to memory. -/
def Seg.local? (g : Seg) : Option Place :=
  match g.dst with
  | some (.at sp a) => some (.at sp a)
  | _ => g.src

/-- What a run writes, one piece for each 32-byte sector of its destination. -/
def Seg.pieces (g : Seg) (r : Run1) (data : List Byte) : List Piece :=
  match r.dst with
  | none => []
  | some (sp, a, kd, mir, va) => (sectorsOf a r.n).map fun k =>
      let lo := max a (32 * k) - a
      let n := min (a + r.n) (32 * k + 32) - a - lo
      { sp := sp, addr := a + lo, va := va + lo, kd := kd, mir := mir, bytes := (data.drop lo).take n,
        secs := (g.local?.map fun p => (p.shift lo).secs n).getD [] }

/-- Pieces gathered by the 32-byte sector that they write. -/
def bySector (l : List Piece) : List (List Piece) :=
  (l.map fun x => (x.sp, x.addr / 32)).eraseDups.map fun k => l.filter fun x => (x.sp, x.addr / 32) = k

/-- What the runs of a unit, translated, write once they have been read: one list for each 32-byte sector. -/
def sectorsOut (s : State) (segs : List Seg) (rs : List Run1) : List (List Piece) :=
  bySector ((segs.zip rs).flatMap fun x => x.1.pieces x.2 (runData s x.2))

/-- Write the pieces of a sector. -/
def writePieces (s : State) (o : Op) (ps : List Piece) : State :=
  ps.foldl (fun st x => engineWrite st o x.sp x.va x.addr x.kd x.mir x.bytes) s

/-- The unit still has bytes to move towards a sector of its footprint (R183). -/
def Unit.holds (u : Unit) (k : Nat) : Bool :=
  match u.out with
  | none => u.secs.contains k
  | some l => l.any fun ps => ps.any fun x => x.secs.contains k

/-! ### The outcome of an attempt -/

/-- What a unit does when it is its turn. -/
inductive Attempt where
  | wait (s : State)
  | fail (s : State) (cls code va : Nat) (write : Bool)
  | poisoned (e : Spoilt)
  | moved (s : State)

/-- The virtual address at which a unit waits, and whether the access there is a write. -/
def unitFails (s : State) (o : Op) (u : Unit) : Nat × Bool :=
  match resolveSegs s o u.segs with
  | .error e => (e.va, e.write)
  | .ok _ => match u.page with
    | some q => (q.1 * 65536, q.2 = 1)
    | none => (0, false)

/-- Try a unit (R151, R204): a class 7 condition starts its resolution and the unit waits. -/
def tryUnit (s : State) (o : Op) (u : Unit) : Attempt :=
  match u.err with
  | some (cls, code) => let x := unitFails s o u
                        .fail s cls code x.1 x.2
  | none =>
    if u.seq.isSome then .wait s
    else match resolveSegs s o u.segs with
      | .error e =>
        let s := noteDenial s o.die e.d
        if e.d.cls = 7 then .wait (startMove s o.die o.asid (e.va / 65536) e.d.code)
        else .fail s e.d.cls e.d.code e.va e.write
      | .ok rs =>
        match sourceError s o.asid rs with
        | some e => .poisoned e
        | none => .moved (moveRuns s o rs)

/-- The page and code a unit waits for after an attempt. -/
def waitsOn (s : State) (o : Op) (u : Unit) : Option (Nat × Nat) :=
  match resolveSegs s o u.segs with
  | .error e => if e.d.cls = 7 then some (e.va / 65536, e.d.code) else none
  | .ok _ => none

/-! ### Landing (R183, R189) -/

/-- Sectors land at the operation's barrier, in the scratch of its core. -/
def landSecs (s : State) (o : Op) (n : Nat) : State :=
  match o.bar with
  | some b => if o.here s then tbLandN s (o.src 5) o.die o.pos b n else s
  | none => s

/-- The error of a charged copy at its barrier (R189). -/
def errorAtBarrier (s : State) (o : Op) (cls code : Nat) : State :=
  match o.bar with
  | some b => if o.here s then tbFault s (o.src 5) o.die o.pos b cls code else s
  | none => s

/-- Replace the units left of an operation. -/
def OpKind.setUnits (k : OpKind) (l : List Unit) : OpKind :=
  match k with
  | .units _ => .units l
  | .mcast _ => .mcast l
  | .transfer _ o c q => .transfer l o c q
  | .ngu n _ t sg => .ngu n l t sg
  | k => k

/-- A Nguroth operation still has its remote signal to send (R400). -/
def OpKind.owesSignal (k : OpKind) : Bool :=
  match k with
  | .ngu _ _ _ sg => !sg
  | _ => false

/-- A unit ended in error: not every unit of the operation is performed, so no remote signal follows (R400). -/
def OpKind.failed (k : OpKind) : OpKind :=
  match k with
  | .ngu n l t _ => .ngu n l t true
  | k => k

/-- Change one unit of an operation. -/
def modUnit (s : State) (op tag recv : Nat) (f : Unit → Unit) : State :=
  modOp s op fun o =>
    { o with kind := o.kind.setUnits (updWhere (fun u => u.tag = tag ∧ u.recv = recv) f o.unitsLeft) }

/-- A thread fault record of a unit: the instruction's address, its lane (R204, R324). -/
def unitRecord (o : Op) (cls code va lane : Nat) (write : Bool) : BitVec 256 :=
  let m : BitVec 32 := BitVec.ofNat 32 (2 ^ lane)
  faultRecord cls code 0 write o.asid o.slot m m o.pc va

/-- The units left of an operation after a change of one; the sectors of that one towards which nothing more has to move
land, or all of them when it ended in error (R183, R189). -/
def unitsBecome (s : State) (o : Op) (u : Unit) (left : List Unit) (failed : Bool) : State :=
  let due := o.secs.filter fun k => u.secs.contains k && (failed || !(left.any fun x => x.holds k))
  let secs := o.secs.filter fun k => !(due.contains k)
  let k := if failed then o.kind.failed else o.kind
  let s := if left = [] && !k.owesSignal then endOp s o.id
    else modOp s o.id fun x => { x with kind := k.setUnits left, secs := secs }
  landSecs s o due.length

/-- A unit leaves its operation (R183, R189). -/
def unitDone (s : State) (o : Op) (u : Unit) (failed : Bool) : State :=
  unitsBecome s o u (o.unitsLeft.filter fun x => ¬(x.tag = u.tag ∧ x.recv = u.recv)) failed

/-- A unit waits for a resolution; the record under which it waits already keeps its page and code (R151, R324). -/
def unitWaits (s' s : State) (o : Op) (u : Unit) : State :=
  modUnit s' o.id u.tag u.recv fun x => { x with page := if x.seq.isSome then x.page else waitsOn s o u }

/-- The disposition of a fatal failure of an uncharged copy (R152, R204). -/
def copyFatal (s : State) (die pos grid blk : Nat) (rec_ : BitVec 256) : State :=
  let (_, s) := postFault s rec_ die pos blk false false
  endGrid (killBlock s grid blk .killed) grid 2

/-- A fatal failure of an uncharged copy (R204). While the cluster is armed it stops it, and the record waits for the
release (R152, R279; log 73). A lane whose block has been killed since has nothing left to kill (log 54). -/
def unitFatal (s : State) (o : Op) (rec_ : BitVec 256) : State :=
  let cl := clusterOf o.pos
  if o.gone.getLsbD o.l0 then s
  else if clusterArmed s o.die cl then
    let s := modCluster s o.die cl fun c => { c with held := c.held ++ [⟨o.pos, o.grid, o.blk, rec_⟩] }
    debugHit s o.die cl o.pos o.slot o.l0 6 0 o.pc
  else copyFatal s o.die o.pos o.grid o.blk rec_

/-- The operation as it acts for one of its lanes. -/
def Op.forLane (o : Op) (lane : Nat) : Op := { o with l0 := lane, blk := o.blkOf lane }

/-- Perform one unit of a `cpy`, `tld` or `tst`, made by a lane (R204, R208): what it has written ahead stays. -/
def performUnit (s : State) (o : Op) (u : Unit) (lane : Nat) : State :=
  let o := o.forLane lane
  match u.out with
  | some l => unitDone (l.foldl (fun st ps => writePieces st o ps) s) o u false
  | none =>
    match tryUnit s o u with
    | .wait s' => unitWaits s' s o u
    | .moved s' => unitDone s' o u false
    | .poisoned e => memoryError e.state o e.code e.space false (BitVec.ofNat 32 (2 ^ lane)) e.addr
    | .fail s' cls code va write =>
      match o.bar with
      | some _ => unitDone (errorAtBarrier s' o cls code) o u true
      | none => unitFatal (unitDone s' o u true) o (unitRecord o cls code va lane write)

/-- The operation and the unit of a tag and receiver, when the accesses before its fork are performed. -/
def unitAt (s : State) (op tag recv : Nat) : Option (Op × Unit) :=
  match opAt s op with
  | some o =>
    if afterDone s o.after then
      ((o.unitsLeft.find? fun u => u.tag = tag ∧ u.recv = recv).filter fun u => afterDone s u.after).map fun u => (o, u)
    else none
  | none => none

/-! ### Slots -/

/-- The slot that a unit writes. -/
def Unit.slot (u : Unit) : Option Nat :=
  u.segs.findSome? fun g => match g.dst with
    | some (.at (.slot _ _ _ k) _) => some k
    | _ => none

/-- The unit's slot is held back by earlier operations of another owner (R212). -/
def unitHeld (s : State) (o : Op) (u : Unit) : Bool :=
  match u.slot with
  | some k => slotBusy s o k
  | none => false

end Sys2Proof.Machine
end

