-- ==== Sys2Proof/Machine/Numbers.lean ====
section
/-! DEFINITION. Number formats, exact values, rounding and conversion (R38 to R54, R57, R58, R113). -/

namespace Sys2Proof.Machine

/-- A floating-point format (R41 Table 1): exponent and mantissa widths; F8E4 has no infinity. -/
structure Fmt where
  ew : Nat
  t : Nat
  hasInf : Bool
  deriving DecidableEq, Repr

def fp32 : Fmt := ⟨8, 23, true⟩
def bf16 : Fmt := ⟨8, 7, true⟩
def fp16 : Fmt := ⟨5, 10, true⟩
def f8e4 : Fmt := ⟨4, 3, false⟩
def f8e5 : Fmt := ⟨5, 2, true⟩

/-- Exponent bias (R41 Table 1). -/
def Fmt.bias (f : Fmt) : Nat := 2 ^ (f.ew - 1) - 1

/-- The all-ones exponent code (R41). -/
def Fmt.top (f : Fmt) : Nat := 2 ^ f.ew - 1

/-- The weight of the sign bit. -/
def Fmt.signBit (f : Fmt) : Nat := 2 ^ (f.ew + f.t)

/-- emin = 1 − bias (R45). -/
def Fmt.emin (f : Fmt) : Int := 1 - (f.bias : Int)

/-- The canonical NaN (R41 Table 1, R43). -/
def Fmt.nan (f : Fmt) : Nat :=
  if f.hasInf then f.top * 2 ^ f.t + 2 ^ (f.t - 1) else f.top * 2 ^ f.t + (2 ^ f.t - 1)

/-- The magnitude code of the largest finite value (R41 Table 1). -/
def Fmt.maxCode (f : Fmt) : Nat :=
  if f.hasInf then (f.top - 1) * 2 ^ f.t + (2 ^ f.t - 1) else f.top * 2 ^ f.t + (2 ^ f.t - 2)

/-- The magnitude code of infinity, for the formats that have one. -/
def Fmt.infCode (f : Fmt) : Nat := f.top * 2 ^ f.t

/-- The code of a sign and a magnitude code. -/
def Fmt.signed (f : Fmt) (neg : Bool) (mag : Nat) : Nat := if neg then f.signBit + mag else mag

/-- The value of a code (R41, R43). -/
def Fmt.decode (f : Fmt) (x : Nat) : Num :=
  let s := bit x (f.ew + f.t)
  let e := bits x (f.ew + f.t - 1) f.t
  let m := x % 2 ^ f.t
  if e = f.top && f.hasInf then
    (if m = 0 then .inf s else .nan (decide (m < 2 ^ (f.t - 1))))
  else if e = f.top && m = 2 ^ f.t - 1 then .nan false
  else if e = 0 then .fin s m (f.emin - f.t)
  else .fin s (2 ^ f.t + m) ((e : Int) - f.bias - f.t)

/-- floor(log2 (num / den)) for positive num and den. -/
def log2Rat (num den : Nat) : Int :=
  let l : Int := (Nat.log2 num : Int) - Nat.log2 den
  let ge := if 0 ≤ l then decide (den * 2 ^ l.toNat ≤ num) else decide (den ≤ num * 2 ^ (-l).toNat)
  if ge then l else l - 1

/-- The magnitude bits of `num / den × 2 ^ sh` as a quotient and a remainder over a divisor. -/
def scaleRat (num den : Nat) (sh : Int) : Nat × Nat × Nat :=
  let n := if 0 ≤ sh then num * 2 ^ sh.toNat else num
  let d := if 0 ≤ sh then den else den * 2 ^ (-sh).toNat
  (n / d, n % d, d)

/-- Whether a magnitude with quotient `n0` and remainder `r` over `d` rounds up (R44, R45). -/
def roundsUp (rm : Nat) (neg : Bool) (n0 r d : Nat) : Bool :=
  match rm with
  | 0 => decide (d < 2 * r) || (decide (2 * r = d) && n0 % 2 = 1)
  | 2 => !neg && decide (0 < r)
  | 3 => neg && decide (0 < r)
  | _ => false

/-- The result of an overflow (R46 Table 2). -/
def overflowCode (f : Fmt) (rm : Nat) (sat neg : Bool) : Nat :=
  let inf := if f.hasInf then f.signed neg f.infCode else f.nan
  let mx := f.signed neg f.maxCode
  if sat then mx
  else match rm with
    | 0 => inf
    | 1 => mx
    | 2 => if neg then mx else inf
    | _ => if neg then inf else mx

/-- `Round` of the exact non-zero real `± num / den × 2 ^ e` (R45 to R47). -/
def roundRat (f : Fmt) (rm : Nat) (sat neg : Bool) (num den : Nat) (e : Int) : Nat × Fl :=
  let ex := log2Rat num den + e
  let q := (if ex < f.emin then f.emin else ex) - f.t
  let (n0, r, d) := scaleRat num den (e - q)
  let n := if roundsUp rm neg n0 r d then n0 + 1 else n0
  let (n, q) := if n = 2 ^ (f.t + 1) then (2 ^ f.t, q + 1) else (n, q)
  let mag := if n < 2 ^ f.t then n else ((q + f.t + f.bias).toNat) * 2 ^ f.t + (n - 2 ^ f.t)
  if f.maxCode < mag then
    (overflowCode f rm sat neg, flOverflow ||| flInexact ||| flIf sat flSaturated)
  else
    (f.signed neg mag, flIf (r ≠ 0) flInexact ||| flIf (r ≠ 0 && decide (ex < f.emin)) flUnderflow)

/-- `Round(x, fmt, (rm, sm))` with the special values of R43 and R46. DESIGN CHOICE (log 93): a zero keeps its sign; R45
defines Round for values other than zero. -/
def roundNum (f : Fmt) (rm : Nat) (sat : Bool) (x : Num) : Nat × Fl :=
  match x with
  | .nan s => (f.nan, flIf s flInvalid)
  | .inf neg =>
    if sat then (f.signed neg f.maxCode, flSaturated)
    else if f.hasInf then (f.signed neg f.infCode, 0) else (f.nan, flInvalid)
  | .fin neg m e => if m = 0 then (f.signed neg 0, 0) else roundRat f rm sat neg m 1 e

/-! ### Exact arithmetic -/

def Num.isNan : Num → Bool
  | .nan _ => true
  | _ => false

def Num.signalling : Num → Bool
  | .nan s => s
  | _ => false

def Num.isInf : Num → Bool
  | .inf _ => true
  | _ => false

def Num.isZero : Num → Bool
  | .fin _ m _ => m = 0
  | _ => false

def Num.negSign : Num → Bool
  | .nan _ => false
  | .inf n => n
  | .fin n _ _ => n

/-- Sign changed. -/
def Num.neg : Num → Num
  | .nan s => .nan s
  | .inf n => .inf (!n)
  | .fin n m e => .fin (!n) m e

/-- The exact value of an int. -/
def Num.ofInt (x : Int) : Num := .fin (decide (x < 0)) x.natAbs 0

/-- The signed mantissa of a finite value scaled to exponent `e0`, not above its own. -/
def Num.scaled (e0 : Int) : Num → Int
  | .fin n m e => let v : Int := m * 2 ^ (e - e0).toNat
                  if n then -v else v
  | _ => 0

/-- The exponent of a finite value. -/
def Num.exp : Num → Int
  | .fin _ _ e => e
  | _ => 0

/-- The exact product, 0 × ∞ and any operation on NaN giving a NaN (R47, R51). No flag goes with the NaN of 0 × ∞, and a
zero element under a negative scale gives -0 where a decoder writes the product: both are the model's choice (log 81). -/
def Num.mul (a b : Num) : Num :=
  match a, b with
  | .nan s, .nan s' => .nan (s || s')
  | .nan s, _ => .nan s
  | _, .nan s => .nan s
  | .inf n, y => if y.isZero then .nan false else .inf (n != y.negSign)
  | x, .inf n => if x.isZero then .nan false else .inf (x.negSign != n)
  | .fin n m e, .fin n' m' e' => .fin (n != n') (m * m') (e + e')

/-- The exact sum; `down` gives the sign of an exact zero sum of unlike terms (R47, R113); the sum of
opposite infinities is a NaN. -/
def Num.add (down : Bool) (a b : Num) : Num :=
  match a, b with
  | .nan s, .nan s' => .nan (s || s')
  | .nan s, _ => .nan s
  | _, .nan s => .nan s
  | .inf n, .inf n' => if n = n' then .inf n else .nan false
  | .inf n, _ => .inf n
  | _, .inf n => .inf n
  | .fin n m e, .fin n' m' e' =>
    let e0 := min e e'
    let v := (Num.fin n m e).scaled e0 + (Num.fin n' m' e').scaled e0
    if v = 0 then .fin (if m = 0 && m' = 0 && n = n' then n else down) 0 e0
    else .fin (decide (v < 0)) v.natAbs e0

/-- The exact order: −1, 0 or 1; −0 and +0 compare equal; infinities are the extremes. -/
def Num.cmp (a b : Num) : Int :=
  match a, b with
  | .inf n, .inf n' => if n = n' then 0 else if n then -1 else 1
  | .inf n, _ => if n then -1 else 1
  | _, .inf n => if n then 1 else -1
  | x, y =>
    let e0 := min x.exp y.exp
    let d := x.scaled e0 - y.scaled e0
    if d < 0 then -1 else if d = 0 then 0 else 1

/-! ### Add, multiply and fused multiply-add (R112 to R114) -/

/-- The result of rounding with the invalid contribution of R113: any signalling operand, or 0 × ∞, or
infinities of opposite sign. -/
def finishArith (f : Fmt) (rm : Nat) (inv : Bool) (x : Num) : Nat × Fl :=
  match x with
  | .nan _ => (f.nan, flIf inv flInvalid)
  | y => let (c, fl) := roundNum f rm false y
         (c, fl ||| flIf inv flInvalid)

/-- 0 × ∞ in a product. -/
def zeroTimesInf (a b : Num) : Bool := (a.isZero && b.isInf) || (a.isInf && b.isZero)

/-- `a + b` rounded (R112, R113). -/
def addF (f : Fmt) (rm : Nat) (a b : Num) : Nat × Fl :=
  let opp := match a, b with | .inf n, .inf n' => n != n' | _, _ => false
  finishArith f rm (a.signalling || b.signalling || opp) (Num.add (rm = 3) a b)

/-- `a × b` rounded (R112, R113). -/
def mulF (f : Fmt) (rm : Nat) (a b : Num) : Nat × Fl :=
  finishArith f rm (a.signalling || b.signalling || zeroTimesInf a b) (Num.mul a b)

/-- `a × b + c` rounded once (R112 to R114). -/
def fmaF (f : Fmt) (rm : Nat) (a b c : Num) : Nat × Fl :=
  let p := Num.mul a b
  let opp := match p, c with | .inf n, .inf n' => n != n' | _, _ => false
  finishArith f rm (a.signalling || b.signalling || c.signalling || zeroTimesInf a b || opp)
    (Num.add (rm = 3) p c)

/-- Minimum or maximum by code, −0 below +0 (R115): the chosen operand's own bits. -/
def minmaxF (f : Fmt) (isMax : Bool) (x y : Nat) : Nat × Fl :=
  let a := f.decode x
  let b := f.decode y
  let inv := flIf (a.signalling || b.signalling) flInvalid
  if a.isNan && b.isNan then (f.nan, inv)
  else if a.isNan then (y, inv)
  else if b.isNan then (x, inv)
  else
    let c := Num.cmp a b
    let aLess := c < 0 || (c = 0 && a.negSign && !b.negSign)
    (if aLess = isMax then y else x, inv)

/-! ### Integers and conversion (R38, R48, R128) -/

/-- Width and signedness of an integer format code (R38, R58). -/
def intFmt (code : Nat) : Option (Nat × Bool) :=
  match code with
  | 0 => some (8, true) | 1 => some (8, false) | 2 => some (16, true)
  | 3 => some (16, false) | 4 => some (32, true) | 5 => some (32, false)
  | _ => none

/-- The floating-point format of a code (R58). -/
def fltFmt (code : Nat) : Option Fmt :=
  match code with
  | 6 => some fp32 | 7 => some bf16 | 8 => some fp16 | 9 => some f8e4 | 10 => some f8e5
  | _ => none

/-- Element size in bytes of the codes 0x0 to 0xA (R58 Table 8). -/
def elemBytes (code : Nat) : Nat :=
  match code with
  | 0 | 1 | 9 | 10 => 1
  | 2 | 3 | 7 | 8 => 2
  | _ => 4

/-- Round `± num / den × 2 ^ e` to an int; the flag says whether it was exact. -/
def roundToInt (rm : Nat) (neg : Bool) (num den : Nat) (e : Int) : Int × Bool :=
  let (n0, r, d) := scaleRat num den e
  let n : Int := if roundsUp rm neg n0 r d then n0 + 1 else n0
  (if neg then -n else n, r = 0)

/-- The range of an integer format. -/
def intRange (w : Nat) (signed : Bool) : Int × Int :=
  if signed then (-(2 ^ (w - 1) : Nat), (2 ^ (w - 1) : Nat) - 1) else (0, (2 ^ w : Nat) - 1)

/-- Floating point to integer (R48). -/
def toIntFmt (w : Nat) (signed : Bool) (rm : Nat) (x : Num) : Int × Fl :=
  let (lo, hi) := intRange w signed
  match x with
  | .nan _ => (0, flInvalid)
  | .inf n => (if n then lo else hi, flInvalid)
  | .fin n m e =>
    let (v, exact) := if m = 0 then (0, true) else roundToInt rm n m 1 e
    if hi < v then (hi, flInvalid) else if v < lo then (lo, flInvalid) else (v, flIf (!exact) flInexact)

/-- Integer to integer (R48): the value itself, the nearer end under `sat`, the low bits under `prop`. -/
def intToInt (w : Nat) (signed : Bool) (sat : Bool) (v : Int) : Int × Fl :=
  let (lo, hi) := intRange w signed
  if lo ≤ v ∧ v ≤ hi then (v, 0)
  else if sat then (if v < lo then lo else hi, flSaturated)
  else (if signed then sintN w (wrapN w v) else (wrapN w v : Nat), 0)

/-- Convert an element of one format code to another (R45 to R48, R128): the target's bits. -/
def convert (src tgt : Nat) (rm : Nat) (sat : Bool) (x : Nat) : Nat × Fl :=
  match intFmt src, fltFmt src, intFmt tgt, fltFmt tgt with
  | some (w, sg), _, some (w', sg'), _ =>
    let v : Int := if sg then sintN w x else (x % 2 ^ w : Nat)
    let (r, fl) := intToInt w' sg' sat v
    (wrapN w' r, fl)
  | some (w, sg), _, _, some f' =>
    let v : Int := if sg then sintN w x else (x % 2 ^ w : Nat)
    roundNum f' rm sat (Num.ofInt v)
  | _, some f, some (w', sg'), _ =>
    let (r, fl) := toIntFmt w' sg' rm (f.decode x)
    (wrapN w' r, fl)
  | _, some f, _, some f' =>
    let v := f.decode x
    if src = tgt then
      (if v.isNan then (f.nan, flIf v.signalling flInvalid) else (x % (2 * f.signBit), 0))
    else roundNum f' rm sat v
  | _, _, _, _ => (0, 0)

/-- The exact value of an element of a format code 0x0 to 0xA (R38, R41). -/
def elemValue (code x : Nat) : Num :=
  match intFmt code, fltFmt code with
  | some (w, sg), _ => Num.ofInt (if sg then sintN w x else (x % 2 ^ w : Nat))
  | _, some f => f.decode x
  | _, _ => .nan false

/-! ### N4X and espalier (R50 to R54) -/

/-- The 64 slots of an N4X block of 32 bytes (R50). -/
def n4xSlots (bytes : List Byte) : List Nat :=
  (List.range 64).map fun i => let b := (byteAt bytes (i / 2)).toNat
    if i % 2 = 0 then b % 16 else b / 16

/-- The values of slots from slot `i` on, with fuel; none for a format error (R51). -/
def n4xFrom (slots : List Nat) (scale : Num) : Nat → Nat → Option (List Num)
  | 0, _ => some []
  | fuel + 1, i =>
    if 64 ≤ i then some []
    else if slots.getD i 0 = 8 then
      if 62 ≤ i then none
      else
        let zero := Num.mul (.fin false 0 0) scale
        let v := Num.mul (f8e4.decode (slots.getD (i + 1) 0 * 16 + slots.getD (i + 2) 0)) scale
        (n4xFrom slots scale fuel (i + 3)).map fun t => v :: zero :: zero :: t
    else
      (n4xFrom slots scale fuel (i + 1)).map fun t =>
        Num.mul (Num.ofInt (sintN 4 (slots.getD i 0))) scale :: t

/-- The 64 values of an N4X block with its scale; none for a format error (R51). -/
def n4xValues (bytes : List Byte) (scale : Nat) : Option (List Num) :=
  n4xFrom (n4xSlots bytes) (bf16.decode scale) 64 0

/-- Format slot fields (R57 Table 7). -/
def fsFmt (f : BitVec 128) : Nat := bits f.toNat 3 0
def fsRm (f : BitVec 128) : Nat := bits f.toNat 5 4
def fsSat (f : BitVec 128) : Bool := bit f.toNat 6
def fsShift (f : BitVec 128) : Nat := bits f.toNat 9 8
def fsWin (f : BitVec 128) : Nat := if bit f.toNat 10 then 16 else 12
def fsM (f : BitVec 128) : Nat := bits f.toNat 63 32
def fsA (f : BitVec 128) : Nat := bits f.toNat 95 64

/-- Bits of an espalier block (R52 Table 5). -/
def espBits (shift : Nat) : Nat := match shift with | 0 => 256 | 1 => 384 | _ => 448

/-- The window offset of weight j: the sum of the shifts before it (R52). -/
def espOffset (shift j : Nat) : Nat :=
  match shift with
  | 0 => j
  | 1 => j + j / 2
  | _ => 2 * j - j / 4

/-- 32 × u[j] for a window value (R53). -/
def espSum (f : BitVec 128) (w : Nat) : Int :=
  let h := (w * fsM f + fsA f) % 2 ^ 32
  sintN 8 h + sintN 8 (h / 2 ^ 8) + sintN 8 (h / 2 ^ 16) + sintN 8 (h / 2 ^ 24)

/-- The window of weight j in a stream of N bits, wrapping to its start (R53). -/
def espWindow (f : BitVec 128) (stream j : Nat) : Nat :=
  let n := espBits (fsShift f)
  let o := espOffset (fsShift f) j % n
  (stream % 2 ^ n * (1 + 2 ^ n)) / 2 ^ o % 2 ^ fsWin f

/-- The exact weight wt[j] with its group scale (R53, R54). -/
def espWeight (f : BitVec 128) (stream j scale : Nat) : Num :=
  let s := espSum f (espWindow f stream j)
  Num.mul (.fin (decide (s < 0)) s.natAbs (-5)) (bf16.decode scale)

end Sys2Proof.Machine
end

