-- ==== Sys2Proof/Machine/CopyEngine.lean ====
section
/-! DEFINITION. `cpy`, `tld`, `tst` and `mcast` (R181 to R187, R202 to R208, R266 to R268) and their units. -/

namespace Sys2Proof.Machine

/-! ### `cpy` (R181, R182, R202 to R205) -/

/-- The local place of a lane of a `cpy` route (R181, R202): the store and the byte in it. -/
def Path.copyLocal (p : Path) (route v : Nat) : Space × Nat :=
  match route with
  | 0 | 1 => (p.scratch, v)
  | 2 => (.weight p.die p.pos p.grid.id, v)
  | _ => (.slot p.die p.pos p.grid.id (bits v 19 16), bits v 15 0)

/-- The byte runs of a lane copy without the bytes that a higher lane writes (R182): `hidden i` says that
byte i of its destination is another lane's. -/
def copySegs (src dst : Nat → Place) (size : Nat) (hidden : Nat → Bool) : List Seg :=
  if (List.range size).any hidden then
    (List.range size).map fun i => ⟨some (src i), if hidden i then none else some (dst i), 1⟩
  else [⟨some (src 0), some (dst 0), size⟩]

/-- `cpy` (R202, R203): checks at issue; each active lane's copy is one unit, which forks from its own thread (R291). -/
def execCpy (la : BitVec 4) (a b : BitVec 7) (n : BitVec 1) (r z : BitVec 2) (s : State) :
    Host.Outcome State Fault Refusal :=
  perPath (.cpy la a b n r z) s fun p t =>
    let size := 4 * 2 ^ z.toNat
    let route := r.toNat
    let glob := fun k => ((p.th k).pair a.toNat).toNat
    let loc := fun k => ((p.th k).reg b.toNat).toNat
    let bar := (p.reg0 (b.toNat + 1)).toNat
    let kn := p.kernel
    let charged := n = 0#1
    let odd := lowLane (p.failing fun k => glob k % size ≠ 0 || loc k % size ≠ 0)
    let oddG := glob odd % size ≠ 0
    match firstFault
      [p.laneCheck 5 1 (if oddG then 0 else if route ≤ 1 then 1 else 5) (if oddG then route = 1 else route = 0)
         (fun k => if oddG then glob k else if route ≤ 1 then loc k else 0)
         (fun k => glob k % size ≠ 0 || loc k % size ≠ 0),
       p.laneCheck 5 2 0 (route = 1) glob (fun k => decide (2 ^ 52 ≤ glob k)),
       p.laneCheck 5 3 1 (route = 0) loc (fun k => route ≤ 1 && decide (p.scratchBytes < loc k + size)),
       p.laneCheck 9 17 5 false (fun _ => 0) (fun k => route = 2 && decide (kn.wst * 4096 < loc k + size)),
       p.laneCheck 9 18 5 false (fun _ => 0) (fun k => route = 3 && decide (kn.slots ≤ bits (loc k) 19 16)),
       p.laneCheck 9 18 5 false (fun _ => 0) (fun k => route = 3 &&
         (bits (loc k) 31 20 ≠ 0 || decide (4096 * p.core.halves < bits (loc k) 15 0 + size))),
       p.laneCheck 9 25 5 false (fun _ => 0) (fun k => route = 3 &&
         kn.owner.lookup (bits (loc k) 19 16) ≠ some p.w.uid),
       p.pathCheck (charged && bar % 16 ≠ 0) 5 1 1 true bar,
       p.pathCheck (charged && decide (p.scratchBytes < bar + 16)) 5 3 1 true bar] with
    | some f => .fault f
    | none =>
      let lp := fun k => p.copyLocal route (loc k)
      let secs := fun k => (Place.at (lp k).1 (lp k).2).secs size
      let hidden := fun k i => (laneList p.act).any fun j => decide (k < j) &&
        (if route = 1 then decide (glob j ≤ glob k + i) && decide (glob k + i < glob j + size)
         else (lp j).1 = (lp k).1 && decide ((lp j).2 ≤ (lp k).2 + i) && decide ((lp k).2 + i < (lp j).2 + size))
      let g := fun k i => Place.virt p.grid.asid (glob k + i)
      let l := fun k i => Place.at (lp k).1 ((lp k).2 + i)
      let units := (laneList p.act).map fun k =>
        { tag := k, recv := 0,
          segs := if route = 1 then copySegs (l k) (g k) size (hidden k) else copySegs (g k) (l k) size (hidden k),
          secs := secs k, page := none, seq := none, err := none, after := p.forkAfter s (maskOf [k]) : Unit }
      .done (addOp t { p.newOp t (.units units) p.act p.l0 with
        bar := if charged then some bar else none,
        secs := if charged then distinct ((laneList p.act).flatMap secs) else [] })

/-- COPY_UNIT_PERFORMED (R204): the lane copy of an operation. -/
def execCopyUnitPerformed (op lane : Nat) (s : State) : Host.Outcome State Fault Refusal :=
  match unitAt s op lane 0 with
  | some (o, u) => .next (match o.kind with
    | .units _ => if unitHeld s o u then s else performUnit s o u lane
    | _ => s)
  | none => .next s

/-! ### Tensor copies (R184 to R187, R206 to R208) -/

/-- A malformed layout record (R184, R207). -/
def layoutBad (r : Nat) : Bool :=
  let fmt := bits r 3 0
  let rank := bits r 5 4 + 1
  let window := bit r 6
  let box := fun i => bits r (8 * i + 23) (8 * i + 16)
  bits r 511 232 ≠ 0 || bits r 15 7 ≠ 0 || 10 < fmt || (window && rank ≠ 4) ||
  (!window && (bits r 231 160 ≠ 0)) ||
  (bits r 79 40 % elemBytes fmt ≠ 0 || bits r 119 80 % elemBytes fmt ≠ 0 || bits r 159 120 % elemBytes fmt ≠ 0) ||
  (!window && (List.range 3).any fun i => decide (rank ≤ i) && box i ≠ 0)

/-- The operands of a tensor copy as read at issue (R206). -/
structure Tile where
  rec_ : Nat
  base : Nat
  ext : List Nat
  c0 : Int
  c1 : Int
  c2 : Int
  c3 : Int
  deriving DecidableEq, Repr

def Tile.e (t : Tile) : Nat := elemBytes (bits t.rec_ 3 0)
def Tile.rank (t : Tile) : Nat := bits t.rec_ 5 4 + 1
def Tile.window (t : Tile) : Bool := bit t.rec_ 6
def Tile.box (t : Tile) (i : Nat) : Nat := bits t.rec_ (8 * i + 23) (8 * i + 16) + 1

/-- Elements of the tile (R187, R207). -/
def Tile.count (t : Tile) : Nat :=
  if t.window then (bits t.rec_ 167 160 + 1) * t.box 0 else t.box 0 * t.box 1 * t.box 2

/-- The tensor coordinates of element x of the tile (R187, R207). DESIGN CHOICE (log 94): with ow or oh 0, which R184's list
of defects does not name, a quotient by zero is 0 and a remainder the dividend. -/
def Tile.coord (t : Tile) (x : Nat) : List Int :=
  let j0 := x % t.box 0
  let row := x / t.box 0
  if t.window then
    let r := t.rec_
    let ow : Int := bits r 215 200
    let oh : Int := bits r 231 216
    let q : Int := t.c1 + row
    let n := q.tdiv (ow * oh)
    let oy := (q.tmod (ow * oh)).tdiv ow
    let ox := q.tmod ow
    [t.c0 + j0, ox * (bits r 195 192 + 1) + t.c2 * (bits r 187 184 + 1) - bits r 175 168,
     oy * (bits r 199 196 + 1) + t.c3 * (bits r 191 188 + 1) - bits r 183 176, n]
  else
    let v := [t.c0 + j0, t.c1 + (row % t.box 1 : Nat), t.c2 + (row / t.box 1 : Nat), t.c3]
    v.mapIdx fun i c => if t.rank ≤ i then 0 else c

/-- The virtual address of an element in range (R186). -/
def Tile.addr (t : Tile) (x : Nat) : Option Nat :=
  let c := t.coord x
  let inR := (List.range 4).all fun i =>
    decide (0 ≤ c.getD i 0) && decide (c.getD i 0 < (if t.rank ≤ i then 1 else (t.ext.getD i 0 : Nat)))
  if inR then
    some (t.base + (c.getD 0 0).toNat * t.e + (c.getD 1 0).toNat * bits t.rec_ 79 40 +
      (c.getD 2 0).toNat * bits t.rec_ 119 80 + (c.getD 3 0).toNat * bits t.rec_ 159 120)
  else none

/-- Merge the elements of a part into byte runs: a run continues while the addresses do, within one page (R186). -/
def mergeRuns (e : Nat) : List (Option Nat) → List (Option Nat × Nat)
  | [] => []
  | x :: t =>
    match mergeRuns e t with
    | (y, n) :: r =>
      let joins := match x, y with
        | some a, some b => decide (b = a + e) && decide (a / 65536 = b / 65536)
        | none, none => true
        | _, _ => false
      if joins then (x, n + e) :: r else (x, e) :: (y, n) :: r
    | [] => [(x, e)]

/-- The runs of a part laid over its local bytes. -/
def layRuns (load : Bool) (asid : Nat) (loc : Nat → Place) : Nat → List (Option Nat × Nat) → List Seg
  | _, [] => []
  | o, (x, n) :: t =>
    (if load then ⟨x.map fun va => .virt asid va, some (loc o), n⟩
     else ⟨some (loc o), x.map fun va => .virt asid va, n⟩) :: layRuns load asid loc (o + n) t

/-- The 128-byte parts of a tile (R186, R291), numbered from its start; receiver 1 tells them from lane copies. -/
def Tile.units (t : Tile) (load : Bool) (asid : Nat) (sp : Space) (a : Nat) : List Unit :=
  let per := 128 / t.e
  (List.range (ceilDiv t.count per)).map fun k =>
    let xs := rangeFrom (k * per) (min t.count ((k + 1) * per))
    { tag := k, recv := 1,
      segs := layRuns load asid (fun o => .at sp (a + k * 128 + o)) 0 (mergeRuns t.e (xs.map t.addr)),
      secs := (Place.at sp (a + k * 128)).secs (xs.length * t.e), page := none, seq := none, err := none }

/-- A tensor copy (R206 to R208). -/
def tensorCopy (i : Instr) (load : Bool) (a b : BitVec 7) (x : BitVec 3) (s : State) :
    Host.Outcome State Fault Refusal :=
  perPath i s fun p t =>
    let va := (p.pair0 a.toNat).toNat
    let chk : Except Denial Target :=
      if va % 64 ≠ 0 then .error ⟨5, 1, false, false⟩ else checkVirtual s p.grid.asid va false false
    match chk with
    | .error d => .fault (Flt.met { Flt.plain d.cls d.code p.act with
        space := 0, addr := va, pages := if d.cls = 7 then [(va / 65536, d.code)] else [] } d.met)
    | .ok g =>
      let rec_ := ofBytes (agentBytes s .phys g.addr 64 g.kd)
      let lx := (p.w.old.lx.getD x.toNat 0).toNat
      let d := (p.reg0 b.toNat).toNat
      let bar := (p.reg0 (b.toNat + 1)).toNat
      let tile : Tile :=
        { rec_ := rec_, base := bits lx 51 0,
          ext := (List.range 4).map fun j => bits lx (32 * j + 95) (32 * j + 64),
          c0 := (p.reg0 (b.toNat + 2)).toInt, c1 := (p.reg0 (b.toNat + 3)).toInt,
          c2 := (p.reg0 (a.toNat + 2)).toInt, c3 := (p.reg0 (a.toNat + 3)).toInt }
      let tgt := bits d 31 30
      let ad := if tgt = 1 then bits d 15 0 else bits d 29 0
      let slot := bits d 19 16
      let sz := tile.count * tile.e
      let kn := p.kernel
      let sp : Space := match tgt with
        | 0 => p.scratch
        | 1 => .slot p.die p.pos p.grid.id slot
        | _ => .weight p.die p.pos p.grid.id
      match faultThen (p.recordFault s va g)
        ([p.pathCheck (layoutBad rec_) 9 19 5 false 0,
          p.pathCheck (tile.base % tile.e ≠ 0) 5 1 0 (!load) tile.base,
          p.pathCheck (ad % tile.e ≠ 0) 5 1 (if tgt = 0 then 1 else 5) load (if tgt = 0 then ad else 0),
          p.pathCheck (tgt = 0 && decide (p.scratchBytes < ad + sz)) 5 3 1 load ad,
          p.pathCheck (tgt = 2 && decide (kn.wst * 4096 < ad + sz)) 9 17 5 false 0,
          p.pathCheck (tgt = 1 && (decide (kn.slots ≤ slot) || decide (4096 * p.core.halves < ad + sz))) 9 18 5 false 0,
          p.pathCheck (tgt = 1 && kn.owner.lookup slot ≠ some p.w.uid) 9 25 5 false 0,
          p.pathCheck (tgt = 3 || (tgt = 1 && bits d 29 20 ≠ 0) || (!load && tgt ≠ 0)) 9 26 5 false 0] ++
         p.tbFaults s bar true) with
      | some f => .fault f
      | none =>
        .done (addOp (p.noteRecord t va g) { p.newOp t (.units (tile.units load p.grid.asid sp ad)) p.act p.l0 with
          after := p.forkAfter s p.act, bar := some bar, secs := (Place.at sp ad).secs sz })

/-- `tld` (R206 to R208). -/
def execTld (la : BitVec 4) (a b : BitVec 7) (x : BitVec 3) (s : State) : Host.Outcome State Fault Refusal :=
  tensorCopy (.tld la a b x) true a b x s

/-- `tst` (R206 to R208). -/
def execTst (la : BitVec 4) (a b : BitVec 7) (x : BitVec 3) (s : State) : Host.Outcome State Fault Refusal :=
  tensorCopy (.tst la a b x) false a b x s

/-- TENSOR_COPY_PART (R208): a 128-byte part of a tensor copy. -/
def execTensorCopyPart (op part : Nat) (s : State) : Host.Outcome State Fault Refusal :=
  match unitAt s op part 1 with
  | some (o, u) => .next (match o.kind with
    | .units _ => if unitHeld s o u then s else performUnit s o u o.l0
    | _ => s)
  | none => .next s

/-! ### `mcast` (R266 to R268) -/

/-- Two byte ranges overlap. -/
def overlaps (a n b m : Nat) : Bool := decide (a < b + m) && decide (b < a + n)

/-- `mcast` (R267, R268): one unit per receiver and 16-byte chunk, with the receiver's recorded generation (R265). -/
def execMcast (la : BitVec 4) (a b : BitVec 7) (s : State) : Host.Outcome State Fault Refusal :=
  perPath (.mcast la a b) s fun p t =>
    let r := fun i => (p.reg0 (a.toNat + i)).toNat
    let src := r 0
    let dst := r 1
    let m := r 2
    let bar := r 3
    let w := (p.reg0 b.toNat).toNat
    let mask := bits w 23 0
    let sz := p.scratchBytes
    let n := p.grid.hoodSize
    match p.hood p.l0 with
    | none => .done t
    | some h =>
      let own := (p.th p.l0).blk % n
      let ks := (List.range 24).filter fun k => bit mask k
      let gone := ks.any fun k => match h.blocks[k]? with
        | some x => x.st = .retired
        | none => true
      match firstFault
        [p.pathCheck (mask = 0 || ks.any (fun k => decide (n ≤ k)) || bits w 31 24 ≠ 0 ||
           p.reg0 (b.toNat + 1) ≠ 0#32 || m = 0 || decide (65536 < m)) 9 36 5 false 0,
         p.pathCheck ((ks.contains own && overlaps dst m src m) || overlaps dst m bar 16) 9 36 5 false 0,
         p.pathCheck (src % 16 ≠ 0) 5 1 1 false src,
         p.pathCheck (dst % 16 ≠ 0 || m % 16 ≠ 0) 5 1 2 true dst,
         p.pathCheck (bar % 16 ≠ 0) 5 1 2 true bar,
         p.pathCheck (decide (sz < src + m)) 5 3 1 false src,
         p.pathCheck (decide (sz < dst + m)) 5 4 2 true dst,
         p.pathCheck (decide (sz < bar + 16)) 5 4 2 true bar,
         p.pathCheck gone 5 5 2 true dst] with
      | some f => .fault f
      | none =>
        let units := ks.flatMap fun k => match h.blocks[k]? with
          | some x => (List.range (m / 16)).map fun c =>
              { tag := c, recv := k,
                segs := [⟨some (.at p.scratch (src + 16 * c)), some (.at (.scratch x.die x.pos) (dst + 16 * c)), 16⟩],
                secs := [(dst + 16 * c) / 32], page := none, seq := none, err := none,
                gen := some (x.die, x.pos, h.gens.getD k 0) : Unit }
          | none => []
        .done (addOp t { p.newOp t (.mcast units) p.act p.l0 with after := p.forkAfter s p.act, bar := some bar })

/-- A chunk is written at its receiver, and a sector whose chunks are all written lands at the receiver's
barrier (R268); a chunk whose generation is gone is discarded and counted (R265). -/
def performChunk (s : State) (o : Op) (u : Unit) : State :=
  let left := o.unitsLeft.filter fun x => ¬(x.tag = u.tag ∧ x.recv = u.recv)
  let rest := fun (st : State) =>
    if left = [] then endOp st o.id else modOp st o.id fun x => { x with kind := .mcast left }
  match u.gen, u.segs with
  | some (d, q, gen), g :: _ =>
    if (coreAt s d q).gen ≠ gen then countDrop (rest s) d q
    else match g.src, g.dst with
      | some (.at sp a), some (.at dp b) =>
        let sp := o.place s sp
        match readError s sp a 16 0 o.asid with
        | some (code, s') => memoryError s' o code 1 false (BitVec.ofNat 32 (2 ^ o.l0)) a
        | none =>
          let s := watchSpace s (o.src 4) true false sp o.asid a a 16
          let s := performWrite s dp b 0 ((readBytes s sp a 16).map some) false o.uid o.cov [(o.grid, o.blk)]
          let s := rest (watchScratch s (o.src 3) false true d q b 16)
          let bar := o.bar.getD 0
          if left.any fun x => x.recv = u.recv ∧ x.secs = u.secs then s
          else
            let s := if tbReserved (tbRead s d q bar) then tbFault s (o.src 5) d q bar 9 20 else s
            tbLand s (o.src 5) d q bar
      | _, _ => s
  | _, _ => rest s

/-- MCAST_CHUNK (R268). -/
def execMcastChunk (op recv chunk : Nat) (s : State) : Host.Outcome State Fault Refusal :=
  match unitAt s op chunk recv with
  | some (o, u) => .next (match o.kind with
    | .mcast _ => performChunk s o u
    | _ => s)
  | none => .next s

end Sys2Proof.Machine
end

