-- ==== Sys2Proof/Machine/Matrix.lean ====
section
/-! DEFINITION. The matrix array: gangs, `mma`, accumulator checkpoints and reads (R55, R220 to R234, R253). -/

namespace Sys2Proof.Machine

/-! ### The gang register (R221, R222) -/

/-- An invalid gang value for a warp (R222). -/
def gangBad (p : Path) (v : Nat) : Bool :=
  let n := ((List.range 64).filter fun i => bit v i).length
  v ≠ 0 && (n < 2 || decide (6 < n) || decide (2 ^ p.grid.warpsPerBlock ≤ v) ||
    (match p.w.widx with | some i => !(bit v i) | none => true))

/-- `gkset` (R222): it waits in `waits` for the warp's matrix operations; a change breaks the rendezvous of
members that wait (R226). -/
def execGkset (a : BitVec 7) (s : State) : Host.Outcome State Fault Refusal :=
  perPath (.gkset a) s fun p t =>
    let v := p.pair0 a.toNat
    match firstFault [p.pathCheck (gangBad p v.toNat) 9 32 5 false 0] with
    | some f => .fault f
    | none =>
      let t := p.share t fun h => { h with gk := v }
      .done (if v = p.w.sh.gk then t else gangBroken t p.die p.pos p.w)

/-- `gkrd` (R222). -/
def execGkrd (d : BitVec 7) (s : State) : Host.Outcome State Fault Refusal :=
  issue (.gkrd d) s fun p t =>
    .done (p.setThreads t p.act fun _ th => th.setPair d.toNat p.w.old.gk)

/-- The gang of a warp: its gang value and block, or the warp alone (R192, R226). -/
def Warp.gang (w : Warp) : Nat × Nat :=
  if w.sh.gk = 0#64 then (0, w.uid) else (w.sh.gk.toNat, w.grid * 2 ^ 64 + (w.lane 0).blk)

/-! ### The descriptor (R223 Table 1, R224, R225) -/

def mmaA (d : BitVec 64) : Nat := bits d.toNat 3 0
def mmaB (d : BitVec 64) : Nat := bits d.toNat 7 4
def mmaBq (d : BitVec 64) : Bool := bit d.toNat 8
def mmaRows (d : BitVec 64) : Nat := 16 * 2 ^ bits d.toNat 10 9
def mmaCols (d : BitVec 64) (halves : Nat) : Nat := 16 * 2 ^ bits d.toNat 12 11 * (halves / 2)
def mmaBfs (d : BitVec 64) : Nat := bits d.toNat 15 13
def mmaClr (d : BitVec 64) : Bool := bit d.toNat 16
def mmaK (d : BitVec 64) : Nat := bits d.toNat 47 32
def mmaT0 (d : BitVec 64) : Nat := bits d.toNat 55 48

/-- The row of R224 Table 2 that accepts the pair, 0 for none. -/
def mmaPair (a b : Nat) (bq : Bool) : Nat :=
  let f8 := fun x => x = 9 || x = 10
  if bq then (if 7 ≤ a && decide (a ≤ 10) && (b = 11 || b = 12) then 6 else 0)
  else if (a = 7 && b = 7) || (a = 8 && b = 8) then 1
  else if f8 a && f8 b then 2
  else if (a = 11 && (b = 11 || f8 b)) || (f8 a && b = 11) then 3
  else if a = 6 && b = 6 then 4
  else if a ≤ 1 && b ≤ 1 then 5
  else 0

/-- Bytes of an operand of `n` elements (R225). -/
def footprint (fmt n : Nat) : Nat := if fmt = 11 then n / 2 + n / 64 * 2 else n * elemBytes fmt

/-- The checks of `mma` at issue after the path check, in their order (R225). -/
def mmaChecks (p : Path) (fn : Nat) (fa fb : BitVec 128) (d : BitVec 64) (acc : Nat) : List (Bool × Flt) :=
  let x := d.toNat
  let k := mmaK d
  let h := p.core.halves
  let m := mmaRows d
  let n := mmaCols d h
  let bq := mmaBq d
  let row := mmaPair (fsFmt fa) (fsFmt fb) bq
  let kn := p.kernel
  [p.pathCheck (bits x 63 56 ≠ 0 || bits x 31 17 ≠ 0 || bits x 12 11 = 3 || bits x 10 9 = 3 ||
      decide (k < 16) || decide (4096 < k) || k % 16 ≠ 0 || decide (k / 16 ≤ mmaT0 d) ||
      (bq && mmaB d ≠ 0) || (fsFmt fa = 11 && k % 64 ≠ 0) || (!bq && fsFmt fb = 11 && n % 64 ≠ 0) ||
      (bq && n ≠ 64 * (h / 2))) 9 29 5 false 0,
   p.pathCheck (row = 0 || (fn ≠ 0 && row ≠ 1 && row ≠ 4 && row ≠ 5)) 9 28 5 false 0,
   p.pathCheck (decide (kn.slots ≤ mmaA d) || (!bq && decide (kn.slots ≤ mmaB d))) 9 18 5 false 0,
   p.pathCheck (decide (4096 * h < footprint (fsFmt fa) (m * k)) ||
      (!bq && decide (4096 * h < footprint (fsFmt fb) (k * n)))) 9 30 5 false 0,
   p.pathCheck (acc % 64 ≠ 0) 5 1 5 false 0,
   p.pathCheck (decide (kn.acc * 4096 < acc + 4 * m * n)) 9 17 5 false 0]

/-! ### Values of a k-step (R55, R228, R229) -/

/-- An element of an operand: row r, column c of rows of `len` elements, `total` elements in all; whether
its N4X block is a format error (R225, R229). -/
def operandElem (s : State) (sp : Space) (fmt total len r c : Nat) : Num × Bool :=
  if fmt = 11 then
    let b := r * (len / 64) + c / 64
    match n4xValues (readBytes s sp (32 * b) 32) (readN s sp (total / 2 + 2 * b) 2) with
    | some l => (l.getD (c % 64) (.nan false), false)
    | none => (.nan false, true)
  else
    let e := elemBytes fmt
    (elemValue fmt (readN s sp ((r * len + c) * e) e), false)

/-- The byte ranges that an element is drawn from. -/
def operandBytes (fmt total len r c : Nat) : List (Nat × Nat) :=
  if fmt = 11 then
    let b := r * (len / 64) + c / 64
    [(32 * b, 32), (total / 2 + 2 * b, 2)]
  else [((r * len + c) * elemBytes fmt, elemBytes fmt)]

/-- The identity of a semiring (R228 Table 3): its 32-bit word. -/
def semiringIdentity (fn : Nat) (int : Bool) : Nat :=
  match fn, int with
  | 1, true => 2 ^ 31 - 1
  | 1, false => fp32.infCode
  | 2, true => 2 ^ 31
  | 3, true => 2 ^ 31
  | 2, false => fp32.signed true fp32.infCode
  | 3, false => fp32.signed true fp32.infCode
  | _, _ => 0

/-- The lesser of two values that are no NaN, −0 below +0 (R228). -/
def Num.least (a b : Num) : Num :=
  let c := Num.cmp a b
  if c < 0 || (c = 0 && a.negSign) then a else b

/-- The greater of two values that are no NaN, −0 below +0. -/
def Num.greatest (a b : Num) : Num :=
  let c := Num.cmp a b
  if 0 < c || (c = 0 && !a.negSign) then a else b

/-- An FP32 element after a k-step over its 16 pairs of factors (R55, R228). DESIGN CHOICE (log 90): beside a quiet NaN
term, infinities of opposite sign set no invalid flag; R55 states the result and not the flag. -/
def stepFp (fn : Nat) (x : Num) (ab : List (Num × Num)) : Nat × Fl :=
  if fn = 4 then
    let one := !x.isZero || ab.any fun q => !q.1.isZero && !q.2.isZero
    (if one then 0x3F800000 else 0, flIf (ab.any fun q => q.1.isNan || q.2.isNan) flInvalid)
  else
    let sum := fn = 1 || fn = 2
    let terms := ab.map fun q => if sum then Num.add false q.1 q.2 else Num.mul q.1 q.2
    let born := (ab.zip terms).any fun q => !q.1.1.isNan && !q.1.2.isNan && q.2.isNan
    let sig := x.signalling || ab.any fun q => q.1.signalling || q.2.signalling
    let nan := x.isNan || terms.any Num.isNan
    let r := if nan then .nan false
      else if fn = 0 then terms.foldl (Num.add false) x
      else if fn = 1 then terms.foldl Num.least x
      else terms.foldl Num.greatest x
    finishArith fp32 0 (sig || born || (!nan && r.isNan)) r

/-- The int of a finite whole value. -/
def Num.toInt : Num → Int
  | .fin n m e => if n then -((m * 2 ^ e.toNat : Nat) : Int) else (m * 2 ^ e.toNat : Nat)
  | _ => 0

/-- An INT32 element after a k-step (R55, R228). -/
def stepInt (fn : Nat) (x : Int) (ab : List (Num × Num)) : Nat :=
  let f := ab.map fun q => (q.1.toInt, q.2.toInt)
  wrapN 32 (match fn with
    | 0 => f.foldl (fun r q => r + q.1 * q.2) x
    | 1 => f.foldl (fun r q => min r (q.1 + q.2)) x
    | 2 => f.foldl (fun r q => max r (q.1 + q.2)) x
    | 3 => f.foldl (fun r q => max r (q.1 * q.2)) x
    | _ => if x ≠ 0 || f.any (fun q => q.1 ≠ 0 && q.2 ≠ 0) then 1 else 0)

/-- The accumulator of the operation is INT32 (R224). -/
def Mma.int (m : Mma) : Bool := fsFmt m.fmtA ≤ 1

/-! ### The array's turn (R227, R192) -/

/-- The matrix operation of an operation. -/
def Op.mma? (o : Op) : Option Mma :=
  match o.kind with
  | .mma m => some m
  | _ => none

/-- The operations of a core's array in the order in which they became ready (R227). -/
def arrayOps (s : State) (die pos : Nat) : List (Op × Mma) :=
  sortBy (fun x y => decide (x.1.cyc < y.1.cyc) || (x.1.cyc = y.1.cyc && decide (x.1.slot < y.1.slot)))
    ((s.ops.filter fun o => o.die = die && o.pos = pos).filterMap fun o => o.mma?.map fun m => (o, m))

/-- The gang that the elastic queue serves (R192): the last whose rows entered, until the queue is empty and no
operation of that gang that draws from it is outstanding. -/
def queueGang (s : State) (die pos : Nat) : Option (Nat × Nat) :=
  let c := coreAt s die pos
  c.qgang.filter fun g => c.queue ≠ [] || (arrayOps s die pos).any fun x => mmaBq x.2.desc && x.2.gang = g

/-- The operand slots that an operation names (R223). -/
def Mma.slots (m : Mma) : List Nat := if mmaBq m.desc then [mmaA m.desc] else [mmaA m.desc, mmaB m.desc]

/-- The operation may not begin a k-step: a save holds it (R245), the queue serves another gang (R192), an access
before its fork is not performed (R291), an operation that named a slot of it before the slot's release is not complete
(R212), or a slot of a resumed member is not granted yet (R248). -/
def mmaHeld (s : State) (o : Op) (m : Mma) : Bool :=
  m.hold || (mmaBq m.desc && (queueGang s o.die o.pos).any fun g => g ≠ m.gang) || !(afterDone s o.after) ||
    m.slots.any fun k => slotBusy s o k || m.members.any fun u =>
      (warpOfUid s u.1).any fun x => x.2.restoring.contains k

/-- The operation whose turn it is on the array: the first that nothing holds back, behind no earlier one of the same
warps (R227). -/
def arrayHead (s : State) (die pos : Nat) : Option (Op × Mma) :=
  let l := arrayOps s die pos
  match l.find? fun x => x.2.began with
  | some x => some x
  | none =>
    l.findSome? fun x =>
      if mmaHeld s x.1 x.2 || l.any (fun y => decide (y.1.id < x.1.id) && y.2.members.any fun u => (x.2.members.lookup u.1).isSome)
      then none else some x

/-- Write words of the accumulator store from an address, with the tag of their sectors (R230, R234). -/
def writeAcc (s : State) (o : Op) (m : Mma) (ws : List Nat) : State :=
  let sp := o.accs
  let s := engineWrite s o sp m.acc m.acc 0 false (ws.flatMap fun w => toBytes 4 w)
  let secs := sectorsOf m.acc (4 * ws.length)
  let l := localOf s sp
  let rest := l.tags.filter fun k => !(secs.contains k)
  setLocal s { l with tags := if m.int then secs ++ rest else rest }

/-- The k-step in progress begins when the array is free and its operands are there (R227, R228). -/
def arrayTurn (s : State) (die pos : Nat) : State :=
  match arrayHead s die pos with
  | none => s
  | some (o, m) =>
    let rows := ((coreAt s die pos).queue.filter fun r => r.gang = m.gang).length
    if m.began || (mmaBq m.desc && decide (rows < 16)) then s
    else modOp s o.id fun o => { o with kind := .mma { m with began := true, readyAt := (dieOf s die).cycles } }

/-- Every array takes its turn: what a step has ended may have freed one, and its k-step is ready from then on (R227,
R253). -/
def arraysTurn (s : State) : State :=
  if s.ops.any fun o => o.mma?.isSome then s.cores.foldl (fun st c => arrayTurn st c.die c.pos) s else s

/-- What `mmack` reads of an operation (R231). -/
def mmaWord (m : Mma) (ended : Bool) : Word :=
  BitVec.ofNat 32 (m.next + (if ended then 2 ^ 16 else 0) + (if ended && m.cut then 2 ^ 17 else 0) +
    (if ended && m.clr then 2 ^ 18 else 0))

/-- The operation ends (R230, R231): the members keep what `mmack` reads and receive its flags, and the
cuts that wait for it write their registers. -/
def endMma (s : State) (o : Op) (m : Mma) : State :=
  let w := mmaWord m true
  let s := endOp s o.id
  let s := m.members.foldl (fun st u =>
    addFlags (modWarpUid st u.1 fun x => if x.mmaOp = o.id then { x with mmaAck := w } else x) u.1 m.fl) s
  let cuts := s.ops.filterMap fun c => match c.kind with
    | .mmack lanes t => if t = o.id then some (c, lanes) else none
    | _ => none
  let s := cuts.foldl (fun st c =>
    endOp (c.2.foldl (fun st x => receive st c.1.uid c.1.id x.1 [(x.2, w)]) st) c.1.id) s
  arrayTurn s o.die o.pos

/-! ### `mma` (R223 to R227) -/

/-- Start a matrix operation for some warps with their coverage, after the accesses before its fork (R291). -/
def startMma (s : State) (p : Path) (fn fs : Nat) (d : BitVec 64) (acc : Nat) (gang : Nat × Nat)
    (members : List (Nat × BitVec 24)) (fork : List After) : State :=
  let slot := (members.filterMap fun u => (warpOfUid s u.1).map fun x => x.2.slot).foldl min p.slot
  let m : Mma :=
    { fn := fn, fmtA := p.grid.fslot fs, fmtB := p.grid.fslot (mmaBfs d), fs := fs, desc := d, acc := acc,
      gang := gang, members := members, next := mmaT0 d, clr := mmaClr d, cut := false, hold := false,
      readyAt := 0, began := false, early := [], tile := none, out := [], fl := 0 }
  let o := { p.newOp s (.mma m) p.act p.l0 with slot := slot, after := fork }
  let s := members.foldl (fun st u => modWarpUid st u.1 fun w => { w with mmaOp := o.id }) s
  arrayTurn (addOp s o) p.die p.pos

/-- The slots of the descriptor are owned by some of the warps (R226). -/
def slotsOwned (kn : Kernel) (d : BitVec 64) (uids : List Nat) : Bool :=
  let own := fun k => match kn.owner.lookup k with
    | some u => uids.contains u
    | none => false
  own (mmaA d) && (mmaBq d || own (mmaB d))

/-- Members of a gang value in a block on a core, by linear warp index. -/
def gangMembers (s : State) (p : Path) (gk : Nat) : List (Option Warp) :=
  let blk := (p.th p.l0).blk
  ((List.range 64).filter fun i => bit gk i).map fun i =>
    (coreAt s p.die p.pos).warps.find? fun w => w.grid = p.grid.id && w.widx = some i && (w.lane 0).blk = blk

/-- A member that waits at the latch passes its `mma` (R226), which now counts as issued (R28). -/
def passLatch (s : State) (die pos : Nat) (w : Warp) : State :=
  let s := match w.latch.bind fun l => latchPath s die pos w l with
    | some p => account s p
    | none => s
  let m := w.lanesWhere fun t => t.wait = .latch
  modWarp s die pos w.slot fun w =>
    { w with
      latch := none,
      th := mapLanes m (fun _ t => { t.advance w.stopReq with wait := .none }) w.th }.loopSettle m

/-- The gang's rendezvous after an arrival (R226): the members that are gone or differ fault, the last
arrival starts the operation. -/
def rendezvous (s : State) (p : Path) : State :=
  let gk := p.w.sh.gk
  let all := gangMembers s p gk.toNat
  let here := (all.filterMap id).filter fun w => w.latch.isSome && w.sh.gk = gk
  let fail := fun code => here.foldl (fun st w => latchFault st p.die p.pos w code) s
  if all.any (fun w => match w with | some w => !(w.th.any Thread.running) | none => true) then fail 33
  else if here.length < all.length then s
  else
    let ls := here.filterMap fun w => w.latch.map fun l => (w.uid, l)
    match ls with
    | [] => s
    | (_, l) :: _ =>
      if ls.any fun x => x.2.fn ≠ l.fn || x.2.fs ≠ l.fs || x.2.desc ≠ l.desc || x.2.acc ≠ l.acc then fail 33
      else if !(slotsOwned p.kernel l.desc (ls.map (·.1))) then fail 25
      else
        let s := here.foldl (fun st w => passLatch st p.die p.pos w) s
        startMma s p l.fn l.fs l.desc l.acc.toNat p.w.gang (ls.map fun x => (x.1, x.2.cov))
          (here.flatMap fun w => (w.latch.map fun l => w.forkAfter s l.lanes).getD [])

/-- The path waits at the rendezvous latch, before its `mma` (R226). -/
def Path.latchWait (p : Path) (t : State) (l : Latch) : State :=
  p.mod t fun w =>
    { w with
      latch := some l,
      th := mapLanes p.lanes (fun k _ => { p.th k with wait := .latch }) w.th }

/-- `mma` (R223 to R227): `f` is the A format slot (fs), `x` the semiring (fn). -/
def execMma (la : BitVec 4) (a b : BitVec 7) (f x : BitVec 3) (s : State) : Host.Outcome State Fault Refusal :=
  perPath (.mma la a b f x) s fun p t =>
    let d := p.pair0 a.toNat
    let acc := (p.reg0 b.toNat).toNat
    let fa := p.grid.fslot f.toNat
    let fb := p.grid.fslot (mmaBfs d)
    let solo := p.w.sh.gk = 0#64
    match firstFault
      ([p.pathCheck (p.lanes ≠ p.w.lanesWhere Thread.running) 9 31 5 false 0] ++
       mmaChecks p x.toNat fa fb d acc ++
       [p.pathCheck (solo && !(slotsOwned p.kernel d [p.w.uid])) 9 25 5 false 0]) with
    | some e => .fault e
    | none =>
      let cov := p.w.sh.fence + 1
      if solo then
        .done (startMma t p x.toNat f.toNat d acc p.w.gang [(p.w.uid, cov)] (p.forkAfter s p.act))
      else
        .again (rendezvous (p.latchWait s
          { fn := x.toNat, fs := f.toNat, desc := d, acc := BitVec.ofNat 32 acc, lanes := p.act, pc := p.pc,
            stamp := p.w.lastSel, cov := cov }) p)

/-! ### A k-step (R228 to R230) -/

/-- The 16 × columns B elements of k-step t by column, and whether a block of them is a format error. -/
def kstepB (s : State) (o : Op) (m : Mma) (n : Nat) : List (List Num) × Bool :=
  let t := m.next
  if mmaBq m.desc then
    let rows := (((coreAt s o.die o.pos).queue.filter fun r => r.gang = m.gang).take 16).map (·.vals)
    ((List.range n).map fun c => rows.map fun r => r.getD c (.nan false), false)
  else
    let sp := o.operand (mmaB m.desc)
    let f := fsFmt m.fmtB
    let e := (List.range n).map fun c => (rangeFrom (16 * t) (16 * t + 16)).map fun k =>
      operandElem s sp f (mmaK m.desc * n) n k c
    (e.map fun l => l.map (·.1), e.any fun l => l.any (·.2))

/-- Some sector that the k-step reads is poisoned (R347). -/
def kstepPoisoned (s : State) (o : Op) (m : Mma) (rows n : Nat) : Bool :=
  let hit := fun (sp : Space) (l : List (Nat × Nat)) =>
    s.poison.any fun x => x.1 = sp && l.any fun q => (sectorsOf q.1 q.2).contains x.2
  let t := m.next
  let ks := rangeFrom (16 * t) (16 * t + 16)
  let k := mmaK m.desc
  s.poison ≠ [] &&
    (hit (o.operand (mmaA m.desc))
        ((List.range rows).flatMap fun r => ks.flatMap fun c => operandBytes (fsFmt m.fmtA) (rows * k) k r c) ||
     (!(mmaBq m.desc) && hit (o.operand (mmaB m.desc))
        (ks.flatMap fun r => (List.range n).flatMap fun c => operandBytes (fsFmt m.fmtB) (k * n) n r c)) ||
     hit o.accs [(m.acc, 4 * rows * n)])

/-- The tile after a k-step, row-major, with the step's flags (R228, R230). -/
def kstep (s : State) (o : Op) (m : Mma) (rows n : Nat) : List Nat × Fl :=
  let (cols, badB) := kstepB s o m n
  let k := mmaK m.desc
  let acc := o.accs
  let out := (List.range rows).map fun r =>
    let ae := (rangeFrom (16 * m.next) (16 * m.next + 16)).map fun c =>
      operandElem s (o.operand (mmaA m.desc)) (fsFmt m.fmtA) (rows * k) k r c
    let av := ae.map (·.1)
    let bad := flIf (ae.any (·.2)) flInvalid
    cols.mapIdx fun c bv =>
      let x := readN s acc (m.acc + 4 * (r * n + c)) 4
      if m.int then (stepInt m.fn (sintN 32 x) (av.zip bv), bad)
      else let q := stepFp m.fn (fp32.decode x) (av.zip bv)
           (q.1, q.2 ||| bad)
  let flat := out.flatMap id
  (flat.map (·.1), if m.int then 0 else orFlags (flat.map (·.2)) ||| flIf badB flInvalid)

/-- Rows consumed by a k-step leave the queue; a producer with all its rows gone ends (R191, R192). -/
def consumeRows (s : State) (o : Op) (m : Mma) : State :=
  if mmaBq m.desc then
    let q := (coreAt s o.die o.pos).queue
    let rest := q.drop 16
    let s := modCore s o.die o.pos fun c => { c with queue := rest }
    { s with ops := s.ops.filter fun x => match x.kind with
        | .tdecQ _ row rows => !(row = rows && x.die = o.die && x.pos = o.pos && !(rest.any fun r => r.op = x.id))
        | _ => true }
  else s

/-- The tile of the operation's identity (R228): its words. -/
def Mma.identity (m : Mma) (s : State) (o : Op) : List Nat :=
  List.replicate (mmaRows m.desc * mmaCols m.desc (coreAt s o.die o.pos).halves) (semiringIdentity m.fn m.int)

/-- The stores as the k-step in progress reads them: an operand sector that it has read already is as it was then (R179,
R229), and with `clr` the tile holds the identity (R228). -/
def Mma.view (m : Mma) (s : State) (o : Op) : State :=
  let s := m.early.foldl (fun st x =>
    let sp := o.operand x.1
    let st := clearPoison (writeBytes st sp (32 * x.2.1) x.2.2.2) sp (32 * x.2.1) 32
    if x.2.2.1 then addPoison st sp x.2.1 else st) s
  if m.clr then
    let bs := (m.identity s o).flatMap fun w => toBytes 4 w
    ((sectorsOf m.acc bs.length).filter fun k => !(m.cleared.contains k)).foldl (fun st k =>
      clearPoison (writeBytes st o.accs (32 * k) ((bs.drop (32 * k - m.acc)).take 32)) o.accs (32 * k) 32) s
  else s

/-- Publish a sector of the tile of the k-step in progress (R179, R230). -/
def publish (s : State) (o : Op) (m : Mma) (tile : List Nat) (k : Nat) : State :=
  let sp := o.accs
  let lo := max m.acc (32 * k)
  let hi := min (m.acc + 4 * tile.length) (32 * k + 32)
  let s := engineWrite s o sp lo lo 0 false (((tile.flatMap fun w => toBytes 4 w).drop (lo - m.acc)).take (hi - lo))
  let l := localOf s sp
  setLocal s { l with tags := if m.int then k :: l.tags.filter (· ≠ k) else l.tags.filter (· ≠ k) }

/-- The tile of the k-step in progress is published, but for the sectors that were published ahead. -/
def publishRest (s : State) (o : Op) (m : Mma) (tile : List Nat) : State :=
  if m.out = [] then writeAcc s o m tile
  else ((sectorsOf m.acc (4 * tile.length)).filter fun k => !(m.out.contains k)).foldl (fun st k => publish st o m tile k) s

/-- MMA_KSTEP_COMPLETE (R228, R230): the k-step in progress completes and its tile is published. -/
def execMmaKstepComplete (op : Nat) (s : State) : Host.Outcome State Fault Refusal :=
  match opAt s op with
  | none => .next s
  | some o =>
    let s := arrayTurn s o.die o.pos
    match (opAt s op).bind fun o => o.mma?.map fun m => (o, m) with
    | none => .next s
    | some (o, m) =>
      let rows := mmaRows m.desc
      let n := mmaCols m.desc (coreAt s o.die o.pos).halves
      if !m.began then .next s
      else if m.tile = none && kstepPoisoned (m.view s o) o m rows n then .next (memoryError s o 1 5 false o.lanes 0)
      else
        let (tile, fl) := m.tile.getD (kstep (m.view s o) o m rows n)
        let s := countGridEvent (consumeRows (publishRest s o m tile) o m) o.grid 2 1
        let m := { m with next := m.next + 1, clr := false, began := false, early := [], tile := none, out := [], cleared := [],
                          fl := m.fl ||| fl }
        if m.cut || m.next = mmaK m.desc / 16 then .next (endMma s o m)
        else .next (arrayTurn (modOp s op fun o => { o with kind := .mma m }) o.die o.pos)

/-! ### Hang and reset (R253, R254) -/

/-- The running lanes of a warp that stand where its lowest running lane stands, as a path. -/
def warpPath (s : State) (die pos : Nat) (w : Warp) (g : Grid) : Path :=
  let k := lowLane (w.lanesWhere Thread.running)
  let pc := (w.lane k).pc
  let m := (w.lanesWhere fun t => t.running && t.pc = pc) &&& w.groupLanes (w.groupOf k)
  { die := die, pos := pos, slot := w.slot, grp := w.groupOf k, lanes := m, act := m, pc := pc,
    core := coreAt s die pos, w := w, grid := g }

/-- A class 11 fault of a warp (R252). -/
def raiseWarp (s : State) (die pos : Nat) (w : Warp) (code : Nat) : State :=
  match gridAt s w.grid with
  | some g => let p := warpPath s die pos w g
              raiseNow s p (Flt.plain 11 code p.lanes)
  | none => s

/-- The watchdog of a warp on a core in service mode has run out and is not yet reported (R251). -/
def watchdogDue (c : Core) (w : Warp) : Bool := c.service && w.wdog = 0#32 && !w.wdFired

/-- A warp whose watchdog has run out raises class 11 code 1 (R251, R252). -/
def watchdogTrap (s : State) (die pos : Nat) (w : Warp) : State :=
  raiseWarp (modWarp s die pos w.slot fun w => { w with wdFired := true }) die pos w 1

/-- ARRAY_HANG_RESET (R253): due when the k-step in progress has not completed 65,536 cycles after its
operands were ready. -/
def execArrayHangReset (op : Nat) (s : State) : Host.Outcome State Fault Refusal :=
  match (opAt s op).bind fun o => o.mma?.map fun m => (o, m) with
  | none => .next s
  | some (o, m) =>
    let now := (dieOf s o.die).cycles
    if m.began && decide (m.readyAt + 65536 ≤ now) then
      let n := mmaRows m.desc * mmaCols m.desc (coreAt s o.die o.pos).halves
      let s := engineWrite s o o.accs m.acc m.acc 0 false (List.replicate (4 * n) 0)
      let s := if mmaBq m.desc then modCore s o.die o.pos fun c => { c with queue := [] } else s
      let s := endOp s op
      let ws := m.members.filterMap fun u => warpOfUid s u.1
      let s := ws.foldl (fun st x => raiseWarp st o.die o.pos x.2 2) s
      let s := match (gridAt s o.grid).bind fun g => g.hoodOf o.blk with
        | some h => if ws = [] then killHood s o.grid h.idx else s
        | none => s
      .next (arrayTurn s o.die o.pos)
    else .next s

/-! ### Checkpoints (R231, R232) -/

/-- The word that `mmack` reads of a warp (R231). -/
def ackWord (s : State) (w : Warp) : Word :=
  match (opAt s w.mmaOp).bind Op.mma? with
  | some m => mmaWord m false
  | none => w.mmaAck

/-- `mmack` (R231). -/
def execMmack (la : BitVec 4) (d : BitVec 7) (s : State) : Host.Outcome State Fault Refusal :=
  perPath (.mmack la d) s fun p t =>
    let v := ackWord s p.w
    let t := p.write t d.toNat fun _ => v
    .done (p.setThreads t p.act fun k th =>
      owe th 0 la.toNat true ([fieldLoc (p.th k).wb.toNat d.toNat].filterMap id) [])

/-- The cut of an operation (R231): one whose k-step is in progress ends after it; one that has none in
progress ends now. -/
def cutMma (s : State) (o : Op) (m : Mma) : State :=
  if m.began then
    (if m.next + 1 < mmaK m.desc / 16 then modOp s o.id fun o => { o with kind := .mma { m with cut := true } }
     else s)
  else endMma s o { m with cut := true }

/-- `mmack.cut` (R231): it writes d once the operation has ended. -/
def execMmackCut (la : BitVec 4) (d : BitVec 7) (s : State) : Host.Outcome State Fault Refusal :=
  perPath (.mmackCut la d) s fun p t =>
    let loc := fun k => fieldLoc (p.th k).wb.toNat d.toNat
    match (opAt s p.w.mmaOp).bind fun o => o.mma?.map fun m => (o, m) with
    | none =>
      let t := p.write t d.toNat fun _ => p.w.mmaAck
      .done (p.setThreads t p.act fun k th => owe th 0 la.toNat true ([loc k].filterMap id) [])
    | some (o, m) =>
      let lanes := (laneList p.act).filterMap fun k => (loc k).map fun l => (k, l)
      let c := p.newOp t (.mmack lanes o.id) p.act p.l0
      let t := p.setThreads (addOp t c) p.act fun k th => owe th c.id la.toNat false ([loc k].filterMap id) []
      .done (cutMma t o m)

/-! ### `accld` (R233) -/

/-- Every `mma` that the operation's warp issued before it has completed (R233, R234). -/
def mmasBefore (s : State) (o : Op) : Bool :=
  !(s.ops.any fun e => decide (e.id < o.id) && match e.mma? with
    | some m => (m.members.lookup o.uid).isSome
    | none => false)

/-- `accld` (R233): it issues without waiting, and joins the warp's `mma` operations (R292). -/
def execAccld (la : BitVec 4) (d a : BitVec 7) (z : BitVec 3) (s : State) : Host.Outcome State Fault Refusal :=
  perPath (.accld la d a z) s fun p t =>
    let size := 4 * 2 ^ z.toNat
    let ea := fun k => ((p.th k).reg a.toNat).toNat
    match firstFault
      [p.laneCheck 5 1 5 false (fun _ => 0) fun k => ea k % size ≠ 0,
       p.laneCheck 9 17 5 false (fun _ => 0) fun k => decide (p.kernel.acc * 4096 < ea k + size)] with
    | some f => .fault f
    | none =>
      let dst := fun (th : Thread) => (List.range (size / 4)).filterMap fun i => fieldLoc th.wb.toNat (d.toNat + i)
      let accs := (laneList p.act).map fun k =>
        { lane := k, blk := (p.th k).blk, kind := .accum, sp := .acc p.die p.pos p.grid.id, addr := ea k,
          va := ea k, size := size, system := false, own := [], data := 0, data2 := 0, dst := dst (p.th k),
          gen := none, kd := 0, mir := false, halves := [] : LaneAcc }
      let o := { p.newOp t (.late accs) p.act p.l0 with after := p.threadAfter s }
      let t := p.setThreads (p.joinMma t) p.act fun k th => owe th o.id la.toNat false (dst (p.th k)) []
      .done (bumpCount (addOp t o) p.w.uid true true)

/-- ACCLD_READ (R233): a lane's read, in its place in T (R287, R288) and after every earlier `mma` of the warp. -/
def execAccldRead (op lane : Nat) (s : State) : Host.Outcome State Fault Refusal :=
  match pendingAt s op lane with
  | some (o, x) =>
    if x.kind = .accum && mmasBefore s o && enabled s o x then
      if isPoisoned s x.sp x.addr x.size && owing s o lane then
        .next (memoryError (accessDone s o lane) o 1 5 false (BitVec.ofNat 32 (2 ^ lane)) 0)
      else
        let v := readN s x.sp x.addr x.size
        .next (accessDone (receive s o.uid op lane (x.dst.zip (wordsOf v x.dst.length))) o lane)
    else .next s
  | none => .next s

/-! ### `accst` (R234) -/

/-- `accst` (R234): it joins the warp's `mma` operations (R292). -/
def execAccst (la : BitVec 4) (d a : BitVec 7) (f : BitVec 3) (s : State) : Host.Outcome State Fault Refusal :=
  perPath (.accst la d a f) s fun p t =>
    let fs := p.grid.fslot f.toNat
    let dst := (p.reg0 d.toNat).toNat
    let bar := (p.reg0 (d.toNat + 1)).toNat
    let src := (p.reg0 a.toNat).toNat
    let n := (p.reg0 (a.toNat + 1)).toNat
    let e := elemBytes (fsFmt fs)
    match firstFault
      ([p.pathCheck (decide (10 < fsFmt fs)) 9 28 5 false 0,
       p.pathCheck (src % 4 ≠ 0) 5 1 5 false 0,
       p.pathCheck (dst % e ≠ 0) 5 1 1 true dst,
       p.pathCheck (bar % 16 ≠ 0) 5 1 1 true bar,
       p.pathCheck (decide (p.scratchBytes < dst + n * e)) 5 3 1 true dst,
       p.pathCheck (decide (p.scratchBytes < bar + 16)) 5 3 1 true bar,
       p.pathCheck (n % 8 ≠ 0 || decide (n < 8) || decide (65536 < n)) 9 29 5 false 0,
       p.pathCheck (decide (p.kernel.acc * 4096 < src + 4 * n)) 9 17 5 false 0]) with
    | some x => .fault x
    | none =>
      .done (addOp (p.joinMma t) { p.newOp t (.accst ⟨fs, src, dst, n, 0, []⟩ (sectorsOf dst (n * e))) p.act p.l0 with
        after := p.forkAfter s p.act, bar := some bar })

/-- The converted elements of an accumulator store that lie in a sector of scratch (R60, R234). -/
def accstElems (s : State) (o : Op) (x : Accst) (sector : Nat) : List (Nat × Nat × Fl) :=
  let e := elemBytes (fsFmt x.fmt)
  let sp := o.accs
  let tags := (localOf s sp).tags
  ((List.range x.n).filter fun i => (x.dst + i * e) / 32 = sector).map fun i =>
    let a := x.src + 4 * i
    let w := readN s sp a 4
    let r := if tags.contains (a / 32) then convert 4 (fsFmt x.fmt) (fsRm x.fmt) (fsSat x.fmt) w
      else if fsFmt x.fmt = 6 then roundNum fp32 (fsRm x.fmt) (fsSat x.fmt) (fp32.decode w)
      else convert 6 (fsFmt x.fmt) (fsRm x.fmt) (fsSat x.fmt) w
    (x.dst + i * e, r.1, r.2)

/-- ACCST_SECTOR (R234): a sector of the copy is written and lands. -/
def execAccstSector (op sector : Nat) (s : State) : Host.Outcome State Fault Refusal :=
  match opAt s op with
  | none => .next s
  | some o =>
    match o.kind with
    | .accst x left =>
      let v := withEarly s o.accs x.early sector
      let es := accstElems v o x sector
      let e := elemBytes (fsFmt x.fmt)
      let srcs := (List.range x.n).filter fun i => (x.dst + i * e) / 32 = sector
      if !(left.contains sector && mmasBefore s o && afterDone s o.after) then .next s
      else if srcs.any fun i => isPoisoned v o.accs (x.src + 4 * i) 4 then
        .next (memoryError s o 1 5 false (BitVec.ofNat 32 (2 ^ o.l0)) 0)
      else
        let s := engineWrite s o (.scratch o.die o.pos) ((es.headD (0, 0, 0)).1) ((es.headD (0, 0, 0)).1) 0 false
          (es.flatMap fun y => toBytes e y.2.1)
        let fl := orFlags (es.map fun y => y.2.2) ||| x.fl
        let left := left.filter (· ≠ sector)
        let s := if left = [] then addFlags (endOp s op) o.uid fl
          else modOp s op fun o => { o with kind := .accst { x with fl := fl, early := earlyRest x.early sector } left }
        .next (landSecs s o 1)
    | _ => .next s

end Sys2Proof.Machine
end

