-- ==== Sys2Proof/Machine/Espalier.lean ====
section
/-! DEFINITION. Espalier and N4X decoding, single weights and the Viterbi engine (R50 to R54, R191, R192, R235 to
R241). -/

namespace Sys2Proof.Machine

/-! ### `tdec` and `tdec.q` (R235 to R237) -/

/-- Elements of a block of the slot's format (R236). -/
def blockElems (f : BitVec 128) : Nat := if fsFmt f = 12 then 256 else 64

/-- Bytes of a block (R50, R52). -/
def blockBytes (f : BitVec 128) : Nat := if fsFmt f = 12 then espBits (fsShift f) / 8 else 32

/-- Bytes of a block's scales (R50, R53). -/
def scaleBytes (f : BitVec 128) : Nat := if fsFmt f = 12 then 8 else 2

/-- The checks of a decode at issue (R237): `od` is the output descriptor of `tdec`. -/
def tdecChecks (s : State) (p : Path) (f : BitVec 128) (q : Bool) (base sc nb bar od : Nat) :
    List (Bool × Flt) :=
  let e := if bit od 4 then 4 else 2
  let off := bits od 20 5
  let kn := p.kernel
  let n := nb * blockElems f
  [p.pathCheck (fsFmt f ≠ 11 && fsFmt f ≠ 12) 9 28 5 false 0,
   p.pathCheck (base % (if fsFmt f = 12 then 8 else 32) ≠ 0 || sc % 2 ≠ 0 || (!q && off % e ≠ 0)) 5 1 5 false 0,
   p.pathCheck (decide (kn.wst * 4096 < base + nb * blockBytes f) ||
      decide (kn.wst * 4096 < sc + nb * scaleBytes f)) 9 17 5 false 0,
   p.pathCheck (!q && (decide (kn.slots ≤ bits od 3 0) || decide (4096 * p.core.halves < off + n * e)))
      9 18 5 false 0,
   p.pathCheck (!q && kn.owner.lookup (bits od 3 0) ≠ some p.w.uid) 9 25 5 false 0,
   p.pathCheck (nb = 0 || decide (256 < nb) || (!q && bits od 31 21 ≠ 0) ||
      (q && n % (64 * (p.core.halves / 2)) ≠ 0)) 9 29 5 false 0] ++ p.tbFaults s bar true

/-- `tdec` (R235, R237). -/
def execTdec (la : BitVec 4) (a b : BitVec 7) (x : BitVec 3) (s : State) : Host.Outcome State Fault Refusal :=
  perPath (.tdec la a b x) s fun p t =>
    let r := fun i => (p.reg0 (a.toNat + i)).toNat
    let f := p.grid.fslot x.toNat
    let od := (p.reg0 b.toNat).toNat
    match firstFault (tdecChecks s p f false (r 0) (r 1) (r 2) (r 3) od) with
    | some e => .fault e
    | none =>
      let w : Tdec :=
        { fmt := f, gang := p.w.gang, landed := 0, base := r 0, scales := r 1, nb := r 2, slot := bits od 3 0,
          fp32 := bit od 4, offset := bits od 20 5, fl := 0 }
      let n := r 2 * blockElems f * (if bit od 4 then 4 else 2)
      .done (addOp t { p.newOp t (.tdec w (sectorsOf (bits od 20 5) n)) p.act p.l0 with
        after := p.forkAfter s p.act, bar := some (r 3) })

/-- `tdec.q` (R235 to R237): its rows enter the elastic queue. -/
def execTdecQ (la : BitVec 4) (a : BitVec 7) (x : BitVec 3) (s : State) : Host.Outcome State Fault Refusal :=
  perPath (.tdecQ la a x) s fun p t =>
    let r := fun i => (p.reg0 (a.toNat + i)).toNat
    let f := p.grid.fslot x.toNat
    match firstFault (tdecChecks s p f true (r 0) (r 1) (r 2) (r 3) 0) with
    | some e => .fault e
    | none =>
      let w : Tdec :=
        { fmt := f, gang := p.w.gang, landed := 0, base := r 0, scales := r 1, nb := r 2, slot := 0,
          fp32 := false, offset := 0, fl := 0 }
      let rows := r 2 * blockElems f / (64 * (p.core.halves / 2))
      .done (addOp t { p.newOp t (.tdecQ w 0 rows) p.act p.l0 with
        after := p.forkAfter s p.act, bar := some (r 3) })

/-- The exact value of element x of a decode, and whether its block is a format error (R236). -/
def Tdec.elem (t : Tdec) (s : State) (sp : Space) (x : Nat) : Num × Bool :=
  let i := x / blockElems t.fmt
  let j := x % blockElems t.fmt
  if fsFmt t.fmt = 12 then
    (espWeight t.fmt (readN s sp (t.base + i * blockBytes t.fmt) (blockBytes t.fmt)) j
      (readN s sp (t.scales + 8 * i + j / 64 * 2) 2), false)
  else
    match n4xValues (readBytes s sp (t.base + 32 * i) 32) (readN s sp (t.scales + 2 * i) 2) with
    | some l => (l.getD j (.nan false), false)
    | none => (.nan false, true)

/-- Some sector that the elements are drawn from is poisoned (R347). -/
def Tdec.poisoned (t : Tdec) (s : State) (sp : Space) (xs : List Nat) : Bool :=
  s.poison ≠ [] && (distinct (xs.map (· / blockElems t.fmt))).any fun i =>
    isPoisoned s sp (t.base + i * blockBytes t.fmt) (blockBytes t.fmt) ||
    isPoisoned s sp (t.scales + i * scaleBytes t.fmt) (scaleBytes t.fmt)

/-- TDEC_SECTOR (R236, R237): a sector of the slot is written and lands. -/
def execTdecSector (op sector : Nat) (s : State) : Host.Outcome State Fault Refusal :=
  match opAt s op with
  | none => .next s
  | some o =>
    match o.kind with
    | .tdec t left =>
      let e := if t.fp32 then 4 else 2
      let xs := (List.range (t.nb * blockElems t.fmt)).filter fun x => (t.offset + x * e) / 32 = sector
      let v := withEarly s o.weights t.early sector
      if !(left.contains sector) || slotBusy s o t.slot || !(afterDone s o.after) then .next s
      else if t.poisoned v o.weights xs then .next (memoryError s o 1 5 false (BitVec.ofNat 32 (2 ^ o.l0)) 0)
      else
        let vs := xs.map fun x => t.elem v o.weights x
        let rs := vs.map fun v => roundNum (if t.fp32 then fp32 else bf16) 0 false v.1
        let ad := t.offset + xs.headD 0 * e
        let s := engineWrite s o (o.operand t.slot) ad ad 0 false (rs.flatMap fun r => toBytes e r.1)
        let s := if vs.any (·.2) then errorAtBarrier s o 9 34 else s
        let fl := orFlags (rs.map (·.2)) ||| t.fl
        let left := left.filter (· ≠ sector)
        let s := if left = [] then addFlags (endOp s op) o.uid fl
          else modOp s op fun o => { o with kind := .tdec { t with fl := fl, early := earlyRest t.early sector } left }
        .next (landSecs s o 1)
    | _ => .next s

/-- The gang of a producer may put rows in the queue (R192). -/
def queueFree (s : State) (o : Op) (g : Nat × Nat) : Bool :=
  decide ((coreAt s o.die o.pos).queue.length < 64) &&
    match queueGang s o.die o.pos with
    | some q => q = g
    | none => true

/-- TDEC_Q_ROW (R191, R192, R237): the producer's next row enters the queue, and its sector lands. -/
def execTdecQRow (op : Nat) (s : State) : Host.Outcome State Fault Refusal :=
  match opAt s op with
  | none => .next s
  | some o =>
    match o.kind with
    | .tdecQ t row rows =>
      let n := 64 * ((coreAt s o.die o.pos).halves / 2)
      let xs := rangeFrom (row * n) (row * n + n)
      let behind := s.ops.any fun x => decide (x.id < o.id) && x.die = o.die && x.pos = o.pos && match x.kind with
        | .tdecQ t' r r' => t'.gang = t.gang && decide (r < r')
        | _ => false
      let v := withEarly s o.weights t.early row
      if rows ≤ row || behind || !(queueFree s o t.gang) || !(afterDone s o.after) then .next s
      else if t.poisoned v o.weights xs then .next (memoryError s o 1 5 false (BitVec.ofNat 32 (2 ^ o.l0)) 0)
      else
        let vs := xs.map fun x => t.elem v o.weights x
        let s := modCore s o.die o.pos fun c => { c with queue := c.queue ++ [⟨op, t.gang, vs.map (·.1)⟩], qgang := some t.gang }
        let s := if vs.any (·.2) then errorAtBarrier s o 9 34 else s
        let first := decide (t.landed ≤ row)
        let t := { t with landed := max t.landed (row + 1), early := earlyRest t.early row }
        let s := modOp s op fun o => { o with kind := .tdecQ t (row + 1) rows }
        let s := if first then landSecs s o 1 else s
        .next (arrayTurn s o.die o.pos)
    | _ => .next s

/-! ### `twget` (R238) -/

/-- `twget` (R238). -/
def execTwget (la : BitVec 4) (d a : BitVec 7) (f : BitVec 3) (s : State) : Host.Outcome State Fault Refusal :=
  perPath (.twget la d a f) s fun p t =>
    let fs := p.grid.fslot f.toNat
    let ba := fun k => ((p.th k).reg a.toNat).toNat
    let x := fun k => ((p.th k).reg (a.toNat + 1)).toNat
    let sc := fun k => bits (x k) 20 0 + bits (x k) 31 24 / 64 * 2
    let lim := p.kernel.wst * 4096
    match firstFault
      [p.pathCheck (fsFmt fs ≠ 12) 9 28 5 false 0,
       p.laneCheck 5 1 5 false (fun _ => 0) fun k => ba k % 8 ≠ 0 || bits (x k) 20 0 % 2 ≠ 0,
       p.laneCheck 9 17 5 false (fun _ => 0) fun k =>
         decide (lim < ba k + espBits (fsShift fs) / 8) || decide (lim < sc k + 2),
       p.laneCheck 9 29 5 false (fun _ => 0) fun k => bits (x k) 23 21 ≠ 0] with
    | some e => .fault e
    | none =>
      let dst := fun (th : Thread) => [fieldLoc th.wb.toNat d.toNat].filterMap id
      let accs := (laneList p.act).map fun k =>
        { lane := k, blk := (p.th k).blk, kind := .weight fs (bits (x k) 31 24) (sc k),
          sp := .weight p.die p.pos p.grid.id, addr := ba k, va := ba k, size := espBits (fsShift fs) / 8,
          system := false, own := [], data := 0, data2 := 0, dst := dst (p.th k), gen := none, kd := 0,
          mir := false, halves := [] : LaneAcc }
      let o := { p.newOp t (.late accs) p.act p.l0 with after := p.threadAfter s }
      let t := p.setThreads t p.act fun k th => owe th o.id la.toNat false (dst (p.th k)) []
      .done (bumpCount (addOp t o) p.w.uid true true)

/-- The bytes of a block that the window of weight j reads (R53). -/
def windowBytes (f : BitVec 128) (j : Nat) : List Nat :=
  let n := espBits (fsShift f)
  distinct ((List.range (fsWin f)).map fun i => (espOffset (fsShift f) j + i) % n / 8)

/-- A lane's flags of a late result: they enter `fl` when the instruction completes, with its last lane (R18). -/
def lateFlags (s : State) (o : Op) (lane : Nat) (f : BitVec 6) : State :=
  if o.pending.all fun a => a.lane = lane then addFlags s o.uid (o.fl ||| f)
  else modOp s o.id fun x => { x with fl := x.fl ||| f }

/-- TWGET_RESULT (R53, R54, R238): a lane's weight is read in its place in T (R287), rounded and written. -/
def execTwgetResult (op lane : Nat) (s : State) : Host.Outcome State Fault Refusal :=
  match pendingAt s op lane with
  | some (o, x) =>
    match x.kind with
    | .weight f j sc =>
      if !(enabled s o x) then .next s
      else if ((windowBytes f j).any (fun b => isPoisoned s x.sp (x.addr + b) 1) || isPoisoned s x.sp sc 2) &&
          owing s o lane then
        .next (memoryError (accessDone (lateFlags s o lane 0) o lane) o 1 5 false (BitVec.ofNat 32 (2 ^ lane)) 0)
      else
        let r := roundNum fp32 0 false (espWeight f (readN s x.sp x.addr x.size) j (readN s x.sp sc 2))
        let s := receive s o.uid op lane (x.dst.zip (wordsOf r.1 x.dst.length))
        .next (accessDone (lateFlags s o lane r.2) o lane)
    | _ => .next s
  | none => .next s

/-! ### `venc` (R239 to R241) -/

/-- `venc` (R239, R241). -/
def execVenc (la : BitVec 4) (a b : BitVec 7) (x : BitVec 3) (s : State) : Host.Outcome State Fault Refusal :=
  perPath (.venc la a b x) s fun p t =>
    let r := fun i => (p.reg0 (a.toNat + i)).toNat
    let f := p.grid.fslot x.toNat
    let errs := (p.reg0 b.toNat).toNat
    let toW := bit (r 1) 31
    let dst := bits (r 1) 22 0
    let nb := bits (r 2) 7 0 + 1
    let bb := espBits (fsShift f) / 8
    let bar := r 3
    let lim := p.scratchBytes
    match firstFault
      ([p.pathCheck (fsFmt f ≠ 12) 9 28 5 false 0,
       p.pathCheck (r 0 % 2 ≠ 0) 5 1 1 false (r 0),
       p.pathCheck (dst % 8 ≠ 0) 5 1 (if toW then 5 else 1) true (if toW then 0 else dst),
       p.pathCheck (errs % 4 ≠ 0) 5 1 1 true errs,
       p.pathCheck (decide (lim < r 0 + 520 * nb)) 5 3 1 false (r 0),
       p.pathCheck (!toW && decide (lim < dst + nb * bb)) 5 3 1 true dst,
       p.pathCheck (decide (lim < errs + 4 * nb)) 5 3 1 true errs,
       p.pathCheck (toW && decide (p.kernel.wst * 4096 < dst + nb * bb)) 9 17 5 false 0,
       p.pathCheck (bits (r 1) 30 23 ≠ 0 || bits (r 2) 15 13 ≠ 0 || decide (fsWin f < bits (r 2) 12 8)) 9 29 5 false 0] ++ p.tbFaults s bar true) with
    | some e => .fault e
    | none =>
      let v : Venc :=
        { fmt := f, targets := r 0, toWeight := toW, dest := dst, nb := nb, q := bits (r 2) 12 8,
          seed := bits (r 2) 31 16, errs := errs, sol := none, out := [] }
      .done (addOp t { p.newOp t (.venc v 0) p.act p.l0 with after := p.forkAfter s p.act, bar := some bar })

/-- The distance of the weight of a window from a target, squared, in units of 2^−276 (R240). -/
def vencCost (f : BitVec 128) (scale target : Int) (w : Nat) : Nat := ((espSum f w * scale - target) ^ 2).natAbs

/-- The new stream bits that may follow weight j, in the order of R240's tie (the earliest bit counts most):
bits beyond the stream's end are those of its start. -/
def vencBits (f : BitVec 128) (w0 j : Nat) : List Nat :=
  let sh := fsShift f
  let n := espBits sh
  let k := espOffset sh (j + 1) - espOffset sh j
  (if k = 1 then [0, 1] else [0, 2, 1, 3]).filter fun b => (List.range k).all fun i =>
    let p := espOffset sh j + fsWin f + i
    decide (p < n) || bit b i = bit w0 (p - n)

/-- The window after weight j with new bits b. -/
def vencNext (f : BitVec 128) (j w b : Nat) : Nat :=
  let k := espOffset (fsShift f) (j + 1) - espOffset (fsShift f) j
  w / 2 ^ k + b * 2 ^ (fsWin f - k)

/-- The least cost of weights j to 255 from each window at weight j, for a start w0; the table of weight j
first. -/
def vencTables (f : BitVec 128) (scale target : Nat → Int) (w0 : Nat) : List (Array Nat) :=
  (List.range 256).foldl (fun acc i =>
    let j := 255 - i
    let here := fun w => vencCost f (scale (j / 64)) (target j) w
    (match acc with
     | [] => (Array.range (2 ^ fsWin f)).map here
     | nx :: _ => (Array.range (2 ^ fsWin f)).map fun w =>
        here w + match (vencBits f w0 j).map fun b => nx.getD (vencNext f j w b) 0 with
          | [] => 0
          | c :: t => t.foldl min c) :: acc) []

/-- The bits after the first window along the least path, the smallest by R240's tie. -/
def vencPath (f : BitVec 128) (w0 : Nat) : Nat → Nat → List (Array Nat) → Nat
  | _, _, [] => 0
  | j, w, nx :: rest =>
    let sh := fsShift f
    let best := (vencBits f w0 j).foldl (fun m b => match m with
      | none => some b
      | some c => if nx.getD (vencNext f j w b) 0 < nx.getD (vencNext f j w c) 0 then some b else some c) none
    let b := best.getD 0
    let p := espOffset sh j + fsWin f
    let here := if p < espBits sh then b * 2 ^ p % 2 ^ espBits sh else 0
    here + vencPath f w0 (j + 1) (vencNext f j w b) rest

/-- A number of k bits read backwards. -/
def revBits (k x : Nat) : Nat := sumNat ((List.range k).map fun i => if bit x i then 2 ^ (k - 1 - i) else 0)

/-- The stream of least error among those whose first window has the seed's bits from q up, and its error;
of equal errors the smallest read from stream bit 0 down (R240). -/
def vencBlock (v : Venc) (scale target : Nat → Int) : Nat × Nat :=
  let l := fsWin v.fmt
  let high := v.seed % 2 ^ l / 2 ^ v.q * 2 ^ v.q
  ((List.range (2 ^ v.q)).foldl (fun best r =>
    let w0 := high + revBits v.q r
    let tb := vencTables v.fmt scale target w0
    let e := (tb.headD #[]).getD w0 0
    match best with
    | some (x, y) => if e < y then some (w0 + vencPath v.fmt w0 0 w0 (tb.drop 1), e) else some (x, y)
    | none => some (w0 + vencPath v.fmt w0 0 w0 (tb.drop 1), e)) none).getD (0, 0)

/-- The sectors that block i writes: those of the weight store are told apart. -/
def vencSectors (v : Venc) (i : Nat) : List Nat :=
  let bb := espBits (fsShift v.fmt) / 8
  (sectorsOf (v.dest + i * bb) bb).map (fun k => if v.toWeight then k + 2 ^ 32 else k) ++
    sectorsOf (v.errs + 4 * i) 4

/-- An encoding that its core's engine takes before this one (R241): earlier issue, in one cycle the lower slot. -/
def vencBehind (s : State) (o : Op) : Bool :=
  s.ops.any fun x => x.die = o.die && x.pos = o.pos && x.id ≠ o.id &&
    (match x.kind with | .venc .. => true | _ => false) &&
    (decide (x.cyc < o.cyc) || (x.cyc = o.cyc && (decide (x.slot < o.slot) ||
      (x.slot = o.slot && decide (x.id < o.id)))))

/-- Where the targets and the scales of a block lie (R239). -/
def Venc.targetsOf (v : Venc) (i : Nat) : Nat := v.targets + 512 * i
def Venc.scalesOf (v : Venc) (i : Nat) : Nat := v.targets + 512 * v.nb + 8 * i

/-- The solution of a block from its targets and scales (R240): the stream, its error, and whether one of them is not
finite. -/
def vencSolve (s : State) (v : Venc) (sc : Space) (i : Nat) : Nat × Nat × Bool :=
  let tg := (List.range 256).map fun j => bf16.decode (readN s sc (v.targetsOf i + 2 * j) 2)
  let gs := (List.range 4).map fun j => bf16.decode (readN s sc (v.scalesOf i + 2 * j) 2)
  let bad := (tg ++ gs).any fun x => x.isNan || x.isInf
  let sols := if bad then (0, 0) else
    vencBlock v (fun g => (gs.getD g (.fin false 0 0)).scaled (-133)) fun j =>
      (tg.getD j (.fin false 0 0)).scaled (-138)
  (sols.1, if bad then fp32.nan else (roundNum fp32 0 false (.fin false sols.2 (-276))).1, bad)

/-- The reads of a block are made: watchpoints see them (R277). -/
def vencNote (s : State) (o : Op) (v : Venc) (sc : Space) (i : Nat) : State :=
  watchSpace (watchSpace s (o.src 4) true false sc o.asid (v.targetsOf i) (v.targetsOf i) 512)
    (o.src 4) true false sc o.asid (v.scalesOf i) (v.scalesOf i) 8

/-- Write the part of a range of bytes that lies in a sector. -/
def writePart (s : State) (o : Op) (sp : Space) (a : Nat) (bs : List Byte) (k : Nat) : State :=
  let lo := max a (32 * k)
  let hi := min (a + bs.length) (32 * k + 32)
  if lo < hi then engineWrite s o sp lo lo 0 false ((bs.drop (lo - a)).take (hi - lo)) else s

/-- Write what a block's solution puts into a sector; sectors of the weight store are told apart as in `vencSectors`. -/
def vencPart (s : State) (o : Op) (v : Venc) (sol : Nat × Nat × Bool) (i k : Nat) : State :=
  let bb := espBits (fsShift v.fmt) / 8
  let stream := toBytes bb sol.1
  if 2 ^ 32 ≤ k then writePart s o o.weights (v.dest + i * bb) stream (k - 2 ^ 32)
  else
    let s := if v.toWeight then s else writePart s o (.scratch o.die o.pos) (v.dest + i * bb) stream k
    writePart s o (.scratch o.die o.pos) (v.errs + 4 * i) (toBytes 4 sol.2.1) k

/-- Write a sector as a whole, from the solutions of all blocks that reach into it (R179, R241, R291). -/
def vencPublish (s : State) (o : Op) (v : Venc) (sols : List (Nat × Nat × Bool)) (k : Nat) : State :=
  (List.range sols.length).foldl (fun st j =>
    if (vencSectors v j).contains k then vencPart st o v (sols.getD j (0, 0, false)) j k else st) s

/-- The sectors that are written with a block, since no later block reaches into them (R241, R291). -/
def vencFinal (v : Venc) (i : Nat) : List Nat :=
  let later := (rangeFrom (i + 1) v.nb).flatMap (vencSectors v)
  distinct ((vencSectors v i).filter fun k => !(later.contains k))

/-- The sectors that a block completes and that were not written ahead. -/
def vencDue (v : Venc) (i : Nat) : List Nat := (vencFinal v i).filter fun k => !(v.out.contains k)

/-- The sectors that a block completes are written, but for those that were written ahead. -/
def vencRest (s : State) (o : Op) (v : Venc) (sols : List (Nat × Nat × Bool)) (i : Nat) : State :=
  (vencDue v i).foldl (fun st k => vencPublish st o v sols k) s

/-- VENC_BLOCK (R240, R241): the Viterbi engine's next block, one operation at a time, with the sectors that it completes. -/
def execVencBlock (op : Nat) (s : State) : Host.Outcome State Fault Refusal :=
  match opAt s op with
  | none => .next s
  | some o =>
    match o.kind with
    | .venc v i =>
      let sc := o.place s (.scratch o.die o.pos)
      if vencBehind s o || !(afterDone s o.after) then .next s
      else if v.sol = none && (isPoisoned s sc (v.targetsOf i) 512 || isPoisoned s sc (v.scalesOf i) 8) then
        .next (memoryError s o 1 1 false (BitVec.ofNat 32 (2 ^ o.l0)) (v.targetsOf i))
      else
        let sol := v.sol.getD (vencSolve s v sc i)
        let s := if v.sol = none then vencNote s o v sc i else s
        let s := vencRest s o v (v.done ++ [sol]) i
        let s := if sol.2.2 then errorAtBarrier s o 9 35 else s
        let s := if i + 1 = v.nb then endOp s op
          else modOp s op fun o => { o with kind := .venc { v with sol := none, out := [], done := v.done ++ [sol] } (i + 1) }
        .next (landSecs s o (vencDue v i).length)
    | _ => .next s

end Sys2Proof.Machine
end

