-- ==== Sys2Proof/Machine/LoadStore.lean ====
section
/-! DEFINITION. Loads, stores and prefetches (R133 to R145) and the events that perform them. -/

namespace Sys2Proof.Machine

/-- Access size in bytes of a load size code (R138 Table 2). -/
def loadSize (c : Nat) : Nat :=
  match c with
  | 0 | 1 => 1
  | 2 | 3 => 2
  | 4 => 4
  | 5 => 8
  | _ => 16

/-- Access size in bytes of a store size code (R138 Table 2). -/
def storeSize (c : Nat) : Nat := 2 ^ c

/-- Registers of an access size (R138). -/
def regsOf (size : Nat) : Nat := if size ≤ 4 then 1 else size / 4

/-- The locations of `n` register fields from d (R20): `z` has none. -/
def Thread.locs (t : Thread) (d n : Nat) : List Loc :=
  (List.range n).filterMap fun i => fieldLoc t.wb.toNat (d + i)

/-- The effective address of a lane (R134 to R136). -/
def Path.ea (p : Path) (sp : Sp) (a off : Nat) (k : Nat) : Nat :=
  (match sp with
   | .global | .system => ((p.th k).pair a).toNat
   | _ => ((p.th k).reg a).toNat) + off

/-- The data of registers d and after it. -/
def Thread.data (t : Thread) (d n : Nat) : BitVec 128 :=
  BitVec.ofNat 128 (sumNat ((List.range n).map fun i => (t.reg (d + i)).toNat * 2 ^ (32 * i)))

/-- The checked accesses of the active lanes. -/
def Path.targets (p : Path) (s : State) (sp : Sp) (write : Bool) (size : Nat) (ea : Nat → Nat) :
    List (Nat × Target) :=
  (laneList p.act).filterMap fun k =>
    match checkLane s p sp write size k (ea k) with
    | .ok t => some (k, t)
    | .error _ => none

/-- A lane's access to its target. -/
def Path.lane (p : Path) (sp : Sp) (kind : AccKind) (size : Nat) (ea : Nat → Nat) (x : Nat × Target)
    (own : List Bool) (data : BitVec 128) (data2 : BitVec 64) (dst : List Loc) : LaneAcc :=
  { lane := x.1, blk := (p.th x.1).blk, kind := kind, sp := x.2.sp, addr := x.2.addr, va := ea x.1,
    size := size, system := sp = .system, own := own, data := data, data2 := data2, dst := dst,
    gen := x.2.gen, kd := x.2.kd, mir := x.2.mir, halves := if sp = .system && size = 16 then [0, 1] else [] }

/-- The bytes of a lane's store that no higher lane covers (R140). -/
def ownBytes (all : List (Nat × Target)) (size : Nat) (x : Nat × Target) : List Bool :=
  (List.range size).map fun i => !(all.any fun y => decide (x.1 < y.1) && y.2.sp = x.2.sp &&
    decide (y.2.addr ≤ x.2.addr + i) && decide (x.2.addr + i < y.2.addr + size))

/-- Start the data phase of the accesses of a path (R141): the operation, what each lane owes, and the
counter. -/
def Path.launch (p : Path) (s t : State) (load : Bool) (accs : List LaneAcc) (la : Nat) (done : Bool)
    (wr rd : Thread → List Loc) : State :=
  let o := { p.newOp t (.access load accs) p.act p.l0 with after := p.threadAfter s }
  let t := p.setThreads t p.act fun k th => owe th o.id la done (wr (p.th k)) (rd (p.th k))
  bumpCount (addOp t o) p.w.uid load true

/-- A load (R139, R141). -/
def loadLanes (i : Instr) (sp : Sp) (la : BitVec 4) (d a : BitVec 7) (off : Nat) (c : Nat) (s : State) :
    Host.Outcome State Fault Refusal :=
  perPath i s fun p t =>
    let size := loadSize c
    let ea := p.ea sp a.toNat (off * size)
    match p.checkAll s sp false size ea with
    | some f => .fault f
    | none =>
      let dst := fun (th : Thread) => th.locs d.toNat (regsOf size)
      let accs := (p.targets s sp false size ea).map fun x =>
        p.lane sp (.load size (c = 1 || c = 3)) size ea x [] 0 0 (dst (p.th x.1))
      .done (p.launch s t true accs la.toNat false dst fun _ => [])

/-- A store (R139 to R142); that `.inplace` clears the idempotent bit of a store that faults is `faulted`'s. -/
def storeLanes (i : Instr) (sp : Sp) (la : BitVec 4) (d a : BitVec 7) (off : Nat) (c : Nat) (inplace : Bool)
    (s : State) : Host.Outcome State Fault Refusal :=
  perPath i s fun p t =>
    let size := storeSize c
    let ea := p.ea sp a.toNat (off * size)
    let clear := fun (st : State) => if inplace then p.share st fun h => { h with idem := false } else st
    match p.checkAll s sp true size ea with
    | some f => .fault f
    | none =>
      let all := p.targets s sp true size ea
      let rd := fun (th : Thread) => th.locs d.toNat (regsOf size)
      let accs := all.map fun x =>
        p.lane sp .store size ea x (ownBytes all size x) ((p.th x.1).data d.toNat (regsOf size)) 0 []
      .done (p.launch s (p.frontier (clear t)) false accs la.toNat true (fun _ => []) rd)

/-- `ldg` (R138, R139). -/
def execLdg (la : BitVec 4) (d a : BitVec 7) (o : BitVec 5) (x : BitVec 3) (s : State) :
    Host.Outcome State Fault Refusal := loadLanes (.ldg la d a o x) .global la d a o.toNat x.toNat s

/-- `lds` (R135, R138). -/
def execLds (la : BitVec 4) (d a : BitVec 7) (o : BitVec 5) (x : BitVec 3) (s : State) :
    Host.Outcome State Fault Refusal := loadLanes (.lds la d a o x) .scratch la d a o.toNat x.toNat s

/-- `ldh` (R136, R138). -/
def execLdh (la : BitVec 4) (d a : BitVec 7) (o : BitVec 5) (x : BitVec 3) (s : State) :
    Host.Outcome State Fault Refusal := loadLanes (.ldh la d a o x) .hood la d a o.toNat x.toNat s

/-- `ldsys` (R144). -/
def execLdsys (la : BitVec 4) (d a : BitVec 7) (o : BitVec 4) (x : BitVec 3) (s : State) :
    Host.Outcome State Fault Refusal := loadLanes (.ldsys la d a o x) .system la d a o.toNat x.toNat s

/-- `stg` (R138 to R142). -/
def execStg (la : BitVec 4) (d a : BitVec 7) (i : BitVec 1) (o : BitVec 4) (x : BitVec 3) (s : State) :
    Host.Outcome State Fault Refusal :=
  storeLanes (.stg la d a i o x) .global la d a o.toNat x.toNat (i = 1#1) s

/-- `sts` (R135, R138 to R142). -/
def execSts (la : BitVec 4) (d a : BitVec 7) (i : BitVec 1) (o : BitVec 4) (x : BitVec 3) (s : State) :
    Host.Outcome State Fault Refusal :=
  storeLanes (.sts la d a i o x) .scratch la d a o.toNat x.toNat (i = 1#1) s

/-- `sth` (R136, R138 to R142). -/
def execSth (la : BitVec 4) (d a : BitVec 7) (i : BitVec 1) (o : BitVec 4) (x : BitVec 3) (s : State) :
    Host.Outcome State Fault Refusal :=
  storeLanes (.sth la d a i o x) .hood la d a o.toNat x.toNat (i = 1#1) s

/-- `stsys` (R144): it has no `.inplace` form. -/
def execStsys (la : BitVec 4) (d a : BitVec 7) (o : BitVec 4) (x : BitVec 3) (s : State) :
    Host.Outcome State Fault Refusal :=
  storeLanes (.stsys la d a o x) .system la d a o.toNat x.toNat false s

/-- `pfl1` (R145): it changes no architectural state. -/
def execPfl1 (la : BitVec 4) (a : BitVec 7) (s : State) : Host.Outcome State Fault Refusal :=
  issue (.pfl1 la a) s fun _ t => .done t

/-- `pfl2` (R145). -/
def execPfl2 (la : BitVec 4) (a : BitVec 7) (s : State) : Host.Outcome State Fault Refusal :=
  issue (.pfl2 la a) s fun _ t => .done t

/-- `evl1` (R145). -/
def execEvl1 (la : BitVec 4) (a : BitVec 7) (s : State) : Host.Outcome State Fault Refusal :=
  issue (.evl1 la a) s fun _ t => .done t

/-! ### Performing loads and stores -/

/-- The value of a load, extended by its size code (R138). -/
def loadValue (size : Nat) (signed : Bool) (bs : List Byte) : Nat :=
  if signed then wrapN 32 (sintN (8 * size) (ofBytes bs)) else ofBytes bs

/-- The bytes of a load from those of its last part (R144). -/
def LaneAcc.join (a : LaneAcc) (bs : List Byte) : List Byte :=
  match a.system, a.halves with
  | true, [0] => bs ++ (toBytes 16 a.data.toNat).drop 8
  | true, [1] => (toBytes 16 a.data.toNat).take 8 ++ bs
  | _, _ => bs

/-- The words of a loaded value with their registers. -/
def withDst (dst : List Loc) (v : Nat) : List (Loc × Word) := dst.zip (wordsOf v dst.length)

/-- The lanes of an operation, of threads that still run, whose data is poisoned or fails its tag now (R141). -/
def poisonedLanes (s : State) (o : Op) : BitVec 32 :=
  maskOf ((o.pending.filter fun a => owing s o a.lane && (readError s a.sp (a.addr + a.rest.1) a.rest.2 a.kd o.asid).isSome).map fun a => a.lane)

/-- The memory error of an access whose data fails in `s` (R141): the record names every lane whose data fails, and the
address of the lowest. -/
def loadError (t s : State) (o : Op) (a : LaneAcc) (code : Nat) (write : Bool) : State :=
  let m := poisonedLanes s o ||| maskOf [a.lane]
  let va := ((o.pending.find? fun x => x.lane = lowLane m).map (·.va)).getD a.va
  memoryError t o code a.space write m va

/-- A load takes its place and its data is written (R141, R143, R347, R373); the generation of a window
target that is gone gives zeros (R265). A load into `z` of data that fails takes the memory error too, and one whose
thread has exited or gone does not: its result is discarded (R102; log 54). -/
def performLoad (s : State) (o : Op) (a : LaneAcc) (signed : Bool) : State :=
  if genCurrent s a.gen then
    let x := a.addr + a.rest.1
    let n := a.rest.2
    match readError s a.sp x n a.kd o.asid with
    | some (code, s') =>
      if owing s o a.lane then loadError (accessDone s' o a.lane) s o a code false
      else accessDone s' o a.lane
    | none =>
      let v := loadValue a.size signed (a.join (agentBytes s a.sp x n a.kd))
      let s := receive (noteRead s a.sp x n) o.uid o.id a.lane (withDst a.dst v)
      let s := watchSpace s { o.src 0 with lane := a.lane } true false a.sp o.asid (a.va + a.rest.1) x n
      accessDone s o a.lane
  else
    let s := match a.gen with
      | some (d, q, _) => countDrop s d q
      | none => s
    accessDone (receive s o.uid o.id a.lane (withDst a.dst 0)) o a.lane

/-- The access of a lane changes. -/
def modAccess (s : State) (op lane : Nat) (f : LaneAcc → LaneAcc) : State :=
  modOp s op fun o => match o.kind with
    | .access ld l => { o with kind := .access ld (updWhere (fun a => a.lane = lane) f l) }
    | _ => o

/-- The bytes a store writes (R140). -/
def storeBytes (a : LaneAcc) : List (Option Byte) :=
  (toBytes a.size a.data.toNat).zip a.own |>.map fun x => if x.2 then some x.1 else none

/-- A store is performed at its home (R143, R289); a window store whose generation is gone is discarded
and counted (R265). -/
def performStore (s : State) (o : Op) (a : LaneAcc) : State :=
  if genCurrent s a.gen then
    let s := performWrite s a.sp a.addr a.kd (storeBytes a) a.mir o.uid o.cov [(o.grid, a.blk)]
    let s := watchSpace s { o.src 1 with lane := a.lane } false true a.sp o.asid (a.va + a.rest.1) (a.addr + a.rest.1)
      (if a.own.any id then a.rest.2 else 0)
    accessDone s o a.lane
  else
    let s := match a.gen with
      | some (d, q, _) => countDrop s d q
      | none => s
    accessDone s o a.lane

/-- One half of a system access of 16 bytes is performed ahead of the other (R144): what a load reads of it is kept, and a
store writes it no more. -/
def performHalf (s : State) (o : Op) (a : LaneAcc) (h : Nat) : State :=
  let x := a.addr + 8 * h
  let b := { a with halves := [h] }
  match a.kind with
  | .load .. =>
    if (readError s a.sp x 8 a.kd o.asid).isSome then s
    else
      let bs := agentBytes s a.sp x 8 a.kd
      let s := watchSpace (noteRead s a.sp x 8) { o.src 0 with lane := a.lane } true false a.sp o.asid (a.va + 8 * h) x 8
      modAccess s o.id a.lane fun a =>
        { a with halves := a.halves.filter (· ≠ h), data := BitVec.ofNat 128 (ofBytes bs * 2 ^ (64 * h)) }
  | .store =>
    let own := a.own.mapIdx fun i y => y && decide (8 * h ≤ i) && decide (i < 8 * h + 8)
    let s := performWrite s a.sp a.addr a.kd (storeBytes { b with own := own }) a.mir o.uid o.cov [(o.grid, a.blk)]
    let s := watchSpace s { o.src 1 with lane := a.lane } false true a.sp o.asid (a.va + 8 * h) x (if own.any id then 8 else 0)
    modAccess s o.id a.lane fun a =>
      { a with halves := a.halves.filter (· ≠ h),
               own := a.own.mapIdx fun i y => y && !(decide (8 * h ≤ i) && decide (i < 8 * h + 8)) }
  | _ => s

/-- DIVIDE_RESULT (R93): the lanes receive their results. -/
def execDivideResult (op : Nat) (s : State) : Host.Outcome State Fault Refusal :=
  match opAt s op with
  | none => .next s
  | some o =>
    match o.kind with
    | .divide res =>
      .next (endOp (res.foldl (fun st x => receive st o.uid op x.1 [(x.2.1, x.2.2)]) s) op)
    | _ => .next s

/-- LOAD_DATA_RETURN (R141, R144): nothing happens for an access that is not due. -/
def execLoadDataReturn (op lane : Nat) (s : State) : Host.Outcome State Fault Refusal :=
  match pendingAt s op lane with
  | some (o, a) =>
    match a.kind with
    | .load _ sg => .next (if enabled s o a && a.gen.isNone then performLoad s o a sg else s)
    | _ => .next s
  | none => .next s

/-- STORE_PERFORMED (R143): a device-domain store to no window. -/
def execStorePerformed (op lane : Nat) (s : State) : Host.Outcome State Fault Refusal :=
  match pendingAt s op lane with
  | some (o, a) =>
    match a.kind with
    | .store => .next (if enabled s o a && a.gen.isNone && !a.system then performStore s o a else s)
    | _ => .next s
  | none => .next s

/-- SYSTEM_STORE_ACKNOWLEDGED (R144, R293): with an error the access is a memory error, class 8 code 3. -/
def execSystemStoreAcknowledged (op lane : Nat) (err : Bool) (s : State) : Host.Outcome State Fault Refusal :=
  match pendingAt s op lane with
  | some (o, a) =>
    if a.system && enabled s o a then
      if err then
        .next (memoryError (accessDone s o lane) o 3 3 (a.kind = .store) (BitVec.ofNat 32 (2 ^ lane)) a.va)
      else match a.kind with
        | .store => .next (performStore s o a)
        | _ => .next s
    else .next s
  | none => .next s

end Sys2Proof.Machine
end

