-- ==== Sys2Proof/Machine/Ahead.lean ====
section
/-! DEFINITION. What the agents do ahead of the events of the table: the halves of a system access (R144), and the reads
and writes of an engine's unit, which is atomic in 32-byte sectors only (R179, R229, R230, R241, R291). The event that
ends the unit does what is left. -/

namespace Sys2Proof.Machine

/-- A half of a system access of 16 bytes is performed (R144). -/
def aheadHalf (s : State) (op lane h : Nat) : State :=
  match pendingAt s op lane with
  | some (o, a) => if a.system && a.halves = [0, 1] && decide (h < 2) && enabled s o a then performHalf s o a h else s
  | none => s

/-- A unit that has been translated and read writes one of its sectors, which lands when nothing else has to move towards
it (R183). -/
def writeAhead (s : State) (o : Op) (u : Unit) (l : List (List Piece)) (i : Nat) : State :=
  let same := fun (x : Unit) => decide (x.tag = u.tag ∧ x.recv = u.recv)
  let rest := { u with out := some (l.eraseIdx i), page := none }
  unitsBecome (writePieces s o (l.getD i [])) o u
    (if l.length ≤ 1 then o.unitsLeft.filter fun x => !(same x) else updWhere (fun x => same x) (fun _ => rest) o.unitsLeft)
    false

/-- A unit of a copy, translated and read as a whole, writes one 32-byte sector (R179, R291); the others follow. -/
def aheadUnit (s : State) (op tag recv i : Nat) : State :=
  match unitAt s op tag recv with
  | none => s
  | some (o, u) =>
    let o := o.forLane (if recv = 0 then tag else o.l0)
    match o.kind, u.out with
    | .units _, some l => if unitHeld s o u || decide (l.length ≤ i) then s else writeAhead s o u l i
    | .units _, none =>
      match resolveSegs s o u.segs with
      | .ok rs =>
        let l := sectorsOut s u.segs rs
        if unitHeld s o u || u.err.isSome || u.seq.isSome || (sourceError s o.asid rs).isSome || decide (l.length ≤ i) then s
        else writeAhead (noteRuns s o rs) o u l i
      | .error _ => s
    | _, _ => s

/-- The operand sectors of the k-step in progress, by slot and sector (R225, R229). -/
def kstepSectors (s : State) (o : Op) (m : Mma) : List (Nat × Nat) :=
  let rows := mmaRows m.desc
  let n := mmaCols m.desc (coreAt s o.die o.pos).halves
  let k := mmaK m.desc
  let ks := rangeFrom (16 * m.next) (16 * m.next + 16)
  let secs := fun (slot : Nat) (l : List (Nat × Nat)) => (distinct (l.flatMap fun q => sectorsOf q.1 q.2)).map fun x => (slot, x)
  secs (mmaA m.desc)
      ((List.range rows).flatMap fun r => ks.flatMap fun c => operandBytes (fsFmt m.fmtA) (rows * k) k r c) ++
    (if mmaBq m.desc then []
    else secs (mmaB m.desc)
      (ks.flatMap fun r => (List.range n).flatMap fun c => operandBytes (fsFmt m.fmtB) (k * n) n r c))

/-- The k-step in progress reads one of its operand sectors now (R179, R229). -/
def aheadRead (s : State) (op i : Nat) : State :=
  match (opAt s op).bind fun o => o.mma?.map fun m => (o, m) with
  | none => s
  | some (o, m) =>
    match (kstepSectors s o m)[i]? with
    | some (k, x) =>
      if m.began && m.tile = none && !(m.early.any fun y => y.1 = k && y.2.1 = x) then
        let sp := o.operand k
        modOp s op fun o => { o with kind := .mma { m with
          early := (k, x, s.poison.contains (sp, x), readBytes s sp (32 * x) 32) :: m.early } }
      else s
    | none => s

/-- The k-step in progress has read all its operands and publishes one sector of its tile (R179, R230). -/
def aheadTile (s : State) (op i : Nat) : State :=
  match (opAt s op).bind fun o => o.mma?.map fun m => (o, m) with
  | none => s
  | some (o, m) =>
    let rows := mmaRows m.desc
    let n := mmaCols m.desc (coreAt s o.die o.pos).halves
    match (sectorsOf m.acc (4 * rows * n))[i]? with
    | some k =>
      if m.began && !(m.out.contains k) && !(m.tile = none && kstepPoisoned (m.view s o) o m rows n) then
        let t := m.tile.getD (kstep (m.view s o) o m rows n)
        modOp (publish s o m t.1 k) op fun o => { o with kind := .mma { m with tile := some t, out := k :: m.out } }
      else s
    | none => s

/-- With `clr`, the identity enters one sector of the tile (R179, R228). -/
def aheadClear (s : State) (op i : Nat) : State :=
  match (opAt s op).bind fun o => o.mma?.map fun m => (o, m) with
  | none => s
  | some (o, m) =>
    let ws := m.identity s o
    match (sectorsOf m.acc (4 * ws.length))[i]? with
    | some k =>
      if m.began && m.clr && !(m.out.contains k) && !(m.cleared.contains k) then
        modOp (publish s o m ws k) op fun o => { o with kind := .mma { m with cleared := k :: m.cleared } }
      else s
    | none => s

/-- A decode or an accumulator store reads a sector of its source for one of its units, whose turn it is (R179). -/
def aheadSource (s : State) (o : Op) (unit k : Nat) : State :=
  match o.kind with
  | .tdec t left =>
    if left.contains unit && !(slotBusy s o t.slot) && afterDone s o.after then
      modOp s o.id fun o => { o with kind := .tdec { t with early := readEarly s o.weights t.early unit k } left }
    else s
  | .tdecQ t row rows =>
    if unit = row && decide (row < rows) && afterDone s o.after then
      modOp s o.id fun o => { o with kind := .tdecQ { t with early := readEarly s o.weights t.early unit k } row rows }
    else s
  | .accst x left =>
    if left.contains unit && mmasBefore s o && afterDone s o.after then
      modOp s o.id fun o => { o with kind := .accst { x with early := readEarly s o.accs x.early unit k } left }
    else s
  | _ => s

/-- The Viterbi engine writes one of the sectors that its block completes, which lands (R179, R241). -/
def aheadVenc (s : State) (o : Op) (v : Venc) (i k : Nat) : State :=
  let sc := o.place s (.scratch o.die o.pos)
  if vencBehind s o || !(afterDone s o.after) || v.out.contains k ||
      (v.sol = none && (isPoisoned s sc (v.targetsOf i) 512 || isPoisoned s sc (v.scalesOf i) 8)) then s
  else
    let sol := v.sol.getD (vencSolve s v sc i)
    let s := if v.sol = none then vencNote s o v sc i else s
    let s := vencPublish s o v (v.done ++ [sol]) k
    landSecs (modOp s o.id fun o => { o with kind := .venc { v with sol := some sol, out := k :: v.out } i }) o 1

/-- What an operation does ahead of its next event: for an `mma`, `recv` 0 reads the operand sector `part`, 1
publishes the sector `part` of the tile, and another puts the identity there; for a decode or an accumulator store, the
unit `tag` reads the sector `part`; a frame instruction makes the steps of its next page (R366); for the others `part`
is the half, the sector of the unit, or the place in the list of
sectors that the block completes. -/
def ahead (s : State) (op tag recv part : Nat) : State :=
  match opAt s op with
  | none => s
  | some o =>
    match o.kind with
    | .access .. => aheadHalf s op tag part
    | .units _ => aheadUnit s op tag recv part
    | .mma _ => if recv = 0 then aheadRead s op part else if recv = 1 then aheadTile s op part else aheadClear s op part
    | .tdec .. | .tdecQ .. | .accst .. => aheadSource s o tag part
    | .venc v i => match (vencFinal v i)[part]? with
      | some k => aheadVenc s o v i k
      | none => s
    | .frames .. => framesTurn s op
    | _ => s

end Sys2Proof.Machine
end

