-- ==== Sys2Proof/Machine/Placement.lean ====
section
/-! DEFINITION. Where a neighbourhood may run, and placing it (R19, R23, R26, R27, R160, R171 to R180, R260 to R265). -/

namespace Sys2Proof.Machine

/-! ### Lattices and rectangles (R260 Table 1, R262) -/

/-- The lattice of a kind: origin, steps, rows and columns. -/
structure Lattice where
  r0 : Nat
  c0 : Nat
  dr : Nat
  dc : Nat
  rows : Nat
  cols : Nat
  deriving DecidableEq, Repr

/-- The lattice of a core kind (R260 Table 1). -/
def lattice (kind : Nat) : Lattice :=
  match kind with
  | 0 => ⟨0, 0, 1, 1, 4, 6⟩
  | 1 => ⟨0, 0, 1, 2, 4, 3⟩
  | _ => ⟨0, 1, 2, 3, 2, 2⟩

/-- The position of a lattice cell of a cluster. -/
def cellPos (cl kind i j : Nat) : Nat :=
  let l := lattice kind
  12 * (4 * (cl / 2) + l.r0 + i * l.dr) + (6 * (cl % 2) + l.c0 + j * l.dc)

/-- The rectangles of a kind in a cluster: positions in hoodrank order (R262), lower first positions first. -/
def rectsOf (kind cols rows cl : Nat) : List (List Nat) :=
  let l := lattice kind
  if l.rows < rows || l.cols < cols then []
  else (List.range (l.rows + 1 - rows)).flatMap fun i0 =>
    (List.range (l.cols + 1 - cols)).map fun j0 =>
      (List.range (cols * rows)).map fun r => cellPos cl kind (i0 + r / cols) (j0 + r % cols)

/-- Every rectangle of a shape on a die, lower clusters first. -/
def allRects (kind cols rows : Nat) : List (List Nat) := (List.range 6).flatMap (rectsOf kind cols rows)

/-! ### Fields of a launch record -/

def Grid.kind (g : Grid) : Nat := lrecBits g.lrec 410 409
def Grid.cols (g : Grid) : Nat := lrecBits g.lrec 402 400
def Grid.rows (g : Grid) : Nat := lrecBits g.lrec 405 403
def Grid.prio (g : Grid) : Nat := lrecBits g.lrec 427 424
def Grid.coop (g : Grid) : Bool := bit g.lrec.toNat 419
def Grid.quota (g : Grid) : Nat := lrecBits g.lrec 255 192

/-! ### Quotas and admission (R160 Table 4, R172, R173, R180) -/

/-- A quota word scaled to a core kind (R172). -/
def scaledQuota (q gid kind : Nat) : Kernel :=
  let f := match kind with | 0 => 1 | 1 => 2 | _ => 4
  { grid := gid, regs := bits q 13 6 * f, wst := bits q 31 24 * f, acc := bits q 38 32 * f,
    warps := bits q 5 0 * (if kind = 0 then 1 else 2), slots := bits q 23 19, beds := bits q 18 14, tbl := bit q 39,
    owner := [], claims := [], releases := [] }

/-- What a core of a kind has (R160 Table 4, R170, R175), in the units of a quota. -/
def coreResources (kind : Nat) : Kernel :=
  let f := match kind with | 0 => 1 | 1 => 2 | _ => 4
  { grid := 0, regs := 128 * f, wst := 128 * f, acc := 64 * f, warps := warpSlots kind, slots := 16, beds := 16, tbl := true,
    owner := [], claims := [], releases := [] }

/-- The core's unreserved resources cover a quota, and the table grant is free (R173). -/
def Core.covers (c : Core) (k : Kernel) : Bool :=
  let r := coreResources c.kind
  let used := fun (f : Kernel → Nat) => sumNat (c.kernels.map f)
  decide (c.kernels.length < 4) && decide (used (·.regs) + k.regs ≤ r.regs) &&
    decide (used (·.wst) + k.wst ≤ r.wst) && decide (used (·.acc) + k.acc ≤ r.acc) &&
    decide (used (·.warps) + k.warps ≤ r.warps) && decide (used (·.slots) + k.slots ≤ r.slots) &&
    decide (used (·.beds) + k.beds ≤ r.beds) && (!k.tbl || !(c.kernels.any (·.tbl)))

/-- Warps of a grid on a core. -/
def Core.warpsOf (c : Core) (g : Nat) : Nat := (c.warps.filter fun w => w.grid = g).length

/-- A block's warps and registers fit in a kernel's unused quota (R173). -/
def Core.roomFor (c : Core) (k : Kernel) (g : Grid) (warps : Nat) : Bool :=
  let n := c.warpsOf k.grid + warps
  decide (n ≤ k.warps) && decide (n * 128 * g.regs ≤ k.regs * 4096)

/-- The placed blocks of a core, with their grids. -/
def residents (s : State) (die pos : Nat) : List (Grid × Hood × Block) :=
  s.grids.flatMap fun g => g.hoods.flatMap fun h =>
    (h.blocks.filter fun b => b.st = .placed ∧ b.die = die ∧ b.pos = pos).map fun b => (g, h, b)

/-- The cluster of a position takes no placement while its kind changes (R161). -/
def clusterChanging (s : State) (die cl : Nat) : Bool :=
  let d := dieOf s die
  bit d.clkind.toNat 31 && bits d.clkind.toNat (2 * cl + 1) (2 * cl) ≠ bits d.kindsNow.toNat (2 * cl + 1) (2 * cl)

/-- The position is enabled, of the kind, and open to placement (R158, R161, R251, R342). -/
def coreOpen (s : State) (die pos kind : Nat) : Bool :=
  let c := coreAt s die pos
  c.kind = kind && !c.closed && !c.service && !(clusterChanging s die (clusterOf pos))

/-- The core of a position admits a block of the kernel with its carve-out (R173, R180, R263). -/
def admits (s : State) (die pos : Nat) (g : Grid) (warps : Nat) : Bool :=
  let c := coreAt s die pos
  let k := match c.kernelOf g.id with
    | some k => k
    | none => scaledQuota g.quota g.id c.kind
  let rs := residents s die pos
  coreOpen s die pos g.kind && ((c.kernelOf g.id).isSome || c.covers k) && c.roomFor k g warps &&
    rs.all (fun x => x.1.carveKib = g.carveKib) && (g.carveKib = 0 || rs = [])

/-- The reservation is that of a neighbourhood. -/
def Resv.isFor (x : Resv) (g h : Nat) : Bool := x.grid = g && x.hood = h

/-- The reservations of a neighbourhood are gone. -/
def unreserve (s : State) (die g h : Nat) : State :=
  modDie s die fun d => { d with resvFor := d.resvFor.filter fun x => !(x.isFor g h) }

/-- The position is reserved for another neighbourhood than the one given (R327, R328, R331). -/
def reservedFor (s : State) (die pos g h : Nat) : Bool :=
  (dieOf s die).resvFor.any fun x => !(x.isFor g h) && x.cores.contains pos

/-- A neighbourhood can be placed on a rectangle now (R263). -/
def rectFits (s : State) (die : Nat) (g : Grid) (h : Nat) (warps : Nat → Nat) (ps : List Nat) : Bool :=
  (ps.mapIdx fun r p => (r, p)).all fun x => admits s die x.2 g (warps x.1) && !(reservedFor s die x.2 g.id h)

/-- The rectangles on which a neighbourhood can be placed now (R263). -/
def rectsFit (s : State) (die : Nat) (g : Grid) (h : Nat) (warps : Nat → Nat) : List (List Nat) :=
  (allRects g.kind g.cols g.rows).filter (rectFits s die g h warps)

/-- The first rectangle on which a neighbourhood can be placed now (R263). -/
def findRect (s : State) (die : Nat) (g : Grid) (h : Nat) (warps : Nat → Nat) : Option (List Nat) :=
  (allRects g.kind g.cols g.rows).find? (rectFits s die g h warps)

/-! ### Starting a block (R19, R23, R27, R173, R178) -/

/-- The lowest free warp slots of a core. -/
def Core.freeSlots (c : Core) : List Nat :=
  (List.range (warpSlots c.kind)).filter fun k => (c.warpAt k).isNone

/-- Reserve a kernel's quota on a core if it has none there (R173), with its stores zero (R178) and, with the
table grant, an all-zero image in both banks (R127). -/
def grantKernel (s : State) (die pos : Nat) (g : Grid) : State :=
  let c := coreAt s die pos
  if (c.kernelOf g.id).isSome then s
  else
    let k := scaledQuota g.quota g.id c.kind
    let s := modCore s die pos fun c => { c with kernels := c.kernels ++ [k] }
    if k.tbl then
      let s := modCore s die pos fun c => { c with bank := false, bankWas := none }
      zeroLocal (zeroLocal s (.bank die pos 0)) (.bank die pos 1)
    else s

/-- The threads of warp w of a block at its start (R19, R27). -/
def startThreads (g : Grid) (blk w : Nat) : List Thread :=
  let bdx := lrecBits g.lrec 367 352
  let bdy := lrecBits g.lrec 383 368
  (List.range (min 32 (g.threads - 32 * w))).map fun k =>
    let i := 32 * w + k
    Thread.start g.regs [BitVec.ofNat 32 (lrecBits g.lrec 95 64), BitVec.ofNat 32 (lrecBits g.lrec 127 96)]
      (BitVec.ofNat 52 (lrecBits g.lrec 51 0)) (BitVec.ofNat 32 (i % bdx)) (BitVec.ofNat 32 (i / bdx % bdy))
      (BitVec.ofNat 32 (i / (bdx * bdy))) blk false []

/-- Start the warps of a block in the lowest free slots (R27). -/
def startWarps (s : State) (die pos : Nat) (g : Grid) (blk : Nat) : State :=
  (List.range g.warpsPerBlock).foldl (fun st w =>
    match (coreAt st die pos).freeSlots with
    | [] => st
    | k :: _ =>
      let x := Warp.start st.nextId k g.id (some w) (coreAt st die pos).sel (startThreads g blk w)
      { (modCore st die pos fun c => { c with warps := c.warps ++ [x] }) with nextId := st.nextId + 1 }) s

/-- A block comes to a core: its reservation, its zeroed scratch and the record of its stay (R173, R178, R344). -/
def seatBlock (s : State) (die pos : Nat) (g : Grid) (blk : Nat) : State :=
  let s := grantKernel s die pos g
  let s := if g.carveKib = 0 then s else zeroLocal s (.scratch die pos)
  let s := modBlock s g.id blk fun b => { b with st := .placed, die := die, pos := pos, iss := [], ran := true }
  modCore s die pos fun c =>
    { c with runs := c.runs ++ [⟨g.id, blk, g.asid, (Config.retainedAt g.id).toNat, s.ns, none⟩] }

/-- The generations that members record (R265): an empty place for a member without a core. -/
def memberGens (s : State) (die : Nat) (ps : List Nat) : List Word := ps.map fun p => (coreAt s die p).gen

/-- Place a neighbourhood from entry on the positions of a rectangle (R263); members that retired before a flush
stay retired. -/
def placeHood (s : State) (die : Nat) (g : Grid) (h : Hood) (ps : List Nat) : State :=
  let s := modHood s g.id h.idx fun h => { h with
    st := .placed, gens := memberGens s die ps, skipSince := [], starving := [], resumed := false }
  let s := unreserve s die g.id h.idx
  ((h.blocks.zip ps).filter fun x => x.1.st = .waiting).foldl (fun st x => startWarps (seatBlock st die x.2 g x.1.idx) die x.2 g x.1.idx) s

/-! ### Starting a grid (R262, R320, R327) -/

/-- The neighbourhoods of a new grid (R262). -/
def newHoods (gid ns count n : Nat) : List Hood :=
  (List.range (count / n)).map fun h =>
    { grid := gid, idx := h, st := .ready,
      blocks := (List.range n).map fun r =>
        { idx := h * n + r, st := .waiting, die := 0, pos := 0, r := 0, iss := [], frontier := 0, ran := false,
          suspect := false, unconfirmed := [] },
      gens := [], readyNs := ns, resumed := false, skipSince := [], starving := [], freeFor := none,
      coppice := false, due := (0, 1) }

/-- The dispatcher takes a grid with its retained launch record (R320, R327); the first launch locks MEMCFG
(R391). -/
def startGrid (s : State) (die q pkt asid vf : Nat) (lrec : BitVec 2048) (va csig : Nat) : State :=
  let g : Grid :=
    { id := s.nextId, die := die, queue := q, pkt := pkt, asid := asid, vf := vf, lrec := lrec, lrecVa := va,
      launchMem := s.mem, codeFrom := s.codeLog.length, csig := csig, start := (dieOf s die).cycles, hoods := [], barg := [],
      ended := none, complete := false }
  let g := { g with hoods := newHoods g.id s.ns g.blockCount g.hoodSize }
  { s with grids := s.grids ++ [g], nextId := s.nextId + 1, launched := true }

end Sys2Proof.Machine
end

