-- ==== Sys2Proof/Machine/Launch.lean ====
section
/-! DEFINITION. The checks of a launch record (R59, R172, R261, R321, R333, R383). -/

namespace Sys2Proof.Machine

/-- A grid with a launch record and nothing else, to read the record's fields by. -/
def recordGrid (r : BitVec 2048) : Grid :=
  { id := 0, die := 0, queue := 0, pkt := 0, asid := 0, vf := 0, lrec := r, lrecVa := 0, launchMem := [], codeFrom := 0, csig := 0,
    start := 0, hoods := [], barg := [], ended := none, complete := false }

/-- Check 2 (R321): a reserved bit, kind 3, the allocation, an empty shape, a misaligned entry. -/
def recordBad (r : BitVec 2048) : Bool :=
  lrecBits r 1023 512 ≠ 0 || lrecBits r 431 428 ≠ 0 || lrecBits r 423 421 ≠ 0 || lrecBits r 63 52 ≠ 0 ||
    lrecBits r 410 409 = 3 || decide (lrecBits r 415 411 < 2) || decide (16 < lrecBits r 415 411) ||
    lrecBits r 402 400 = 0 || lrecBits r 405 403 = 0 || lrecBits r 1 0 ≠ 0

/-- Check 3 (R321): a grid or block dimension of 0. -/
def shapeEmpty (r : BitVec 2048) : Bool :=
  lrecBits r 287 256 = 0 || lrecBits r 319 288 = 0 || lrecBits r 351 320 = 0 || lrecBits r 367 352 = 0 ||
    lrecBits r 383 368 = 0 || lrecBits r 399 384 = 0

/-- A format slot descriptor that a launch rejects (R59, R383). -/
def slotRejected (s : State) (f : BitVec 128) : Bool :=
  let x := f.toNat
  let esp := fsFmt f = 12
  bits x 127 96 ≠ 0 || bits x 31 11 ≠ 0 || bit x 7 || fsFmt f = 13 || fsFmt f = 14 || fsShift f = 3 ||
    (esp && fsM f % 2 = 0) || (!esp && (fsA f ≠ 0 || fsM f ≠ 0 || bit x 10 || fsShift f ≠ 0)) ||
    (esp && !(accepted s 0)) || (fsFmt f = 11 && !(accepted s 1))

/-- Check 5 (R172, R321). -/
def quotaBad (r : BitVec 2048) : Bool :=
  let g := recordGrid r
  let q := g.quota
  let k := scaledQuota q 0 g.kind
  bits q 63 40 ≠ 0 || decide (64 < bits q 38 32) || decide (128 < bits q 31 24) || decide (16 < bits q 23 19) ||
    decide (16 < bits q 18 14) || bits q 13 6 = 0 || decide (128 < bits q 13 6) || bits q 5 0 = 0 ||
    decide (32 < bits q 5 0) || decide (k.warps < g.warpsPerBlock) ||
    decide (k.regs * 4096 < g.warpsPerBlock * 128 * g.regs)

/-- Check 6 (R261): the shape exceeds the lattice, the grid is no multiple of it, it is no multiple of the stage
count. -/
def hoodBad (r : BitVec 2048) : Bool :=
  let g := recordGrid r
  let l := lattice g.kind
  let n := g.cols * g.rows
  decide (l.cols < g.cols) || decide (l.rows < g.rows) || g.blockCount % n ≠ 0 || n % (lrecBits r 408 406 + 1) ≠ 0

/-- The 64 bytes at a virtual address that the command processor reads, if it can (R309, R320). -/
def cpRead64 (s : State) (asid va : Nat) : Option Nat :=
  match translate s asid va false false none with
  | .ok t => if va % 64 = 0 then cpRead s t 64 else none
  | .error _ => none

/-- A side-table entry is well formed, above the offset before it (R333). -/
def sideEntryBad (regs : Nat) (before : Option Nat) (e : Nat) : Bool :=
  bits e 31 0 % 4 ≠ 0 || bits e 154 32 ≠ 0 || decide (2 ^ regs ≤ bits e 511 256) ||
    (match before with
     | none => bits e 31 0 ≠ 0
     | some b => decide (bits e 31 0 ≤ b))

/-- Check 7 over the entries from `va` on. -/
def sideEntriesBad (s : State) (asid regs : Nat) : Nat → Nat → Option Nat → Bool
  | 0, _, _ => false
  | n + 1, va, before =>
    match cpRead64 s asid va with
    | none => true
    | some e => sideEntryBad regs before e || sideEntriesBad s asid regs n (va + 64) (some (bits e 31 0))

/-- Check 7 (R80, R333): the side table. -/
def sideBad (s : State) (asid : Nat) (r : BitVec 2048) : Bool :=
  let va := lrecBits r 191 128
  match cpRead64 s asid va with
  | none => true
  | some h =>
    bits h 31 0 = 0 || bits h 511 40 ≠ 0 || sideEntriesBad s asid (recordGrid r).regs (bits h 31 0) (va + 64) none

/-- An empty core of the grid's kind holds this many of its blocks at once (R173, R180). -/
def blocksPerCore (g : Grid) : Nat :=
  let k := scaledQuota g.quota 0 g.kind
  if g.carveKib ≠ 0 then 1
  else min (k.warps / g.warpsPerBlock) (k.regs * 4096 / (g.warpsPerBlock * 128 * g.regs))

/-- A number of neighbourhoods of a shape fit at once on rectangles of a list, of enabled cores that hold `per` blocks
each (R263, R321): some choice of how many go on each rectangle. -/
def packable (enabled : Nat → Bool) (per : Nat) : Nat → List (List Nat) → List (Nat × Nat) → Bool
  | need, [], _ => need = 0
  | need, ps :: t, used =>
    let room := ps.foldl (fun m p => if enabled p then min m (per - lookupD used p 0) else 0) (min per need)
    need = 0 || (List.range (room + 1)).any fun k =>
      packable enabled per (need - (room - k)) t (ps.foldl (fun u p => assign u p (lookupD u p 0 + (room - k))) used)

/-- Check 8 (R321): a cooperative grid that cannot be resident at once on the die. -/
def coopBad (s : State) (die : Nat) (r : BitVec 2048) : Bool :=
  let g := recordGrid r
  let on := fun p => decide ((coreAt s die p).kind = g.kind)
  let cores := ((List.range Config.positions).filter on).length
  g.coop && (decide (cores * blocksPerCore g < g.blockCount) ||
    !(packable on (blocksPerCore g) (g.blockCount / (g.cols * g.rows)) (allRects g.kind g.cols g.rows) []))

/-- The number of the first check of R321 after the first that a record fails, 0 for none. -/
def launchCheck (s : State) (die asid : Nat) (r : BitVec 2048) : Nat :=
  let g := recordGrid r
  if recordBad r then 2
  else if shapeEmpty r then 3
  else if (List.range 8).any fun k => slotRejected s (g.fslot k) then 4
  else if quotaBad r then 5
  else if hoodBad r then 6
  else if sideBad s asid r then 7
  else if coopBad s die r then 8
  else 0

/-- The read of an entry of a table meets a class 7 condition (R151). -/
def readPending (s : State) (asid va : Nat) : Option Denial :=
  match translate s asid va false false none with
  | .error d => if d.cls = 7 then some d else none
  | .ok _ => none

/-- The first class 7 condition that check 7 meets over the entries from `va` on, before any of them is bad. -/
def sideEntriesPending (s : State) (asid regs : Nat) : Nat → Nat → Option Nat → Option (Nat × Denial)
  | 0, _, _ => none
  | n + 1, va, before =>
    match readPending s asid va, cpRead64 s asid va with
    | some d, _ => some (va, d)
    | none, some e => if sideEntryBad regs before e then none
        else sideEntriesPending s asid regs n (va + 64) (some (bits e 31 0))
    | none, none => none

/-- A record passes the checks before 7, and the side table meets a class 7 condition that is resolved first (R151,
R321). -/
def launchPending (s : State) (die asid : Nat) (r : BitVec 2048) : Option (Nat × Denial) :=
  let va := lrecBits r 191 128
  if launchCheck s die asid r ≠ 7 then none
  else match readPending s asid va, cpRead64 s asid va with
    | some d, _ => some (va, d)
    | none, some h => if bits h 31 0 = 0 || bits h 511 40 ≠ 0 then none
        else sideEntriesPending s asid (recordGrid r).regs (bits h 31 0) (va + 64) none
    | none, none => none

/-- What check 7 leaves of the entries from `va` on: the first that cannot be read counts or marks. -/
def sideEntriesNotes (s : State) (die asid regs : Nat) : Nat → Nat → Option Nat → State
  | 0, _, _ => s
  | n + 1, va, before =>
    match cpRead64 s asid va with
    | none => readNotes s die asid va 64
    | some e => if sideEntryBad regs before e then s else sideEntriesNotes s die asid regs n (va + 64) (some (bits e 31 0))

/-- What the launch checks leave when they fail (R358, R373, R377): only check 7 reads memory. -/
def launchNotes (s : State) (die asid : Nat) (r : BitVec 2048) : State :=
  let va := lrecBits r 191 128
  if launchCheck s die asid r ≠ 7 then s
  else match cpRead64 s asid va with
    | none => readNotes s die asid va 64
    | some h => if bits h 31 0 = 0 || bits h 511 40 ≠ 0 then s
        else sideEntriesNotes s die asid (recordGrid r).regs (bits h 31 0) (va + 64) none

/-- The launch record at a virtual address (R319, R321 check 1): none when its read faults; a class 7 condition
is told apart, since it is resolved first. -/
def readRecord (s : State) (asid va : Nat) : Except (Option Denial) (BitVec 2048) :=
  match translate s asid va false false none with
  | .error d => .error (if d.cls = 7 then some d else none)
  | .ok t => match cpRead s t 256 with
    | some x => .ok (BitVec.ofNat 2048 x)
    | none => .error none

end Sys2Proof.Machine
end

