-- ==== Sys2Proof/Machine/Bringup.lean ====
section
/-! DEFINITION. Reset, the boot ROM's verification, binding and the topology record (R155 to R164, R377 to R379, R386). -/

namespace Sys2Proof.Machine

/-! ### Binding (R155 to R159) -/

/-- The kind a cluster kind gives a position (R160): 3 for an idle one. -/
def kindAt (kinds pos : Nat) : Nat :=
  let cl := clusterOf pos
  let row := pos / 12
  let col := pos % 12
  match bits kinds (2 * cl + 1) (2 * cl) with
  | 0 => 0
  | 1 => if col % 2 = 0 then 1 else 3
  | 2 => if row % 2 = 0 ∧ col % 3 = 1 then 2 else 3
  | _ => 3

/-- The sites a front end may take halves of, in candidate order, those that exist (R157). -/
def candSites (kind pos : Nat) : List (Nat × Nat) :=
  let r := pos / 12
  let c := pos % 12
  let west := if c = 0 then [] else [(r, c - 1)]
  let east := if c = 11 then [] else [(r, c + 1)]
  match kind with
  | 1 => [(r, c)] ++ east ++ [(r + 1, c)] ++ west
  | _ => [(r, c), (r + 1, c)] ++ west ++ east

/-- Halves of a kind (R158, R160). -/
def halvesOf (kind : Nat) : Nat := match kind with | 0 => 2 | 1 => 4 | 2 => 8 | _ => 0

/-- The halves of the candidate sites, west before east (R157), numbered as half_bad numbers them (R159). -/
def candHalves (kind pos : Nat) : List Nat :=
  (candSites kind pos).flatMap fun x => [2 * (12 * x.1 + x.2), 2 * (12 * x.1 + x.2) + 1]

/-- A binding table entry (R159 Table 2): the halves of a bound position, or a disabled one. -/
def bindEntry (pos kind : Nat) (hs : List Nat) : BitVec 128 :=
  let none_ := (unboundEntry pos).toNat
  if hs = [] then BitVec.ofNat 128 none_
  else
    let e := putBits (putBits none_ 9 8 kind) 13 10 hs.length
    BitVec.ofNat 128 ((List.range hs.length).foldl (fun x i => putBits x (9 * i + 24) (9 * i + 16) (hs.getD i 0)) e)

/-- The halves that an entry holds. -/
def Core.held (c : Core) : List Nat :=
  (List.range c.halves).map fun i => bits c.entry.toNat (9 * i + 24) (9 * i + 16)

/-- The procedure of R158 over some positions in ascending order, with the halves already held. -/
def bindOver (repair kinds : Nat) : List Nat → List Nat → List (Nat × BitVec 128)
  | [], _ => []
  | p :: t, used =>
    let kind := kindAt kinds p
    let need := if bit repair (312 + p) then 0 else halvesOf kind
    let got := ((candHalves kind p).filter fun h => !(bit repair h) && !(used.contains h)).take need
    if need = 0 || decide (got.length < need) then (p, bindEntry p 3 []) :: bindOver repair kinds t used
    else (p, bindEntry p kind got) :: bindOver repair kinds t (got ++ used)

/-- Bind some positions of a die: first every half they hold is free (R158, R161). A core formed has no
coppice pass yet (R162). -/
def bindPositions (s : State) (die : Nat) (ps : List Nat) : State :=
  let d := dieOf s die
  let others := (List.range Config.positions).filter fun p => !(ps.contains p)
  let held := others.flatMap fun p => (coreAt s die p).held
  (bindOver d.repair.toNat (bits d.clkind.toNat 11 0) ps held).foldl (fun st x =>
    modCore st die x.1 fun c =>
      { c with entry := x.2, lastPass := none, passBegan := none, scanning := none, runs := [], closed := false,
               service := false }) s

/-! ### The topology record (R163, R164) -/

/-- The record of a die with a given gen (R163 Table 6). -/
def topoRecord (s : State) (die gen : Nat) : Nat :=
  let kinds := (List.range Config.positions).map fun p => (coreAt s die p).kind
  let n := fun k => (kinds.filter (· = k)).length
  let enabled := sumNat (kinds.mapIdx fun p k => if k = 3 then 0 else 2 ^ p)
  1 + die * 2 ^ 8 + gen * 2 ^ 16 + enabled * 2 ^ 32 + bits (dieOf s die).clkind.toNat 11 0 * 2 ^ 176 +
    n 0 * 2 ^ 192 + n 1 * 2 ^ 200 + n 2 * 2 ^ 208

/-- Update a die's record: gen goes to an odd value, the fields are written, gen goes to an even one (R164).
The records lie at physical address 0 (R391). -/
def updateTopo (s : State) (die : Nat) : State :=
  let gen := readN s .phys (128 * die + 2) 2
  let even := (if gen % 2 = 0 then gen + 2 else gen + 1) % 65536
  writeN s .phys (128 * die) 128 (topoRecord s die even)

/-- MEASGEN counts every change of a measurement block (R381). -/
def measure (s : State) : State := { s with measgen := s.measgen + 1 }

/-! ### Reset (R386 step 1, R415) -/

/-- PACKAGE_RESET (R386): what fuses, the repair tables, flash and memory hold stays; every key is gone and the package
draws another one for domain 0, so no unit of HBM is stored under a present key (R382). -/
def execPackageReset (s : State) : Host.Outcome State Fault Refusal :=
  .next { State.reset with
    agenda := s.agenda,
    mem := s.mem,
    locals := s.locals.filter fun l => match l.key with
      | .flash | .yew | .nvme => true
      | _ => false,
    poison := s.poison.filter fun x => x.1 = .phys,
    keyGen := [(0, lookupD s.keyGen 0 0 + 1)],
    dies := s.dies.map fun d => { Die.reset with repair := d.repair },
    out := s.out, fresh := s.fresh + 1, form := s.form, fuseDigest := s.fuseDigest, fuseSvn := s.fuseSvn }

/-- BOOT_ROM_READY (R386): every die has trained its stacks, and die 0 the host port. -/
def execBootRomReady (s : State) : Host.Outcome State Fault Refusal := .next { s with ready := true }

/-! ### SHA-256 and RSASSA-PKCS1-v1_5 (R378, R380) -/

/-- The first n primes from 2 upward. -/
def primesFrom : Nat → Nat → List Nat → List Nat
  | 0, _, acc => acc
  | k + 1, n, acc => primesFrom k (n + 1) (if acc.any fun p => n % p = 0 then acc else acc ++ [n])

/-- The 64 primes whose roots give the constants of SHA-256 (FIPS 180-4). -/
def shaPrimes : List Nat := primesFrom 310 2 []

/-- The integer part of a root, by bisection with a number of halvings. -/
def rootBelow (f : Nat → Nat) (x : Nat) : Nat → Nat → Nat
  | 0, r => r
  | k + 1, r => rootBelow f x k (if f (r + 2 ^ k) ≤ x then r + 2 ^ k else r)

/-- The first 32 bits of the fraction of the cube root, or square root, of a prime. -/
def rootFraction (cube : Bool) (p : Nat) : Word :=
  BitVec.ofNat 32 (if cube then rootBelow (fun r => r * r * r) (p * 2 ^ 96) 36 0
                   else rootBelow (fun r => r * r) (p * 2 ^ 64) 38 0)

/-- The 64 round constants of SHA-256. -/
def shaK : List Word := shaPrimes.map (rootFraction true)

/-- The initial hash value of SHA-256. -/
def shaH : List Word := (shaPrimes.take 8).map (rootFraction false)

/-- The padded message of SHA-256. -/
def shaPad (l : List Byte) : List Byte :=
  l ++ [0x80#8] ++ List.replicate ((119 - l.length % 64) % 64) 0 ++ (toBytes 8 (8 * l.length)).reverse

/-- The message schedule: 48 more words after the 16 of a block, newest first. -/
def shaExtend : Nat → List Word → List Word
  | 0, w => w
  | k + 1, w =>
    let a := w.getD 14 0
    let b := w.getD 1 0
    let s0 := (a.rotateRight 7) ^^^ (a.rotateRight 18) ^^^ (a >>> 3)
    let s1 := (b.rotateRight 17) ^^^ (b.rotateRight 19) ^^^ (b >>> 10)
    shaExtend k ((w.getD 15 0 + s0 + w.getD 6 0 + s1) :: w)

/-- One round on the eight working variables. -/
def shaRound (h : List Word) (x : Word × Word) : List Word :=
  let v := fun i => h.getD i 0#32
  let e := v 4
  let a := v 0
  let t1 := v 7 + ((e.rotateRight 6) ^^^ (e.rotateRight 11) ^^^ (e.rotateRight 25)) +
    ((e &&& v 5) ^^^ (~~~e &&& v 6)) + x.1 + x.2
  let t2 := ((a.rotateRight 2) ^^^ (a.rotateRight 13) ^^^ (a.rotateRight 22)) +
    ((a &&& v 1) ^^^ (a &&& v 2) ^^^ (v 1 &&& v 2))
  [t1 + t2, a, v 1, v 2, v 3 + t1, e, v 5, v 6]

/-- One block of SHA-256. -/
def shaBlock (h : List Word) (b : List Byte) : List Word :=
  let w := (List.range 16).map fun i => BitVec.ofNat 32 (ofBytesBE ((b.drop (4 * i)).take 4))
  let sched := (shaExtend 48 w.reverse).reverse
  let r := (shaK.zip sched).foldl shaRound h
  (h.zip r).map fun x => x.1 + x.2

/-- The digest of a message. -/
def sha256 (l : List Byte) : List Byte :=
  let m := shaPad l
  let h := (List.range (m.length / 64)).foldl (fun h i => shaBlock h ((m.drop (64 * i)).take 64)) shaH
  h.flatMap fun w => (toBytes 4 w.toNat).reverse

/-- The e-th power of x mod n, by the bits of e, most significant first. -/
def powMod (x n : Nat) : List Bool → Nat
  | [] => 1
  | b :: t =>
    let r := powMod x n t
    let q := r * r % n
    if b then q * x % n else q

/-- 65,537 in binary, least significant bit first. -/
def publicExponent : List Bool := true :: (List.replicate 15 false ++ [true])

/-- The DigestInfo of SHA-256 (RFC 8017). -/
def digestInfo : List Byte :=
  [0x30, 0x31, 0x30, 0x0D, 0x06, 0x09, 0x60, 0x86, 0x48, 0x01, 0x65, 0x03, 0x04, 0x02, 0x01, 0x05, 0x00, 0x04, 0x20]

/-- RSASSA-PKCS1-v1_5 over 3,072 bits with SHA-256 (R378). -/
def rsaVerifies (modulus signature msg : List Byte) : Bool :=
  let n := ofBytesBE modulus
  let x := ofBytesBE signature
  let em := [0x00#8, 0x01#8] ++ List.replicate (384 - 3 - 51) 0xFF#8 ++ [0x00#8] ++ digestInfo ++ sha256 msg
  decide (x < n) && powMod x n publicExponent = ofBytesBE em

/-! ### The image (R378, R379) -/

/-- Some byte of a range is not zero. -/
def anyByte (s : State) (a n : Nat) : Bool := (readBytes s .phys a n).any fun b => b ≠ 0#8

/-- The signed content: header bytes 0 to 511 and the body (R378). -/
def signedContent (s : State) : List Byte :=
  let b := fwBase s
  readBytes s .phys b 512 ++ readBytes s .phys (b + 1024) (readN s .phys (b + 4) 4)

/-- The code of the first check that the image fails, 0 for none (R379). -/
def imageCode (s : State) : Nat :=
  let b := fwBase s
  let modulus := readBytes s .phys (b + 128) 384
  if readN s .phys b 4 ≠ 0x4C474657 || decide (fwLen s < 1024 + readN s .phys (b + 4) 4) ||
      anyByte s (b + 12) 116 || anyByte s (b + 896) 128 then 1
  else if ofBytesBE (sha256 modulus) ≠ s.fuseDigest.toNat then 2
  else if readN s .phys (b + 8) 2 < s.fuseSvn.toNat then 3
  else if !(rsaVerifies modulus (readBytes s .phys (b + 512) 384) (signedContent s)) then 4
  else 0

/-- Firmware starts on every die (R386 steps 4 and 5): binding, which changes measurement block 4 (R381), topology
records, links, and service mode with the first coppice pass of each core. -/
def startFirmware (s : State) : State :=
  let s := (List.range 4).foldl (fun st d =>
    updateTopo (bindPositions (modDie st d fun x => { x with inRom := false, kindsNow := x.clkind.extractLsb' 0 12 }) d
      (List.range Config.positions)) d) s
  { measure s with
    ports := s.ports.map fun p => { p with up := true },
    cores := s.cores.map fun c =>
      if c.kind = 3 then c
      else { c with service := true, scanning := some (dieOf s c.die).cycles, passBegan := some s.ns } }

/-- The recovery of a die begins or ends (R251): every core of the die is in service mode meanwhile, and a core that a scan
holds stays so after it. No rule says what begins or ends a recovery (log 83). -/
def dieRecovery (s : State) (die : Nat) (on : Bool) : State :=
  { s with cores := s.cores.map fun c =>
      if c.die = die ∧ c.kind ≠ 3 then { c with service := on || c.scanning.isSome } else c }

/-- FIRMWARE_VERIFY (R379, R386): once HBM is trained and the range is locked, every boot ROM reads the same image; a
die that fails stays in ROM, and only a package reset tries again. -/
def execFirmwareVerify (s : State) : Host.Outcome State Fault Refusal :=
  if !s.ready || !s.fwlock || s.fwpass.any Option.isSome then .next s
  else
    let code := imageCode s
    let s := { s with fwpass := List.replicate 4 (some code) }
    if code = 0 then
      .next (startFirmware (measure { s with
        passed := true, measFw := BitVec.ofNat 256 (ofBytesBE (sha256 (signedContent s))) }))
    else .next s

end Sys2Proof.Machine
end

