-- ==== Sys2Proof/Machine/Signals.lean ====
section
/-! DEFINITION. Signals and die transfers (R291, R313 to R318). -/

namespace Sys2Proof.Machine

/-! ### Notification and the write of a signal (R314, R315) -/

/-- Every command processor is notified: the waiting barrier packets re-read their lists (R315). -/
def notifySignals (s : State) : State :=
  { s with dies := s.dies.map fun d =>
      { d with packets := d.packets.map fun p => if p.kind = 2 then { p with rereads := true } else p } }

/-- The value of a signal after an update (R313, R317). -/
def signalValue (s : State) (pa kd : Nat) (value : BitVec 64) (add : Bool) : BitVec 64 :=
  if add then BitVec.ofNat 64 (ofBytes (agentBytes s .phys pa 8 kd)) + value else value

/-- Write a signal as one atomic element (R314) and notify. -/
def writeSignal (s : State) (pa kd : Nat) (mir : Bool) (value : BitVec 64) (add : Bool) (uid : Nat)
    (cov : BitVec 24) (once : Bool) (needs : List (Nat × Nat)) : State :=
  let v := signalValue s pa kd value add
  let s := homeWrite s .phys pa kd ((toBytes 8 v.toNat).map some)
  let s := markDirty s .phys pa 8
  let s := noteWatched s .phys pa 8 once needs
  notifySignals (mirrorWrite s mir pa 8 uid cov needs)

/-! ### `sigst` and `sigadd` (R317) -/

/-- `sigst` or `sigadd`: checked as an atomic is, then the path waits for its update (R317). -/
def signalPath (i : Instr) (add : Bool) (a b : BitVec 7) (s : State) : Host.Outcome State Fault Refusal :=
  perPath i s fun p t =>
    let va := (p.pair0 a.toNat).toNat
    match p.checkAll s .global true 8 fun _ => va with
    | some f => .fault f
    | none =>
      match checkLane s p .global true 8 p.l0 va with
      | .error _ => .done t
      | .ok g =>
        let acc : LaneAcc :=
          { lane := p.l0, blk := (p.th p.l0).blk, kind := .store, sp := g.sp, addr := g.addr, va := va, size := 8,
            system := false, own := [], data := (p.pair0 b.toNat).setWidth 128, data2 := 0, dst := [],
            gen := none, kd := g.kd, mir := g.mir, halves := [] }
        let o := { p.newOp t (.signal acc add) p.lanes p.l0 with
          after := liveAfter s ((laneList p.act).flatMap fun k => (p.th k).after) }
        .done (p.setThreads (addOp (p.frontier t) o) p.lanes fun _ th => { th with wait := .signal o.id })

/-- `sigst` (R317). -/
def execSigst (a b : BitVec 7) (s : State) : Host.Outcome State Fault Refusal := signalPath (.sigst a b) false a b s

/-- `sigadd` (R317). -/
def execSigadd (a b : BitVec 7) (s : State) : Host.Outcome State Fault Refusal := signalPath (.sigadd a b) true a b s

/-- Every access that the path's threads issued before the operation is performed (R298, R317). -/
def laneAccessesDone (s : State) (o : Op) : Bool :=
  afterDone s o.after && !(s.ops.any fun e => decide (e.id < o.id) && e.uid = o.uid &&
    e.pending.any fun a => o.lanes.getLsbD a.lane)

/-- SIGNAL_INSTRUCTION_UPDATE (R317): the update is performed and the path goes on. -/
def execSignalInstructionUpdate (op : Nat) (s : State) : Host.Outcome State Fault Refusal :=
  match opAt s op with
  | none => .next s
  | some o =>
    match o.kind with
    | .signal a add =>
      if laneAccessesDone s o then
        let s := writeSignal s a.addr a.kd a.mir (a.data.setWidth 64) add o.uid o.cov false [(o.grid, a.blk)]
        let s := watchGlobal s { o.src 2 with lane := a.lane } add true o.asid a.va 8
        .next (framesSettle (endSignalWait (endOp s op) o.uid op))
      else .next s
    | _ => .next s

/-! ### Die transfers (R313, R318, R372) -/

/-- The byte runs of `n` bytes from a source that may cross a page (R372). -/
def transferSegs (asid src dst n : Nat) : List Seg :=
  let m := min n (65536 - src % 65536)
  ⟨some (.virt asid src), some (.virt asid dst), m⟩ ::
    (if m < n then [⟨some (.virt asid (src + m)), some (.virt asid (dst + m)), n - m⟩] else [])

/-- The parts of a transfer: one for each aligned 128-byte destination line (R372). -/
def transferUnits (asid src dst count : Nat) : List Unit :=
  if count = 0 then []
  else (rangeFrom (dst / 128) ((dst + count - 1) / 128 + 1)).mapIdx fun i line =>
    let lo := max dst (128 * line)
    let hi := min (dst + count) (128 * line + 128)
    { tag := i, recv := 0, segs := transferSegs asid (src + (lo - dst)) lo (hi - lo), secs := [], page := none,
      seq := none, err := none }

/-- Source and destination overlap, so the parts run in order (R313). -/
def transferOrdered (src dst count : Nat) : Bool := decide (src < dst + count) && decide (dst < src + count)

/-- The update of a transfer's completion signal: a `dxfer` stops no queue (R314, R318). -/
def transferSignal (s : State) (o : Op) (csig : Nat) (q : Option (Nat × Nat)) (value : BitVec 64) (add : Bool) :
    State :=
  queueUpdate s o.die
    { queue := (q.map (·.1)).getD 0, own := q.isSome, asid := o.asid, va := csig, value := value, add := add,
      grid := none, pkt := q.map (·.2), seq := none,
      prov := if q.isSome then [] else [(o.grid, o.blk)], negative := !add }

/-- A transfer that has performed every part completes: its signal falls by 1 (R313). -/
def transferDone (s : State) (o : Op) (csig : Nat) (q : Option (Nat × Nat)) : State :=
  transferSignal (endOp s o.id) o csig q (BitVec.ofNat 64 (2 ^ 64 - 1)) true

/-- A part fails: the transfer ends with −6, and a packet's queue stops with err 4 (R313, R318). -/
def transferFail (s : State) (o : Op) (csig : Nat) (q : Option (Nat × Nat)) : State :=
  let s := match q with
    | some (k, _) => queueError s o.die k 4
    | none => s
  transferSignal (endOp s o.id) o csig q (negative 6) false

/-- The address of the first poisoned 64-byte unit of a range. -/
def poisonedUnit (s : State) (a n : Nat) : Option Nat :=
  (unitsOf a n).findSome? fun u =>
    let lo := max a (64 * u)
    if isPoisoned s .phys lo (min (a + n) (64 * u + 64) - lo) then some (64 * u) else none

/-- The memory-error record of a poisoned source (R313, R375). -/
def transferPoison (s : State) (o : Op) (rs : List Run1) : State :=
  match rs.findSome? fun r => match r.src with
    | some (.phys, a, _, _) => poisonedUnit s a r.n
    | _ => none with
  | some a => memErrorRecord s (dieOfPa a) o.asid a 0 1
  | none => s

/-- One part of a transfer, when it is its turn. -/
def performPart (s : State) (o : Op) (u : Unit) (csig : Nat) (q : Option (Nat × Nat)) : State :=
  match tryUnit s o u with
  | .wait s' => unitWaits s' s o u
  | .fail s' _ _ _ _ => transferFail s' o csig q
  | .poisoned e =>
    let s' := if e.code = 1 then (match resolveSegs s o u.segs with
        | .ok rs => transferPoison e.state o rs
        | .error _ => e.state) else e.state
    transferFail s' o csig q
  | .moved s' =>
    let left := o.unitsLeft.filter fun x => x.tag ≠ u.tag
    if left = [] then transferDone s' o csig q
    else modOp s' o.id fun x => { x with kind := x.kind.setUnits left }

/-- DIE_TRANSFER_PART (R313, R318): a part of a transfer; parts of overlapping ranges run in order. -/
def execDieTransferPart (op part : Nat) (s : State) : Host.Outcome State Fault Refusal :=
  match unitAt s op part 0 with
  | none => .next s
  | some (o, u) =>
    match o.kind with
    | .transfer left ordered csig q =>
      if ordered && (left.head?.map (·.tag)) ≠ some part then .next s
      else .next (performPart s o u csig q)
    | _ => .next s

/-- A field of a packet (R311, R312). -/
def pktBits (p hi lo : Nat) : Nat := bits p hi lo

/-- A die-transfer packet is malformed (R311, R312, R316). -/
def transferBad (p : Nat) : Bool :=
  bits p 3 0 ≠ 4 || bits p 63 5 ≠ 0 || bits p 511 320 ≠ 0 || decide (2 ^ 40 < bits p 255 192) ||
    bits p 319 256 % 8 ≠ 0

/-- `dxfer` (R318). -/
def execDxfer (a : BitVec 7) (s : State) : Host.Outcome State Fault Refusal :=
  perPath (.dxfer a) s fun p t =>
    let va := (p.pair0 a.toNat).toNat
    match p.checkAll s .global false 64 fun _ => va with
    | some f => .fault f
    | none =>
      match checkLane s p .global false 64 p.l0 va with
      | .error _ => .done t
      | .ok g =>
        let d := ofBytes (agentBytes s .phys g.addr 64 g.kd)
        let src := bits d 127 64
        let dst := bits d 191 128
        let n := bits d 255 192
        let csig := bits d 319 256
        match faultThen (p.recordFault s va g) [p.pathCheck (transferBad d || bit d 4) 9 39 5 false 0] with
        | some f => .fault f
        | none =>
          let t := p.noteRecord t va g
          let us := transferUnits p.grid.asid src dst n
          let o := { p.newOp t (.transfer us (transferOrdered src dst n) csig none) p.act p.l0 with
            after := p.forkAfter s p.act }
          let t := addOp t o
          .done (if us = [] then transferDone t o csig none else t)

/-! ### Updates by the command processor (R314) -/

/-- The memory writes of a grid's work are all performed and acknowledged (R314). -/
def gridQuiet (s : State) (g : Nat) : Bool :=
  !(s.ops.any fun o => o.grid = g && match o.kind with
    | .units _ | .mcast _ | .transfer .. | .ngu .. | .signal .. | .frames .. => true
    | _ => o.pending ≠ [])

/-- The record that must be in the ring before a negative completion value (R348, R390). -/
def recordOwed (s : State) (die : Nat) (u : Update) : Bool :=
  match u.grid with
  | some g => u.negative && (dieOf s die).pcrs.any fun r => r.grid = g && !r.written
  | none => false

/-- The update leaves the list, and the packet it completes leaves the started packets (R313). -/
def updateDone (s : State) (die i : Nat) (u : Update) : State :=
  let s := modDie s die fun d => { d with updates := d.updates.eraseIdx i }
  match u.pkt with
  | some k => dropPacket s die u.queue k
  | none => s

/-- The writes that an update follows are all made (R314): those of its grid, and for the −5 of a queue's reset those
of all the queue's work (R325 steps 4 and 5). -/
def updateReady (s : State) (die : Nat) (u : Update) : Bool :=
  (match u.grid with
    | some g => gridQuiet s g
    | none => true) &&
  !(u.own && (dieOf s die).resetting.contains u.queue && u.value = negative 5 &&
    s.grids.any fun g => g.die = die && g.queue = u.queue && !(gridQuiet s g.id))

/-- COMPLETION_SIGNAL_UPDATE (R313, R314): a class 7 condition is resolved first; any other denial loses the
update and stops the queue with err 9. A completion without a signal writes none (R312). -/
def execCompletionSignalUpdate (die i : Nat) (s : State) : Host.Outcome State Fault Refusal :=
  match (dieOf s die).updates[i]? with
  | none => .next s
  | some u =>
    if u.seq.isSome || !(updateReady s die u) || recordOwed s die u then .next s
    else if u.va = 0 ∧ u.grid.isSome then .next (updateDone s die i u)
    else
      match translate s u.asid u.va true false (some false) with
      | .ok t =>
        .next (updateDone (writeSignal s t.pa t.kd t.mir u.value u.add 0 0 u.negative u.prov) die i u)
      | .error d =>
        let s := noteDenial s die d
        if d.cls = 7 then .next (startMove s die u.asid (u.va / 65536) d.code)
        else
          let s := if u.own then queueError s die u.queue 9 else s
          .next (updateDone s die i u)

end Sys2Proof.Machine
end

