-- ==== Sys2Proof/Machine/Tiers.lean ====
section
/-! DEFINITION. Resolutions of copy-on-write, moves to tier 0 and demotions (R151, R368 to R371). -/

namespace Sys2Proof.Machine

/-! ### Escalation (R151, R324) -/

/-- The parked records of resident warps that wait for a page: core, warp and record. -/
def parkedOn (s : State) (asid vpage : Nat) : List (Core × Warp × Fault256) :=
  s.cores.flatMap fun c => c.warps.flatMap fun w =>
    if (gridAt s w.grid).any fun g => g.asid = asid then
      (w.faults.filter fun f => f.seq.isNone && !f.ready && f.pages.any fun q => q.1 = vpage).map fun f => (c, w, f)
    else []

/-- A record was posted: the path waits for the reply of its sequence number. -/
def Fault256.post (f : Fault256) (die : Nat) (seq : Word) (x : Fault256) : Fault256 :=
  if x.bits = f.bits && x.lanes = f.lanes then { x with escalated := true, seq := some (die, seq) } else x

/-- The parked records of saved warps that wait for a page: context, block, warp and record. -/
def savedOn (s : State) (asid vpage : Nat) : List (Context × Nat × Nat × Fault256) :=
  s.contexts.flatMap fun c => c.blocks.flatMap fun b => b.warps.flatMap fun w =>
    if (gridAt s c.grid).any fun g => g.asid = asid then
      (w.warp.faults.filter fun f => f.seq.isNone && !f.ready && f.pages.any fun q => q.1 = vpage).map fun f =>
        (c, b.blk, w.warp.uid, f)
    else []

/-- Change the record of a saved warp. -/
def modSavedFault (s : State) (ctx uid : Nat) (f : Fault256 → Fault256) : State :=
  { s with contexts := s.contexts.map fun c =>
      if c.id = ctx then { c with blocks := c.blocks.map fun b =>
        { b with warps := b.warps.map fun w =>
          if w.warp.uid = uid then { w with warp := { w.warp with faults := w.warp.faults.map f } } else w } }
      else c }

/-- The engine record of a waiting unit (R151, R324): a part of a die-transfer packet names no thread. -/
def escalateUnit (s : State) (o : Op) (u : Unit) (code : Nat) : State :=
  let x := unitFails s o u
  let packet := match o.kind with
    | .transfer _ _ _ q => q.isSome
    | _ => false
  let rec_ := if packet then faultRecord 7 code 0 x.2 o.asid 0 0 0 0 x.1
    else unitRecord o 7 code x.1 (if u.recv = 0 && (match o.kind with | .units _ => true | _ => false) then u.tag else o.l0) x.2
  let (seq, s) := if packet then postFault s rec_ o.die 0 0 true true else postFault s rec_ o.die o.pos o.blk true false
  modUnit s o.id u.tag u.recv fun y => { y with seq := some seq }

/-- The engine record of a signal update whose resolution cannot complete (R314, R324). -/
def escalateUpdate (s : State) (die i : Nat) (u : Update) (code : Nat) : State :=
  let (seq, s) := postFault s (faultRecord 7 code 0 true u.asid 0 0 0 0 u.va) die 0 0 true true
  modDie s die fun d => { d with updates := updAt i (fun y => { y with seq := some seq }) d.updates }

/-- A resolution that cannot complete (R151): the record of every path, unit and signal update that waits for the
page is posted, with its class and code as they are, and each waits for its reply. -/
def escalate (s : State) (asid vpage code : Nat) : State :=
  let units := s.ops.flatMap fun o => if o.asid = asid then
    o.unitsLeft.filterMap fun u => match u.page, u.seq with
      | some q, none => if q.1 = vpage then some (o, u, q.2) else none
      | _, _ => none
    else []
  let upds := (List.range s.dies.length).flatMap fun d =>
    ((dieOf s d).updates.mapIdx fun i u => (d, i, u)).filter fun x =>
      x.2.2.asid = asid && x.2.2.va / 65536 = vpage && x.2.2.seq.isNone && !(recordOwed s d x.2.2) &&
        updateReady s d x.2.2
  let parked := parkedOn s asid vpage
  let saved := savedOn s asid vpage
  let s := parked.foldl (fun st x =>
    let (c, w, f) := x
    let (seq, st) := postFault st f.bits c.die c.pos
      (w.lane (lowLane (BitVec.ofNat 32 (bits f.bits.toNat 159 128)))).blk false false
    modWarpUid st w.uid fun w => { w with faults := w.faults.map (f.post c.die seq) }) s
  let s := saved.foldl (fun st x =>
    let (c, blk, uid, f) := x
    let (seq, st) := postFault st f.bits c.cdie 0 blk false false
    modSavedFault st c.id uid (f.post c.cdie seq)) s
  let s := units.foldl (fun st x => escalateUnit st x.1 x.2.1 x.2.2) s
  upds.foldl (fun st x => escalateUpdate st x.1 x.2.1 x.2.2 code) s

/-! ### Common parts -/

/-- Copy a page: its bytes, and the poison of its sectors, which a tag mismatch adds to (R347, R368, R373). -/
def copyPage (s : State) (asid : Nat) (sp : Space) (src : Nat) (dp : Space) (dst kd : Nat) (mir : Bool) : State :=
  let s := tagsFail s sp src 65536 kd asid 4
  let data := agentBytes s sp src 65536 kd
  let s := performWrite (noteRead s sp src 65536) dp dst (if dp = .phys && inHbm dst then kd else 0) (data.map some) mir 0 0 []
  ((List.range 2048).filter fun i => s.poison.contains (sp, src / 32 + i)).foldl
    (fun st i => addPoison st dp (dst / 32 + i)) s

/-- A move of a page is the one named. -/
def Move.isOn (m : Move) (asid vpage : Nat) : Bool :=
  match m with
  | .cow _ a v => a = asid && v = vpage
  | .promote _ a v .. => a = asid && v = vpage
  | .demote _ a v .. => a = asid && v = vpage

/-- A move ends; the frame instructions that waited for it go on (R366). -/
def endMove (s : State) (asid vpage : Nat) : State :=
  framesSettle { s with moves := s.moves.filter fun m => !(m.isOn asid vpage) }

/-- A resolution cannot complete: it escalates, clears mv and ends (R151, R368). -/
def giveUp (s : State) (asid vpage code : Nat) : State :=
  endMove (setMv (escalate s asid vpage code) asid vpage 0) asid vpage

/-! ### Copy-on-write (R368, R369) -/

/-- COPY_ON_WRITE_RESOLUTION (R368): one resolution takes its turn on the frame's count. It waits until the accesses
checked under the old entry are performed (R146). -/
def execCopyOnWriteResolution (die : Nat) (asid : BitVec 12) (vpage : Nat) (s : State) :
    Host.Outcome State Fault Refusal :=
  let a := asid.toNat
  if !(s.moves.contains (.cow die a vpage)) then .next s
  else match walk s a (vpage * 65536) with
    | .leaf 0 e at_ =>
      let done := fun (frame : Nat) => putBits (putBits (putBits e 51 16 (frame / 65536)) 4 4 0) 7 7 0
      let old := leafFrame e
      if countOf s old = 1#16 then .next (endMove (writePte s at_ (done old)) a vpage)
      else if accessPending s a vpage 1 then .next s
      else match poolPop s a with
        | none => .next (giveUp s a vpage 1)
        | some (g, s) =>
          let s := copyPage s a .phys old .phys g (keyId s (bits e 59 52)) (bit e 6)
          .next (endMove (dropCount (writePte s at_ (done g)) a old) a vpage)
    | _ => .next (endMove s a vpage)

/-! ### Moves to tier 0 (R370) -/

/-- The entry of the reclaim ring for an old location (R370). -/
def reclaimEntry (asid vpage tier frame : Nat) : List Byte :=
  toBytes 16 (vpage * 65536 + asid * 2 ^ 52 + tier * 2 ^ 64 + frame * 2 ^ 66)

/-- TIER_MOVE (R370): the page is read from its old location and the entry names a pool frame. An empty pool or a
read error escalates and ends the move; a full reclaim ring escalates, and the move waits for room. -/
def execTierMove (die : Nat) (asid : BitVec 12) (vpage : Nat) (readError : Bool) (s : State) :
    Host.Outcome State Fault Refusal :=
  let a := asid.toNat
  match s.moves.find? fun m => m.isOn a vpage with
  | some (.promote d _ _ tier stuck) =>
    if d ≠ die then .next s
    else match walk s a (vpage * 65536) with
      | .leaf 0 e at_ =>
        let old := bits e 51 16
        if !(ringRoom (dieOf s die).reclaim .reclaim 1) then
          if stuck then .next s
          else .next { escalate s a vpage (tier + 1) with
            moves := s.moves.map fun m => if m.isOn a vpage then .promote d a vpage tier true else m }
        else if readError then .next (giveUp s a vpage (tier + 1))
        else match poolPop s a with
          | none => .next (giveUp s a vpage (tier + 1))
          | some (g, s) =>
            let s := copyPage s a (if tier = 2 then .flash else .phys) (old * 65536) .phys g (keyId s 0) (bit e 6)
            let s := writePte s at_ (putBits (putBits (putBits e 51 16 (g / 65536)) 61 60 0) 7 7 0)
            .next (endMove (ringWrite s die .reclaim (reclaimEntry a vpage tier old)) a vpage)
      | .leaf _ _ _ => .next (giveUp s a vpage (tier + 1))
      | .unmapped .. => .next (endMove s a vpage)
  | _ => .next s

/-! ### Demotions (R371) -/

/-- The address of the command that the device is at (R371, R389). -/
def migAddr (d : Die) : Nat := baseAddr d.migbase + d.mighead.toNat % baseUnits d.migbase * 32

/-- A command finishes: its done, abandoned and attempts fields are written and MIGHEAD advances (R389). Sixteen
attempts do not fit the field, and what it then holds is free (log 13). -/
def migFinish (s : State) (die done abandoned attempts : Nat) : State :=
  let at_ := migAddr (dieOf s die)
  let c := devRead s at_ 32
  let free := decide (16 ≤ attempts)
  let attempts := if free then (Config.freeWord s.fresh).toNat else attempts
  let s := if free then { s with fresh := s.fresh + 1 } else s
  let s := devPublish s at_ (toBytes 32 (putBits (putBits (putBits c 128 128 done) 129 129 abandoned) 133 130 attempts))
  modDie s die fun d => { d with mighead := d.mighead + 1 }

/-- The leaf of a page that may be demoted (R371, R407): its entry and its address. -/
def demotable (s : State) (asid vpage : Nat) : Option (Nat × Nat) :=
  match walk s asid (vpage * 65536) with
  | .leaf 0 e at_ =>
    if bits e 61 60 = 0 && !(bit e 5) && !(bit e 4) && !(bit e 6) && decide ((countOf s (leafFrame e)).toNat ≤ 1)
    then some (e, at_) else none
  | _ => none

/-- A demotion that its die is making. -/
def demotionOf (s : State) (die : Nat) : Option Move :=
  s.moves.find? fun m => match m with
    | .demote d .. => d = die
    | _ => false

/-- MIGRATION_COMMAND (R371, R389): the device takes the next command and starts its first attempt, or abandons it
at once: a malformed command too (R11, log 76). -/
def execMigrationCommand (die : Nat) (s : State) : Host.Outcome State Fault Refusal :=
  let d := dieOf s die
  if !(decide (d.mighead.toNat < d.migtail.toNat)) || !(baseUsable d.migbase 32) || (demotionOf s die).isSome then .next s
  else
    let c := devRead s (migAddr d) 32
    let asid := bits c 63 52
    let vpage := bits c 51 0 / 65536
    let tier := bits c 65 64
    let target := bits c 127 66
    let legal := bits c 255 134 = 0 && ((tier = 2 && decide (target < 2 ^ 36)) || (tier = 1 && inGfam (target * 65536)))
    match (if legal && !(moveOn s asid vpage) then demotable s asid vpage else none) with
    | none => .next (migFinish (noteWalk s die asid (vpage * 65536)) die 0 1 0)
    | some (e, _) => .next { s with moves := s.moves ++ [.demote die asid vpage (leafFrame e) tier target 1 false] }

/-- DEMOTION_COPY_DONE (R371): the copy of an attempt is in place and mv is set; once the accesses checked before are
performed, the page switches, or the attempt was in vain. -/
def execDemotionCopyDone (die : Nat) (s : State) : Host.Outcome State Fault Refusal :=
  match demotionOf s die with
  | some (.demote _ asid vpage frame tier target k dirty) =>
    match demotable s asid vpage with
    | none => .next (migFinish (endMove (setMv s asid vpage 0) asid vpage) die 0 1 k)
    | some (e, at_) =>
      let s := if bit e 7 then s
        else
          let s := if tier = 1 then copyPage s asid .phys frame .phys (target * 65536) (keyId s (bits e 59 52)) false
            else copyPage s asid .phys frame .flash (target * 65536) (keyId s (bits e 59 52)) false
          setMv s asid vpage 1
      if accessPending s asid vpage 1 then .next s
      else if !dirty then
        let n := putBits (putBits (putBits (putBits e 51 16 target) 61 60 tier) 59 52 0) 7 7 0
        let s := poolPush (setCount (writePte s at_ n) frame 0) asid frame
        .next (migFinish (endMove s asid vpage) die 1 0 k)
      else
        let s := setMv s asid vpage 0
        if bits (asidEntry s asid) 399 396 < k then .next (migFinish (endMove s asid vpage) die 0 1 k)
        else
          let next := fun (m : Move) =>
            if m.isOn asid vpage then Move.demote die asid vpage frame tier target (k + 1) false else m
          .next (framesSettle { s with moves := s.moves.map next })
  | _ => .next s

end Sys2Proof.Machine
end

