-- ==== Sys2Proof/Machine/Checkpoint.lean ====
section
/-! DEFINITION. Checkpoint commands (R410 to R413). -/

namespace Sys2Proof.Machine

/-! ### Quiet (R410) -/

/-- The package is quiet (R410). -/
def packageQuiet (s : State) : Bool :=
  !(s.grids.any fun g => g.hoods.any fun h => h.blocks.any fun b => b.st = .placed) &&
  !(s.contexts.any fun c => decide (1 ≤ c.st) && decide (c.st ≤ 3)) &&
  !(s.ops.any fun o => match o.kind with
    | .transfer .. | .ngu .. => true
    | _ => false) &&
  (s.mirrors = [] || s.mirBroken)

/-- CKSTAT (R410 Table 9). -/
def ckstat (s : State) : BitVec 64 :=
  BitVec.ofNat 64 ((if s.ckpt.isSome then 2 ^ 63 else 0) + (if packageQuiet s then 2 ^ 62 else 0) +
    s.ckerr.toNat * 2 ^ 56 + s.ckshard.toNat)

/-! ### Commands (R411) -/

/-- The store that a command names (R2, R383, R411): without an accepted Yew store, the one the host names. -/
def ckStore (s : State) (c : Nat) : Space :=
  if bits c 9 8 = 0 && s.form = 2 && accepted s 8 then .yew else .nvme

/-- Bytes from `off` lie inside the store; the Yew store holds 2 TiB, the host's namespace is the host's to size. -/
def inStore (sp : Space) (off n : Nat) : Bool := sp ≠ .yew || decide (off + n ≤ 2 ^ 41)

/-- The shards of a table of 16-byte entries at a physical address (R411): address, ASID, length. -/
def shardsOf (s : State) (tab n : Nat) : List (Nat × Nat × Nat) :=
  (List.range n).map fun i => let e := devRead s (tab + 16 * i) 16; (bits e 51 0, bits e 63 52, bits e 103 64)

/-- A malformed command or shard table (R411). -/
def ckMalformed (s : State) (cmd c : Nat) : Bool :=
  let n := bits c 191 160
  let op := bits c 1 0
  cmd % 64 ≠ 0 || op = 0 || op = 3 || decide (2 ≤ bits c 9 8) || bits c 7 2 ≠ 0 || bits c 63 10 ≠ 0 ||
    bits c 159 128 ≠ 0 || bits c 383 320 ≠ 0 || bits c 447 384 % 65536 ≠ 0 || n = 0 || decide (65536 < n) ||
    (op = 1 && ((shardsOf s (bits c 255 192) n).any (fun x => x.2.2 % 4096 ≠ 0) ||
      (List.range n).any (fun i => bits (devRead s (bits c 255 192 + 16 * i) 16) 127 104 ≠ 0) ||
      !(rangeInHbm (bits c 319 256) (64 + 64 * n + 384))))

/-- The page-sized runs of a virtual range. -/
def pageRuns (va n : Nat) : List (Nat × Nat) :=
  if n = 0 then []
  else (rangeFrom (va / 65536) ((va + n - 1) / 65536 + 1)).map fun p =>
    let lo := max va (65536 * p)
    (lo, min (va + n) (65536 * p + 65536) - lo)

/-- What stops the translations of a range: the pages to resolve, or a denial. -/
def rangePages (s : State) (asid va n : Nat) (write : Bool) : List (Nat × Denial) :=
  (pageRuns va n).filterMap fun r => match translate s asid r.1 write false (some false) with
    | .error d => some (r.1 / 65536, d)
    | .ok _ => none

/-- The resolutions that some shards need are started; none when no page needs one (R151). -/
def shardsWait (s : State) (l : List (Nat × Nat × Nat)) (write : Bool) : Option State :=
  let w := l.flatMap fun x => ((rangePages s x.2.1 x.1 x.2.2 write).filter fun q => q.2.cls = 7).map fun q => (x.2.1, q)
  if w = [] then none else some (w.foldl (fun st x => startMove st 0 x.1 x.2.1 x.2.2.code) s)

/-- What the reads of a shard that fails leave: each malformed entry counts (R358), and each tag that fails marks its unit
(R373). -/
def shardFails (s : State) (x : Nat × Nat × Nat) (write : Bool) : State :=
  (pageRuns x.1 x.2.2).foldl (fun st r =>
    match translate st x.2.1 r.1 write false (some false) with
    | .ok t => if write then st else tagsFail st .phys t.pa r.2 t.kd x.2.1 0
    | .error d => noteDenial st 0 d) s

/-- The bytes of a shard; none when a page of it cannot be read. -/
def readShard (s : State) (x : Nat × Nat × Nat) : Option (List Byte) :=
  (pageRuns x.1 x.2.2).foldl (fun acc r => acc.bind fun l =>
    match translate s x.2.1 r.1 false false (some false) with
    | .ok t => if (readError s .phys t.pa r.2 t.kd x.2.1).isSome then none
      else some (l ++ agentBytes s .phys t.pa r.2 t.kd)
    | .error _ => none) (some [])

/-- Write the bytes of a shard to its range; none when a page of it cannot be written. -/
def writeShard (s : State) (x : Nat × Nat × Nat) (bs : List Byte) : Option State :=
  ((pageRuns x.1 x.2.2).foldl (fun acc r => acc.bind fun (st, l) =>
    match translate st x.2.1 r.1 true false (some false) with
    | .ok t => some (performWrite st .phys t.pa t.kd ((l.take r.2).map some) t.mir 0 0 [], l.drop r.2)
    | .error _ => none) (some (s, bs))).map fun y => y.1

/-- The command ends: busy clears when CHECKPOINT_COMPLETE comes (R411). -/
def ckEnds (s : State) (err shard : Nat) : State := { s with ckpt := some ⟨err, BitVec.ofNat 32 shard, none⟩ }

/-- A command that does not start: its error is in CKSTAT at once. -/
def ckRefused (s : State) (err : Nat) : State := { s with ckerr := BitVec.ofNat 6 err }

/-- A command of an operation runs as its 64 bytes say (R411), unless its shards have pages to wait for: then busy is set,
and it goes on when it is delivered again. -/
def ckCommand (s : State) (op cmd : Nat) (run : Nat → State → Except State State) : State :=
  let go := fun (c : Nat) => match run c s with
    | .ok t => t
    | .error t => { t with ckpt := some ⟨0, 0, some (cmd, c)⟩ }
  match s.ckpt with
  | some ⟨_, _, some (a, c)⟩ => if a = cmd ∧ bits c 1 0 = op then go c else s
  | some _ => s
  | none =>
    let c := devRead s cmd 64
    if bits c 1 0 = 3 - op then s
    else if !(packageQuiet s) then ckRefused s 1
    else if ckMalformed s cmd c then ckRefused s 5
    else go c

/-! ### Save (R412) -/

/-- Bytes of a shard's place in the store: 64 KiB aligned (R412). -/
def storeSpan (n : Nat) : Nat := ceilDiv n 65536 * 65536

/-- A manifest entry (R412; its layout is log 42). -/
def manifestEntry (x : Nat × Nat × Nat) (off : Nat) (digest : List Byte) : List Byte :=
  toBytes 8 (x.1 + x.2.1 * 2 ^ 52) ++ toBytes 8 x.2.2 ++ toBytes 8 off ++ toBytes 8 0 ++ digest

/-- The manifest's header (R412; log 42). -/
def manifestHeader (s : State) (id n : Nat) : List Byte :=
  toBytes 8 s.fabnode.toNat ++ toBytes 8 id ++ toBytes 8 s.measgen.toNat ++ toBytes 8 n ++ toBytes 8 s.ns ++ toBytes 24 0

/-- Write the shards in table order from an offset (R412): the state, the next offset, the entries; or the index of
the shard that fails. -/
def saveShards (sp : Space) : List (Nat × Nat × Nat) → Nat → Nat → State → List Byte → Except (Nat × State) (State × Nat × List Byte)
  | [], _, off, s, acc => .ok (s, off, acc)
  | x :: t, i, off, s, acc =>
    match readShard s x with
    | none => .error (i, shardFails s x false)
    | some bs =>
      if inStore sp off x.2.2 then
        saveShards sp t (i + 1) (off + storeSpan x.2.2) (clearPoison (writeBytes s sp off bs) sp off x.2.2)
          (acc ++ manifestEntry x off (sha256 bs))
      else .error (i, s)

/-- CHECKPOINT_SAVE (R411, R412): CKCMD names a save command. -/
def execCheckpointSave (cmd : Nat) (s : State) : Host.Outcome State Fault Refusal :=
  .next (ckCommand s 1 cmd fun c s =>
    let sp := ckStore s c
    let shards := shardsOf s (bits c 255 192) (bits c 191 160)
    match shardsWait s shards false with
    | some s' => .error s'
    | none =>
      match saveShards sp shards 0 (bits c 447 384) s [] with
      | .error (i, s) => .ok (ckEnds s 4 i)
      | .ok (s, off, es) =>
        let m := manifestHeader s (bits c 127 64) shards.length ++ es
        let m := m ++ (List.range 384).map (Config.identitySignature m)
        if inStore sp off m.length then
          .ok (ckEnds (writeBytes (performWrite s .phys (bits c 319 256) (keyId s 0) (m.map some) false 0 0 []) sp off m) 0 0)
        else .ok (ckEnds s 4 shards.length))

/-! ### Restore (R413) -/

/-- The shards that a manifest lists, with their store offsets and digests. -/
def manifestShards (m : List Byte) (n : Nat) : List ((Nat × Nat × Nat) × Nat × List Byte) :=
  (List.range n).map fun i =>
    let e := (m.drop (64 + 64 * i)).take 64
    let f := fun k => ofBytes ((e.drop (8 * k)).take 8)
    ((bits (f 0) 51 0, bits (f 0) 63 52, f 1), f 2, e.drop 32)

/-- The signature of a manifest verifies (R413): this package's key makes one signature of a message; whether another
chain's key accepts is free, because the chain's layout is not in the spec. -/
def manifestSigned (s : State) (cert : Nat) (signed sig : List Byte) : Bool :=
  if cert = 0 then sig = (List.range 384).map (Config.identitySignature signed)
  else Config.certificateAccepts s.fresh signed sig

/-- Restore the shards in order (R413): the error and the shard at which it stops. -/
def restoreShards (sp : Space) : List ((Nat × Nat × Nat) × Nat × List Byte) → Nat → State → State × Nat × Nat
  | [], _, s => (s, 0, 0)
  | (x, off, digest) :: t, i, s =>
    if !(inStore sp off x.2.2) || isPoisoned s sp off x.2.2 then (s, 4, i)
    else
      let bs := readBytes s sp off x.2.2
      if sha256 bs ≠ digest then (s, 3, i)
      else match writeShard s x bs with
        | none => (shardFails s x true, 4, i)
        | some s => restoreShards sp t (i + 1) s

/-- CHECKPOINT_RESTORE (R411, R413): CKCMD names a restore command. -/
def execCheckpointRestore (cmd : Nat) (s : State) : Host.Outcome State Fault Refusal :=
  .next (ckCommand s 2 cmd fun c s =>
    let sp := ckStore s c
    let n := bits c 191 160
    let off := bits c 447 384
    let len := 64 + 64 * n
    if !(inStore sp off (len + 384)) || isPoisoned s sp off (len + 384) then .ok (ckEnds s 4 0)
    else
      let m := readBytes s sp off len
      let ok := manifestSigned s (bits c 511 448) m (readBytes s sp (off + len) 384)
      let s := if bits c 511 448 = 0 then s else { s with fresh := s.fresh + 1 }
      if !ok then .ok (ckEnds s 2 0)
      else match shardsWait s ((manifestShards m n).map fun x => x.1) true with
        | some s' => .error s'
        | none =>
          let (s, err, shard) := restoreShards sp (manifestShards m n) 0 s
          .ok (ckEnds s err shard))

/-- CHECKPOINT_COMPLETE (R411): busy clears and CKSTAT shows the outcome. -/
def execCheckpointComplete (s : State) : Host.Outcome State Fault Refusal :=
  match s.ckpt with
  | some ⟨_, _, some _⟩ => .next s
  | some k => .next { s with ckpt := none, ckerr := BitVec.ofNat 6 k.err, ckshard := k.shard }
  | none => .next s

end Sys2Proof.Machine
end

