-- ==== Sys2Proof/Machine/Queues.lean ====
section
/-! DEFINITION. Rings, queue descriptors, packets and queue reset (R308 to R316, R325). -/

namespace Sys2Proof.Machine

/-! ### Queue descriptors (R308) -/

/-- The physical address of a queue's descriptor. -/
def qdescAddr (s : State) (die q : Nat) : Nat := baseAddr (dieOf s die).qdescBase + 64 * q

/-- The descriptor of a queue as a number (R308 Table 2). -/
def qdesc (s : State) (die q : Nat) : Nat := devRead s (qdescAddr s die q) 64

/-- Write a field of a descriptor. -/
def setQdesc (s : State) (die q hi lo v : Nat) : State :=
  devWrite s (qdescAddr s die q) 64 (putBits (qdesc s die q) hi lo v)

/-- The queue is there (R4): 4,096 rings on each of four dies. -/
def isQueue (die q : Nat) : Bool := decide (die < 4) && decide (q < 4096)

/-- A reserved bit of the descriptor is set (R11, R308 Table 2). -/
def qdescBad (x : Nat) : Bool :=
  bits x 511 248 ≠ 0 || bits x 237 232 ≠ 0 || bits x 215 213 ≠ 0 || bits x 207 192 ≠ 0

def qState (x : Nat) : Nat := bits x 239 238
def qErr (x : Nat) : Nat := bits x 247 240
def qAsid (x : Nat) : Nat := bits x 227 216
def qVf (x : Nat) : Nat := bits x 231 228
def qSize (x : Nat) : Nat := 2 ^ bits x 212 208
def qWrite (x : Nat) : Nat := bits x 191 128
def qRead (x : Nat) : Nat := bits x 127 64
def qBase (x : Nat) : Nat := bits x 63 0

/-- The virtual address of a packet's ring slot (R308). -/
def slotVa (x idx : Nat) : Nat := qBase x + idx % qSize x * 64

/-! ### Doorbells and starts (R309, R325) -/

/-- The doorbell page of a queue is in a view of BAR 2 (R388): 0 is the physical function's, which has every page, n + 1 that
of virtual function n, which has those of the queues whose descriptor names it. -/
def seesDoorbell (view x : Nat) : Bool := view = 0 || (decide (view ≤ 16) && qVf x + 1 = view)

/-- A doorbell is written through a view of BAR 2 (R309, R388): accepted, an overrun, or ignored. -/
def ringDoorbell (view die q : Nat) (v : BitVec 64) (s : State) : State :=
  let x := qdesc s die q
  if !(isQueue die q) || !(seesDoorbell view x) || qState x ≠ 1 then s
  else if qWrite x ≤ v.toNat ∧ v.toNat ≤ qRead x + qSize x then setQdesc s die q 191 128 v.toNat
  else queueError s die q 1

/-- QTAIL_WRITE (R309, R388): on a die through the view that `die` carries above its two low bits. -/
def execQtailWrite (die q : Nat) (v : BitVec 64) (s : State) : Host.Outcome State Fault Refusal :=
  .next (ringDoorbell (die / 4) (die % 4) q v s)

/-- QUEUE_START (R325): QCTL with cmd 1, in a package whose four dies have passed (R379). A malformed descriptor is not
started (R11, log 76). -/
def execQueueStart (die q : Nat) (s : State) : Host.Outcome State Fault Refusal :=
  let d := dieOf s die
  if !s.passed || !(isQueue die q) || bit d.qctl.toNat 31 || qState (qdesc s die q) ≠ 0 || !d.qdescWritten ||
      !(s.featWritten.getD 0 false) || qdescBad (qdesc s die q)
  then .next s
  else
    let s := modDie s die fun d => { d with qctl := BitVec.ofNat 32 (q + 2 ^ 12), halted := d.halted.filter (· ≠ q) }
    .next (setQdesc (setQdesc s die q 239 238 1) die q 247 240 0)

/-! ### Starting packets (R310, R311, R312, R316) -/

/-- A packet may start (R309, R310, R384): the four dies have passed (R379); the queue runs, or its packets before an
overrun still do; a packet is there; no earlier packet with hold is started and incomplete, whose completion its signal's
update is (R352); the queue's function is not being switched out; no checkpoint command runs (R411). -/
def startable (s : State) (die q : Nat) : Bool :=
  let x := qdesc s die q
  let d := dieOf s die
  s.passed && (qState x = 1 || (qState x = 2 && qErr x = 1 && !(d.halted.contains q))) && decide (qRead x < qWrite x) &&
    isQueue die q && !(d.packets.any fun p => p.queue = q && p.hold) && !(bit d.cpstat.toNat 29) &&
    (s.activeVf = 16 || s.activeVf = qVf x) && s.ckpt.isNone

/-- The packet is malformed (R311, R312, R316). -/
def packetBad (p : Nat) : Bool :=
  let kind := bits p 3 0
  let odd := fun (hi lo : Nat) => bits p hi lo % 8 ≠ 0
  kind = 0 || decide (4 < kind) || bits p 15 5 ≠ 0 || bits p 63 18 ≠ 0 || (kind ≠ 3 && bits p 17 16 ≠ 0) ||
  match kind with
  | 1 => bits p 127 64 % 256 ≠ 0 || odd 191 128 || bits p 511 192 ≠ 0
  | 2 => (List.range 5).any (fun i => odd (64 * i + 127) (64 * i + 64)) || odd 447 384 || bits p 511 448 ≠ 0
  | 3 => odd 127 64 || bits p 511 192 ≠ 0 || decide (1 < bits p 17 16)
  | 4 => odd 319 256 || bits p 511 320 ≠ 0 || decide (2 ^ 40 < bits p 255 192)
  | _ => true

/-- The completion signal of a packet, 0 for none (R312). -/
def packetCsig (p : Nat) : Nat :=
  match bits p 3 0 with
  | 1 => bits p 191 128
  | 2 => bits p 447 384
  | 4 => bits p 319 256
  | _ => 0

/-- A completion value that the command processor writes to a packet's signal (R314). -/
def packetSignal (s : State) (die q asid csig : Nat) (value : BitVec 64) (pkt : Option Nat) : State :=
  queueUpdate s die { queue := q, own := true, asid := asid, va := csig, value := value, add := false, grid := none,
                      pkt := pkt, seq := none, prov := [], negative := true }

/-- A malformed packet stops its queue, and its aligned completion signal receives −7 (R316). -/
def packetMalformed (s : State) (die q asid p : Nat) : State :=
  let c := packetCsig p
  let s := queueError s die q 2
  if c % 8 = 0 then packetSignal s die q asid c (negative 7) none else s

/-- The started packet joins the queue's started packets and the read index moves on (R310). -/
def packetStarted (s : State) (die q idx p : Nat) (sigs : List Nat) : State :=
  let s := setQdesc s die q 127 64 (idx + 1)
  modDie s die fun d => { d with packets := d.packets ++
    [{ queue := q, idx := idx, hold := bit p 4, kind := bits p 3 0, csig := packetCsig p, sigs := sigs,
       rereads := false, lastRead := s.ns }] }

/-- Read the next packet of a queue and, when it is of a kind, start it with its body (R310, R316). -/
def startPacket (s : State) (die q kind : Nat) (body : Nat → Nat → State → State) : State :=
  if !(startable s die q) then s
  else
    let x := qdesc s die q
    let idx := qRead x
    match translate s (qAsid x) (slotVa x idx) false false none with
    | .error d => if d.cls = 7 then startMove s die (qAsid x) (slotVa x idx / 65536) d.code else queueError (noteDenial s die d) die q 8
    | .ok t =>
      match cpRead s t 64 with
      | none => queueError (readNotes s die (qAsid x) (slotVa x idx) 64) die q 8
      | some p =>
        if packetBad p then packetMalformed (noteRead s .phys t.pa 64) die q (qAsid x) p
        else if bits p 3 0 ≠ kind then s
        else body p idx s

/-- PACKET_DISPATCH (R313, R320, R321). -/
def execPacketDispatch (die q : Nat) (s : State) : Host.Outcome State Fault Refusal :=
  .next (startPacket s die q 1 fun p idx s =>
    let x := qdesc s die q
    let va := bits p 127 64
    let csig := packetCsig p
    let fails := fun (s : State) =>
      packetSignal (queueError (packetStarted s die q idx p []) die q 3) die q (qAsid x) csig (negative 3) (some idx)
    match readRecord s (qAsid x) va with
    | .error (some d) => startMove s die (qAsid x) (va / 65536) d.code
    | .error none => fails (readNotes s die (qAsid x) va 256)
    | .ok r =>
      match launchPending s die (qAsid x) r with
      | some (at_, d) => startMove s die (qAsid x) (at_ / 65536) d.code
      | none =>
        if launchCheck s die (qAsid x) r ≠ 0 then fails (launchNotes s die (qAsid x) r)
        else startGrid (packetStarted s die q idx p []) die q idx (qAsid x) (qVf x) r va csig)

/-! ### Barrier packets (R313, R315) -/

/-- What the read of a named signal gives: a value, or a wait for a resolution. One whose bytes are poisoned or whose tag
fails (R347, R373) counts like one that cannot be reached (log 68). -/
def readSignal (s : State) (asid va : Nat) : Except Denial Int :=
  match translate s asid va false false (some false) with
  | .ok t => .ok (match cpRead s t 8 with
    | some v => sintN 64 v
    | none => -7)
  | .error d => if d.cls = 7 then .error d else .ok (-7)

/-- What the read of a named signal leaves: a malformed entry counts (R358), a tag that fails marks its unit (R373). -/
def signalNotes (s : State) (die asid va : Nat) : State :=
  match translate s asid va false false (some false) with
  | .error d => noteDenial s die d
  | .ok t => noteRead (tagsFail s .phys t.pa 8 t.kd asid 0) .phys t.pa 8

/-- Evaluate a waiting barrier packet (R313). -/
def evalBarrier (s : State) (die q : Nat) (p : Packet) : State :=
  let asid := qAsid (qdesc s die q)
  let named := p.sigs.filter (· ≠ 0)
  let s := named.foldl (fun st va => signalNotes st die asid va) s
  match named.findSome? fun va => (match readSignal s asid va with
    | .error d => some (va, d)
    | .ok _ => none) with
  | some (va, d) => startMove s die asid (va / 65536) d.code
  | none =>
    let vals := named.filterMap fun va => (match readSignal s asid va with
      | .ok v => some v
      | .error _ => none)
    match vals.find? fun v => decide (v < 0) with
    | some v => packetSignal (queueError s die q 5) die q asid p.csig (BitVec.ofInt 64 v) (some p.idx)
    | none =>
      if vals.all fun v => v = 0 then completePacket s die q p.idx asid p.csig none []
      else modDie s die fun d => { d with
        packets := updWhere (fun x => x.queue = q ∧ x.idx = p.idx)
          (fun x => { x with rereads := false, lastRead := s.ns }) d.packets }

/-- The waiting barrier packet of a queue. -/
def barrierAt (s : State) (die q idx : Nat) : Option Packet :=
  if (dieOf s die).updates.any fun u => u.queue = q && u.pkt = some idx then none
  else (dieOf s die).packets.find? fun p => p.queue = q && p.idx = idx && p.kind = 2

/-- PACKET_BARRIER (R313): the packet starts and reads its list. -/
def execPacketBarrier (die q : Nat) (s : State) : Host.Outcome State Fault Refusal :=
  .next (startPacket s die q 2 fun p idx s =>
    let sigs := (List.range 5).map fun i => bits p (64 * i + 127) (64 * i + 64)
    let s := packetStarted s die q idx p sigs
    match barrierAt s die q idx with
    | some b => evalBarrier (modDie s die fun d => { d with
        packets := updWhere (fun x => x.queue = q ∧ x.idx = idx) (fun x => { x with rereads := true }) d.packets })
        die q b
    | none => s)

/-- BARRIER_REEVALUATE (R313, R315): a packet that was notified re-reads its list. -/
def execBarrierReevaluate (die q packet : Nat) (s : State) : Host.Outcome State Fault Refusal :=
  match barrierAt s die q packet with
  | some p => .next (if p.rereads then evalBarrier s die q p else s)
  | none => .next s

/-- BARRIER_REREAD_TIMEOUT (R315): 1,048,576 cycles at 1.2 GHz have passed since the last read. -/
def execBarrierRereadTimeout (die q packet : Nat) (s : State) : Host.Outcome State Fault Refusal :=
  match barrierAt s die q packet with
  | some p => .next (if p.lastRead * 6 + 1048576 * 5 ≤ s.ns * 6 then evalBarrier s die q p else s)
  | none => .next s

/-! ### Signal and die-transfer packets (R313) -/

/-- PACKET_SIGNAL (R313): the update is performed by COMPLETION_SIGNAL_UPDATE. -/
def execPacketSignal (die q : Nat) (s : State) : Host.Outcome State Fault Refusal :=
  .next (startPacket s die q 3 fun p idx s =>
    let s := packetStarted s die q idx p []
    addUpdate s die { queue := q, own := true, asid := qAsid (qdesc s die q), va := bits p 127 64,
                        value := BitVec.ofNat 64 (bits p 191 128), add := bit p 16, grid := none, pkt := some idx,
                        seq := none, prov := [], negative := false })

/-- PACKET_DIE_TRANSFER (R313): one engine operation of the die. -/
def execPacketDieTransfer (die q : Nat) (s : State) : Host.Outcome State Fault Refusal :=
  .next (startPacket s die q 4 fun p idx s =>
    let src := bits p 127 64
    let dst := bits p 191 128
    let n := bits p 255 192
    let asid := qAsid (qdesc s die q)
    let us := transferUnits asid src dst n
    let s := packetStarted s die q idx p []
    let o : Op :=
      { id := s.nextId, uid := s.nextId, die := die, pos := 144, slot := 0, grid := s.nextId, blk := 0, lanes := 0, l0 := 0,
        pc := 0, asid := asid, kind := .transfer us (transferOrdered src dst n) (packetCsig p) (some (q, idx)),
        after := [], bar := none, secs := [], cov := 0, stamp := 0, cyc := (dieOf s die).cycles, dropped := false, mir := false,
        path := 0, laneBlk := [], gone := 0, kern := s.nextId, fl := 0 }
    if us = [] then transferDone { s with nextId := s.nextId + 1 } o (packetCsig p) (some (q, idx))
    else { s with ops := s.ops ++ [o], nextId := s.nextId + 1 })

/-! ### Queue reset (R325) -/

/-- The transfer operations of a queue's packets. -/
def queueTransfer (o : Op) (die q : Nat) : Bool :=
  match o.kind with
  | .transfer _ _ _ (some (k, _)) => o.die = die && k = q
  | _ => false

/-- Steps 1 to 3 and 6 of a queue reset (R325): packets stop, the grids end with −5, every engine operation of the queue's
work is discarded, and every other started packet's signal receives −5. -/
def resetQueue (s : State) (die q : Nat) : State :=
  let asid := qAsid (qdesc s die q)
  let s := setQdesc s die q 239 238 3
  let mine := s.grids.filter fun g => g.die = die && g.queue = q
  let gs := mine.filter fun g => g.ended.isNone && !g.complete
  let left := ((dieOf s die).packets.filter fun p => p.queue = q).filter fun p =>
    !(gs.any fun g => g.pkt = p.idx) &&
      !((dieOf s die).updates.any fun u => u.queue = q && u.pkt = some p.idx && (u.negative || u.grid.isSome))
  let s := modDie s die fun d => { d with
    updates := d.updates.filter fun u => ¬(u.queue = q ∧ u.own ∧ u.pkt.isSome ∧ ¬u.negative ∧ u.grid.isNone) }
  let s := gs.foldl (fun st g => endGrid st g.id 5) s
  let s := { s with ops := s.ops.filter fun o => !(queueTransfer o die q) && !(mine.any fun g => o.grid = g.id && o.isEngine) }
  let s := left.foldl (fun st p => packetSignal st die q asid p.csig (negative 5) (some p.idx)) s
  modDie s die fun d => { d with resetting := q :: d.resetting }

/-- QUEUE_RESET (R325): QCTL with cmd 2. -/
def execQueueReset (die q : Nat) (s : State) : Host.Outcome State Fault Refusal :=
  if !(isQueue die q) || bit (dieOf s die).qctl.toNat 31 then .next s
  else
    let s := modDie s die fun d => { d with qctl := BitVec.ofNat 32 (q + 2 ^ 13 + 2 ^ 31) }
    .next (resetQueue s die q)

/-- Everything of a resetting queue is at its end (R325 steps 4 to 6), the updates of its kernels' transfers too. -/
def resetDone (s : State) (die q : Nat) : Bool :=
  let d := dieOf s die
  let gs := s.grids.filter fun g => g.die = die && g.queue = q
  !(d.packets.any fun p => p.queue = q) && !(d.updates.any fun u => u.queue = q && u.own) &&
    !(s.dies.any fun x => x.updates.any fun u => !u.own && u.prov.any fun w => gs.any fun g => g.id = w.1) &&
    gs.all (fun g => gridQuiet s g.id && !(d.pcrs.any fun r => r.grid = g.id && !r.written))

/-- QUEUE_RESET_REPORT (R325 step 7): for the queue whose reset is complete, the oldest first. -/
def execQueueResetReport (die : Nat) (s : State) : Host.Outcome State Fault Refusal :=
  match (dieOf s die).resetting.reverse.find? (resetDone s die) with
  | none => .next s
  | some q =>
    let s := modDie s die fun d => { d with
      resetting := d.resetting.filter (· ≠ q),
      qctl := if bits d.qctl.toNat 11 0 = q then BitVec.ofNat 32 (putBits d.qctl.toNat 31 31 0) else d.qctl }
    .next (setQdesc (setQdesc s die q 247 240 6) die q 239 238 0)

end Sys2Proof.Machine
end

