-- ==== Sys2Proof/Decode.lean ====
section
/-! DEFINITION. Decoding and encoding of instruction words.

`decodeWord` reads a thread instruction word (R61, R67) and answers the class 1 code of the illegal ones.
`decodeX` reads a Xlorekq word (R304). The words of the two sets overlap, so each agent has its own
decoder (log 7). -/

namespace Sys2Proof

/-- Bits `lo` to `lo + n - 1` of a word, as a field of width `n` (R8, R61). -/
def fld (w lo n : Nat) : BitVec n := BitVec.ofNat n (w / 2 ^ lo)

/-- The word of a thread instruction, from the formats of R61 and the codes of R65 (Table 3) and R66
(Table 4); 0, which is no instruction (R67), for a row without a thread word. -/
def encode : Instr → Nat
  | .add d a b => 1 + 524288 * d.toNat + 4096 * a.toNat + 32 * b.toNat
  | .sub d a b => 2 + 524288 * d.toNat + 4096 * a.toNat + 32 * b.toNat
  | .and d a b => 3 + 524288 * d.toNat + 4096 * a.toNat + 32 * b.toNat
  | .or d a b => 4 + 524288 * d.toNat + 4096 * a.toNat + 32 * b.toNat
  | .xor d a b => 5 + 524288 * d.toNat + 4096 * a.toNat + 32 * b.toNat
  | .andn d a b => 6 + 524288 * d.toNat + 4096 * a.toNat + 32 * b.toNat
  | .shl d a b => 7 + 524288 * d.toNat + 4096 * a.toNat + 32 * b.toNat
  | .shr d a b => 8 + 524288 * d.toNat + 4096 * a.toNat + 32 * b.toNat
  | .sra d a b => 9 + 524288 * d.toNat + 4096 * a.toNat + 32 * b.toNat
  | .rotl d a b => 0xa + 524288 * d.toNat + 4096 * a.toNat + 32 * b.toNat
  | .min d a b => 0xb + 524288 * d.toNat + 4096 * a.toNat + 32 * b.toNat
  | .max d a b => 0xc + 524288 * d.toNat + 4096 * a.toNat + 32 * b.toNat
  | .minu d a b => 0xd + 524288 * d.toNat + 4096 * a.toNat + 32 * b.toNat
  | .maxu d a b => 0xe + 524288 * d.toNat + 4096 * a.toNat + 32 * b.toNat
  | .addsat d a b => 0xf + 524288 * d.toNat + 4096 * a.toNat + 32 * b.toNat
  | .subsat d a b => 0x10 + 524288 * d.toNat + 4096 * a.toNat + 32 * b.toNat
  | .uadd d a b => 0x70000001 + 524288 * d.toNat + 4096 * a.toNat + 32 * b.toNat
  | .usub d a b => 0x70000002 + 524288 * d.toNat + 4096 * a.toNat + 32 * b.toNat
  | .uand d a b => 0x70000003 + 524288 * d.toNat + 4096 * a.toNat + 32 * b.toNat
  | .uor d a b => 0x70000004 + 524288 * d.toNat + 4096 * a.toNat + 32 * b.toNat
  | .uxor d a b => 0x70000005 + 524288 * d.toNat + 4096 * a.toNat + 32 * b.toNat
  | .uandn d a b => 0x70000006 + 524288 * d.toNat + 4096 * a.toNat + 32 * b.toNat
  | .ushl d a b => 0x70000007 + 524288 * d.toNat + 4096 * a.toNat + 32 * b.toNat
  | .ushr d a b => 0x70000008 + 524288 * d.toNat + 4096 * a.toNat + 32 * b.toNat
  | .usra d a b => 0x70000009 + 524288 * d.toNat + 4096 * a.toNat + 32 * b.toNat
  | .urotl d a b => 0x7000000a + 524288 * d.toNat + 4096 * a.toNat + 32 * b.toNat
  | .umin d a b => 0x7000000b + 524288 * d.toNat + 4096 * a.toNat + 32 * b.toNat
  | .umax d a b => 0x7000000c + 524288 * d.toNat + 4096 * a.toNat + 32 * b.toNat
  | .uminu d a b => 0x7000000d + 524288 * d.toNat + 4096 * a.toNat + 32 * b.toNat
  | .umaxu d a b => 0x7000000e + 524288 * d.toNat + 4096 * a.toNat + 32 * b.toNat
  | .uaddsat d a b => 0x7000000f + 524288 * d.toNat + 4096 * a.toNat + 32 * b.toNat
  | .usubsat d a b => 0x70000010 + 524288 * d.toNat + 4096 * a.toNat + 32 * b.toNat
  | .mul d a b => 0x4000000 + 524288 * d.toNat + 4096 * a.toNat + 32 * b.toNat
  | .mulhi d a b => 0x4000001 + 524288 * d.toNat + 4096 * a.toNat + 32 * b.toNat
  | .mulhu d a b => 0x4000002 + 524288 * d.toNat + 4096 * a.toNat + 32 * b.toNat
  | .dot4s d a b => 0x4000003 + 524288 * d.toNat + 4096 * a.toNat + 32 * b.toNat
  | .dot4u d a b => 0x4000004 + 524288 * d.toNat + 4096 * a.toNat + 32 * b.toNat
  | .popc d a => 0x4000005 + 524288 * d.toNat + 4096 * a.toNat
  | .clz d a => 0x4000006 + 524288 * d.toNat + 4096 * a.toNat
  | .ctz d a => 0x4000007 + 524288 * d.toNat + 4096 * a.toNat
  | .brev d a => 0x4000008 + 524288 * d.toNat + 4096 * a.toNat
  | .abs d a => 0x4000009 + 524288 * d.toNat + 4096 * a.toNat
  | .lea d a b k => 0x4000010 + 524288 * d.toNat + 4096 * a.toNat + 32 * b.toNat + k.toNat
  | .leas d a b k => 0x4000018 + 524288 * d.toNat + 4096 * a.toNat + 32 * b.toNat + k.toNat
  | .addc d a b q => 0x8000000 + 524288 * d.toNat + 4096 * a.toNat + 32 * b.toNat + q.toNat
  | .subc d a b q => 0x8000010 + 524288 * d.toNat + 4096 * a.toNat + 32 * b.toNat + q.toNat
  | .cmp p a b c => 0xc000000 + 524288 * p.toNat + 4096 * a.toNat + 32 * b.toNat + c.toNat
  | .pand d a b => 0x10000000 + 524288 * d.toNat + 4096 * a.toNat + 32 * b.toNat
  | .por d a b => 0x10000001 + 524288 * d.toNat + 4096 * a.toNat + 32 * b.toNat
  | .pxor d a b => 0x10000002 + 524288 * d.toNat + 4096 * a.toNat + 32 * b.toNat
  | .pandn d a b => 0x10000003 + 524288 * d.toNat + 4096 * a.toNat + 32 * b.toNat
  | .pnot d a => 0x10000004 + 524288 * d.toNat + 4096 * a.toNat
  | .pmov d a => 0x10000005 + 524288 * d.toNat + 4096 * a.toNat
  | .pset d => 0x10000006 + 524288 * d.toNat
  | .pclr d => 0x10000007 + 524288 * d.toNat
  | .sel d a b p => 0x14000000 + 524288 * d.toNat + 4096 * a.toNat + 32 * b.toNat + p.toNat
  | .seln d a b p => 0x14000010 + 524288 * d.toNat + 4096 * a.toNat + 32 * b.toNat + p.toNat
  | .div la d a b => 0x18000000 + 4194304 * la.toNat + 32768 * d.toNat + 256 * a.toNat + b.toNat
  | .divu la d a b => 0x18000080 + 4194304 * la.toNat + 32768 * d.toNat + 256 * a.toNat + b.toNat
  | .rem la d a b => 0x1c000000 + 4194304 * la.toNat + 32768 * d.toNat + 256 * a.toNat + b.toNat
  | .remu la d a b => 0x1c000080 + 4194304 * la.toNat + 32768 * d.toNat + 256 * a.toNat + b.toNat
  | .addi d a i => 0x20000000 + 524288 * d.toNat + 4096 * a.toNat + i.toNat
  | .andi d a i => 0x24000000 + 524288 * d.toNat + 4096 * a.toNat + i.toNat
  | .ori d a i => 0x28000000 + 524288 * d.toNat + 4096 * a.toNat + i.toNat
  | .xori d a i => 0x2c000000 + 524288 * d.toNat + 4096 * a.toNat + i.toNat
  | .shli d a n => 0x30000000 + 524288 * d.toNat + 4096 * a.toNat + n.toNat
  | .shri d a n => 0x30000400 + 524288 * d.toNat + 4096 * a.toNat + n.toNat
  | .srai d a n => 0x30000800 + 524288 * d.toNat + 4096 * a.toNat + n.toNat
  | .rotli d a n => 0x30000c00 + 524288 * d.toNat + 4096 * a.toNat + n.toNat
  | .bfx d a len1 pos => 0x34000000 + 524288 * d.toNat + 4096 * a.toNat + 32 * len1.toNat + pos.toNat
  | .bfxs d a len1 pos => 0x34000400 + 524288 * d.toNat + 4096 * a.toNat + 32 * len1.toNat + pos.toNat
  | .bfi d a len1 pos => 0x34000800 + 524288 * d.toNat + 4096 * a.toNat + 32 * len1.toNat + pos.toNat
  | .movi d i => 0x38000000 + 524288 * d.toNat + i.toNat
  | .movhi d i => 0x3c000000 + 524288 * d.toNat + i.toNat
  | .uaddi d a i => 0x74000000 + 524288 * d.toNat + 4096 * a.toNat + i.toNat
  | .umovi d i => 0x78000000 + 524288 * d.toNat + i.toNat
  | .bcast d a => 0x7c000000 + 524288 * d.toNat + 4096 * a.toNat
  | .rdfirst d a => 0x7c000001 + 524288 * d.toNat + 4096 * a.toNat
  | .fadd d a b m => 0x40000000 + 524288 * d.toNat + 4096 * a.toNat + 32 * b.toNat + m.toNat
  | .fsub d a b m => 0x40000004 + 524288 * d.toNat + 4096 * a.toNat + 32 * b.toNat + m.toNat
  | .fmul d a b m => 0x40000008 + 524288 * d.toNat + 4096 * a.toNat + 32 * b.toNat + m.toNat
  | .fmin d a b => 0x4000000c + 524288 * d.toNat + 4096 * a.toNat + 32 * b.toNat
  | .fmax d a b => 0x40000010 + 524288 * d.toNat + 4096 * a.toNat + 32 * b.toNat
  | .ffma d a b m => 0x44000000 + 524288 * d.toNat + 4096 * a.toNat + 32 * b.toNat + m.toNat
  | .ffms d a b m => 0x44000004 + 524288 * d.toNat + 4096 * a.toNat + 32 * b.toNat + m.toNat
  | .ffnma d a b m => 0x44000008 + 524288 * d.toNat + 4096 * a.toNat + 32 * b.toNat + m.toNat
  | .bfadd2 d a b m => 0x48000000 + 524288 * d.toNat + 4096 * a.toNat + 32 * b.toNat + m.toNat
  | .bfsub2 d a b m => 0x48000004 + 524288 * d.toNat + 4096 * a.toNat + 32 * b.toNat + m.toNat
  | .bfmul2 d a b m => 0x48000008 + 524288 * d.toNat + 4096 * a.toNat + 32 * b.toNat + m.toNat
  | .bfmin2 d a b => 0x4800000c + 524288 * d.toNat + 4096 * a.toNat + 32 * b.toNat
  | .bfmax2 d a b => 0x48000010 + 524288 * d.toNat + 4096 * a.toNat + 32 * b.toNat
  | .bffma2 d a b m => 0x4c000000 + 524288 * d.toNat + 4096 * a.toNat + 32 * b.toNat + m.toNat
  | .bffms2 d a b m => 0x4c000004 + 524288 * d.toNat + 4096 * a.toNat + 32 * b.toNat + m.toNat
  | .bffnma2 d a b m => 0x4c000008 + 524288 * d.toNat + 4096 * a.toNat + 32 * b.toNat + m.toNat
  | .fcmp p a b c => 0x50000000 + 524288 * p.toNat + 4096 * a.toNat + 32 * b.toNat + c.toNat
  | .fabs d a => 0x54000000 + 524288 * d.toNat + 4096 * a.toNat
  | .fneg d a => 0x54000001 + 524288 * d.toNat + 4096 * a.toNat
  | .fclass d a => 0x54000002 + 524288 * d.toNat + 4096 * a.toNat
  | .bfabs2 d a => 0x54000003 + 524288 * d.toNat + 4096 * a.toNat
  | .bfneg2 d a => 0x54000004 + 524288 * d.toNat + 4096 * a.toNat
  | .rcp d a => 0x58000000 + 524288 * d.toNat + 4096 * a.toNat
  | .rsqrt d a => 0x58000001 + 524288 * d.toNat + 4096 * a.toNat
  | .sqrt d a => 0x58000002 + 524288 * d.toNat + 4096 * a.toNat
  | .exp2 d a => 0x58000003 + 524288 * d.toNat + 4096 * a.toNat
  | .log2 d a => 0x58000004 + 524288 * d.toNat + 4096 * a.toNat
  | .sin d a => 0x58000005 + 524288 * d.toNat + 4096 * a.toNat
  | .cos d a => 0x58000006 + 524288 * d.toNat + 4096 * a.toNat
  | .sfe d a => 0x5c000000 + 524288 * d.toNat + 4096 * a.toNat
  | .sfe2 d a => 0x5c000001 + 524288 * d.toNat + 4096 * a.toNat
  | .tblld a => 0x5c000002 + 4096 * a.toNat
  | .tblsw => 0x5c000003
  | .cvt d a m r s t => 0x60000000 + 524288 * d.toNat + 4096 * a.toNat + 1024 * m.toNat + 256 * r.toNat + 16 * s.toNat + t.toNat
  | .cvto d a b s q => 0x64000000 + 524288 * d.toNat + 4096 * a.toNat + 32 * b.toNat + 16 * s.toNat + q.toNat
  | .flrd d => 0x68000000 + 524288 * d.toNat
  | .flclr m => 0x68000001 + 32 * m.toNat
  | .ldg la d a o s => 0x80000000 + 4194304 * la.toNat + 32768 * d.toNat + 256 * a.toNat + 8 * o.toNat + s.toNat
  | .lds la d a o s => 0x88000000 + 4194304 * la.toNat + 32768 * d.toNat + 256 * a.toNat + 8 * o.toNat + s.toNat
  | .ldh la d a o s => 0x90000000 + 4194304 * la.toNat + 32768 * d.toNat + 256 * a.toNat + 8 * o.toNat + s.toNat
  | .stg la d a i o s => 0x84000000 + 4194304 * la.toNat + 32768 * d.toNat + 256 * a.toNat + 128 * i.toNat + 8 * o.toNat + s.toNat
  | .sts la d a i o s => 0x8c000000 + 4194304 * la.toNat + 32768 * d.toNat + 256 * a.toNat + 128 * i.toNat + 8 * o.toNat + s.toNat
  | .sth la d a i o s => 0x94000000 + 4194304 * la.toNat + 32768 * d.toNat + 256 * a.toNat + 128 * i.toNat + 8 * o.toNat + s.toNat
  | .ldsys la d a o s => 0x98000000 + 4194304 * la.toNat + 32768 * d.toNat + 256 * a.toNat + 8 * o.toNat + s.toNat
  | .stsys la d a o s => 0x98000080 + 4194304 * la.toNat + 32768 * d.toNat + 256 * a.toNat + 8 * o.toNat + s.toNat
  | .pfl1 la a => 0x9c000000 + 4194304 * la.toNat + 256 * a.toNat
  | .pfl2 la a => 0x9c000001 + 4194304 * la.toNat + 256 * a.toNat
  | .evl1 la a => 0x9c000002 + 4194304 * la.toNat + 256 * a.toNat
  | .atomg la d a r s w o => 0xa0000000 + 4194304 * la.toNat + 32768 * d.toNat + 256 * a.toNat + 128 * r.toNat + 32 * s.toNat + 16 * w.toNat + o.toNat
  | .atoms la d a r w o => 0xa4000000 + 4194304 * la.toNat + 32768 * d.toNat + 256 * a.toNat + 128 * r.toNat + 16 * w.toNat + o.toNat
  | .atomh la d a r w o => 0xa8000000 + 4194304 * la.toNat + 32768 * d.toNat + 256 * a.toNat + 128 * r.toNat + 16 * w.toNat + o.toNat
  | .barw la => 0xb0000000 + 4194304 * la.toNat
  | .barb la => 0xb0000001 + 4194304 * la.toNat
  | .barc la k => 0xb0000002 + 4194304 * la.toNat + 32 * k.toNat
  | .barg la k => 0xb0000003 + 4194304 * la.toNat + 32 * k.toNat
  | .tbinit la a b => 0xb4000000 + 4194304 * la.toNat + 32768 * a.toNat + 256 * b.toNat
  | .tbarr la a => 0xb4000001 + 4194304 * la.toNat + 32768 * a.toNat
  | .tbarrOne la a => 0xb4000021 + 4194304 * la.toNat + 32768 * a.toNat
  | .tbexp la a b => 0xb4000002 + 4194304 * la.toNat + 32768 * a.toNat + 256 * b.toNat
  | .tbwait la a b => 0xb4000003 + 4194304 * la.toNat + 32768 * a.toNat + 256 * b.toNat
  | .fenceEng d => 0xb8000000 + 524288 * d.toNat
  | .fenceSys d => 0xb8000001 + 524288 * d.toNat
  | .fenceMir d => 0xb8000002 + 524288 * d.toNat
  | .fenceAll d => 0xb8000003 + 524288 * d.toNat
  | .fwait a => 0xb8000004 + 4096 * a.toNat
  | .waitcLd n => 0xbc000000 + n.toNat
  | .waitcSt n => 0xbc000800 + n.toNat
  | .xlaneAt d a b => 0xc0000000 + 524288 * d.toNat + 4096 * a.toNat + 32 * b.toNat
  | .xlaneBack d a b => 0xc0000001 + 524288 * d.toNat + 4096 * a.toNat + 32 * b.toNat
  | .xlaneFwd d a b => 0xc0000002 + 524288 * d.toNat + 4096 * a.toNat + 32 * b.toNat
  | .xlaneSwz d a b => 0xc0000003 + 524288 * d.toNat + 4096 * a.toNat + 32 * b.toNat
  | .push d a b => 0xc4000000 + 524288 * d.toNat + 4096 * a.toNat + 32 * b.toNat
  | .scanAdd d a => 0xc4000001 + 524288 * d.toNat + 4096 * a.toNat
  | .scanAddx d a => 0xc4000002 + 524288 * d.toNat + 4096 * a.toNat
  | .scanMin d a => 0xc4000003 + 524288 * d.toNat + 4096 * a.toNat
  | .scanMax d a => 0xc4000004 + 524288 * d.toNat + 4096 * a.toNat
  | .pgath d a => 0xc4000005 + 524288 * d.toNat + 4096 * a.toNat
  | .pall d a => 0xc4000006 + 524288 * d.toNat + 4096 * a.toNat
  | .pany d a => 0xc4000007 + 524288 * d.toNat + 4096 * a.toNat
  | .lsame d a => 0xc4000008 + 524288 * d.toNat + 4096 * a.toNat
  | .lsameAll d a => 0xc4000009 + 524288 * d.toNat + 4096 * a.toNat
  | .lfoldAdd d a => 0xc400000a + 524288 * d.toNat + 4096 * a.toNat
  | .lfoldMin d a => 0xc400000b + 524288 * d.toNat + 4096 * a.toNat
  | .lfoldMax d a => 0xc400000c + 524288 * d.toNat + 4096 * a.toNat
  | .lfoldAnd d a => 0xc400000d + 524288 * d.toNat + 4096 * a.toNat
  | .lfoldOr d a => 0xc400000e + 524288 * d.toNat + 4096 * a.toNat
  | .lfoldXor d a => 0xc400000f + 524288 * d.toNat + 4096 * a.toNat
  | .cpy la a b n r z => 0xc8000000 + 4194304 * la.toNat + 32768 * a.toNat + 256 * b.toNat + 32 * n.toNat + 4 * r.toNat + z.toNat
  | .tld la a b x => 0xcc000000 + 4194304 * la.toNat + 32768 * a.toNat + 256 * b.toNat + 32 * x.toNat
  | .tst la a b x => 0xcc000001 + 4194304 * la.toNat + 32768 * a.toNat + 256 * b.toNat + 32 * x.toNat
  | .mcast la a b => 0xcc000002 + 4194304 * la.toNat + 32768 * a.toNat + 256 * b.toNat
  | .slotClaim la k => 0xd0000000 + 4194304 * la.toNat + k.toNat
  | .slotRel la k => 0xd0000010 + 4194304 * la.toNat + k.toNat
  | .spawn a b => 0xd4000000 + 4096 * a.toNat + 32 * b.toNat
  | .idem => 0xd4000001
  | .idemx => 0xd4000002
  | .yield i => 0xd8000000 + i.toNat
  | .lxbase d a => 0xdc000000 + 524288 * d.toNat + 4096 * a.toNat
  | .lxext0 d a => 0xdc000001 + 524288 * d.toNat + 4096 * a.toNat
  | .lxext1 d a => 0xdc000002 + 524288 * d.toNat + 4096 * a.toNat
  | .lxext2 d a => 0xdc000003 + 524288 * d.toNat + 4096 * a.toNat
  | .lxext3 d a => 0xdc000004 + 524288 * d.toNat + 4096 * a.toNat
  | .gkset a => 0xdc000008 + 4096 * a.toNat
  | .gkrd d => 0xdc000009 + 524288 * d.toNat
  | .mma la a b f s => 0xe0000000 + 4194304 * la.toNat + 32768 * a.toNat + 256 * b.toNat + 32 * f.toNat + s.toNat
  | .accld la d a s => 0xe4000000 + 4194304 * la.toNat + 32768 * d.toNat + 256 * a.toNat + 4 * s.toNat
  | .accst la d a f => 0xe4000001 + 4194304 * la.toNat + 32768 * d.toNat + 256 * a.toNat + 4 * f.toNat
  | .mmack la d => 0xe4000002 + 4194304 * la.toNat + 32768 * d.toNat
  | .mmackCut la d => 0xe4000006 + 4194304 * la.toNat + 32768 * d.toNat
  | .tdec la a b f => 0xe8000000 + 4194304 * la.toNat + 32768 * a.toNat + 256 * b.toNat + 32 * f.toNat
  | .tdecQ la a f => 0xe8007f01 + 4194304 * la.toNat + 32768 * a.toNat + 32 * f.toNat
  | .venc la a b f => 0xe8000002 + 4194304 * la.toNat + 32768 * a.toNat + 256 * b.toNat + 32 * f.toNat
  | .twget la d a f => 0xec000000 + 4194304 * la.toNat + 32768 * d.toNat + 256 * a.toNat + f.toNat
  | .bra c o => 0xf0000000 + 4194304 * c.toNat + o.toNat
  | .call c o => 0xf4000000 + 4194304 * c.toNat + o.toNat
  | .jmp a => 0xf8000000 + 4096 * a.toNat
  | .callr a => 0xf8000001 + 4096 * a.toNat
  | .ret => 0xf8000002
  | .exit => 0xf8000003
  | .fuse => 0xf8000004
  | .trap c => 0xf8000005 + 32 * c.toNat
  | .guard p n => 0xf8000006 + 4096 * p.toNat + 32 * n.toNat
  | .guardN p n => 0xf8000007 + 4096 * p.toNat + 32 * n.toNat
  | .loop d a b => 0xf8000008 + 524288 * d.toNat + 4096 * a.toNat + 32 * b.toNat
  | .loopLong d a b => 0xf8000009 + 524288 * d.toNat + 4096 * a.toNat + 32 * b.toNat
  | .brk d => 0xf800000a + 524288 * d.toNat
  | .wbase n => 0xf800000b + 32 * n.toNat
  | .movs d s => 0xf800000c + 524288 * d.toNat + 32 * s.toNat
  | .nop => 0xf800000d
  | .pshare a b => 0xfc100000 + 8192 * a.toNat + 64 * b.toNat
  | .pshareRo a b => 0xfc100001 + 8192 * a.toNat + 64 * b.toNat
  | .prel a b => 0xfc200000 + 8192 * a.toNat + 64 * b.toNat
  | .pq a d => 0xfc300000 + 8192 * a.toNat + 64 * d.toNat
  | .nput a b w => 0xfc400000 + 8192 * a.toNat + 64 * b.toNat + w.toNat
  | .nget a b w => 0xfc500000 + 8192 * a.toNat + 64 * b.toNat + w.toNat
  | .ncoll a b w => 0xfc600000 + 8192 * a.toNat + 64 * b.toNat + w.toNat
  | .nscmax a b w => 0xfc700000 + 8192 * a.toNat + 64 * b.toNat + w.toNat
  | .nsum a b w => 0xfc800000 + 8192 * a.toNat + 64 * b.toNat + w.toNat
  | .dxfer a => 0xfc900000 + 8192 * a.toNat
  | .sigst a b => 0xfca00000 + 8192 * a.toNat + 64 * b.toNat
  | .sigadd a b => 0xfcb00000 + 8192 * a.toNat + 64 * b.toNat
  | _ => 0

/-- The word of a Xlorekq instruction (R304, R305). -/
def encodeX : Instr → Nat
  | .xrf s d => 0xb + 32768 * s.toNat + 128 * d.toNat
  | .xbfx i s d => 0x100b + 1048576 * i.toNat + 32768 * s.toNat + 128 * d.toNat
  | .xsw t s d => 0x200b + 1048576 * t.toNat + 32768 * s.toNat + 128 * d.toNat
  | .xdisp s d => 0x300b + 32768 * s.toNat + 128 * d.toNat
  | .xjr t s d => 0x400b + 1048576 * t.toNat + 32768 * s.toNat + 128 * d.toNat
  | _ => 0

/-- The instruction that a word's major and minor codes name (R65, R66), with its fields; error 1 for an
unassigned code and error 4 for cond 14 or 15 (R67). Codes that Table 3, Table 4 or an entry calls
reserved values of a minor code count as unassigned (log 20). -/
def pick (w : Nat) : Except Nat Instr :=
  match w / 2 ^ 26 with
  | 0 => match w % 32 with
    | 1 => .ok (.add (fld w 19 7) (fld w 12 7) (fld w 5 7))
    | 2 => .ok (.sub (fld w 19 7) (fld w 12 7) (fld w 5 7))
    | 3 => .ok (.and (fld w 19 7) (fld w 12 7) (fld w 5 7))
    | 4 => .ok (.or (fld w 19 7) (fld w 12 7) (fld w 5 7))
    | 5 => .ok (.xor (fld w 19 7) (fld w 12 7) (fld w 5 7))
    | 6 => .ok (.andn (fld w 19 7) (fld w 12 7) (fld w 5 7))
    | 7 => .ok (.shl (fld w 19 7) (fld w 12 7) (fld w 5 7))
    | 8 => .ok (.shr (fld w 19 7) (fld w 12 7) (fld w 5 7))
    | 9 => .ok (.sra (fld w 19 7) (fld w 12 7) (fld w 5 7))
    | 10 => .ok (.rotl (fld w 19 7) (fld w 12 7) (fld w 5 7))
    | 11 => .ok (.min (fld w 19 7) (fld w 12 7) (fld w 5 7))
    | 12 => .ok (.max (fld w 19 7) (fld w 12 7) (fld w 5 7))
    | 13 => .ok (.minu (fld w 19 7) (fld w 12 7) (fld w 5 7))
    | 14 => .ok (.maxu (fld w 19 7) (fld w 12 7) (fld w 5 7))
    | 15 => .ok (.addsat (fld w 19 7) (fld w 12 7) (fld w 5 7))
    | 16 => .ok (.subsat (fld w 19 7) (fld w 12 7) (fld w 5 7))
    | _ => .error 1
  | 1 => match w % 32 with
    | 0 => .ok (.mul (fld w 19 7) (fld w 12 7) (fld w 5 7))
    | 1 => .ok (.mulhi (fld w 19 7) (fld w 12 7) (fld w 5 7))
    | 2 => .ok (.mulhu (fld w 19 7) (fld w 12 7) (fld w 5 7))
    | 3 => .ok (.dot4s (fld w 19 7) (fld w 12 7) (fld w 5 7))
    | 4 => .ok (.dot4u (fld w 19 7) (fld w 12 7) (fld w 5 7))
    | 5 => .ok (.popc (fld w 19 7) (fld w 12 7))
    | 6 => .ok (.clz (fld w 19 7) (fld w 12 7))
    | 7 => .ok (.ctz (fld w 19 7) (fld w 12 7))
    | 8 => .ok (.brev (fld w 19 7) (fld w 12 7))
    | 9 => .ok (.abs (fld w 19 7) (fld w 12 7))
    | 16 => .ok (.lea (fld w 19 7) (fld w 12 7) (fld w 5 7) (fld w 0 3))
    | 17 => .ok (.lea (fld w 19 7) (fld w 12 7) (fld w 5 7) (fld w 0 3))
    | 18 => .ok (.lea (fld w 19 7) (fld w 12 7) (fld w 5 7) (fld w 0 3))
    | 19 => .ok (.lea (fld w 19 7) (fld w 12 7) (fld w 5 7) (fld w 0 3))
    | 20 => .ok (.lea (fld w 19 7) (fld w 12 7) (fld w 5 7) (fld w 0 3))
    | 24 => .ok (.leas (fld w 19 7) (fld w 12 7) (fld w 5 7) (fld w 0 3))
    | 25 => .ok (.leas (fld w 19 7) (fld w 12 7) (fld w 5 7) (fld w 0 3))
    | 26 => .ok (.leas (fld w 19 7) (fld w 12 7) (fld w 5 7) (fld w 0 3))
    | 27 => .ok (.leas (fld w 19 7) (fld w 12 7) (fld w 5 7) (fld w 0 3))
    | 28 => .ok (.leas (fld w 19 7) (fld w 12 7) (fld w 5 7) (fld w 0 3))
    | _ => .error 1
  | 2 => match w / 16 % 2 with
    | 0 => .ok (.addc (fld w 19 7) (fld w 12 7) (fld w 5 7) (fld w 0 4))
    | _ => .ok (.subc (fld w 19 7) (fld w 12 7) (fld w 5 7) (fld w 0 4))
  | 3 => if 10 ≤ w % 32 then .error 1 else .ok (.cmp (fld w 19 7) (fld w 12 7) (fld w 5 7) (fld w 0 5))
  | 4 => match w % 32 with
    | 0 => .ok (.pand (fld w 19 7) (fld w 12 7) (fld w 5 7))
    | 1 => .ok (.por (fld w 19 7) (fld w 12 7) (fld w 5 7))
    | 2 => .ok (.pxor (fld w 19 7) (fld w 12 7) (fld w 5 7))
    | 3 => .ok (.pandn (fld w 19 7) (fld w 12 7) (fld w 5 7))
    | 4 => .ok (.pnot (fld w 19 7) (fld w 12 7))
    | 5 => .ok (.pmov (fld w 19 7) (fld w 12 7))
    | 6 => .ok (.pset (fld w 19 7))
    | 7 => .ok (.pclr (fld w 19 7))
    | _ => .error 1
  | 5 => match w / 16 % 2 with
    | 0 => .ok (.sel (fld w 19 7) (fld w 12 7) (fld w 5 7) (fld w 0 4))
    | _ => .ok (.seln (fld w 19 7) (fld w 12 7) (fld w 5 7) (fld w 0 4))
  | 6 => match w / 128 % 2 with
    | 0 => .ok (.div (fld w 22 4) (fld w 15 7) (fld w 8 7) (fld w 0 7))
    | _ => .ok (.divu (fld w 22 4) (fld w 15 7) (fld w 8 7) (fld w 0 7))
  | 7 => match w / 128 % 2 with
    | 0 => .ok (.rem (fld w 22 4) (fld w 15 7) (fld w 8 7) (fld w 0 7))
    | _ => .ok (.remu (fld w 22 4) (fld w 15 7) (fld w 8 7) (fld w 0 7))
  | 8 => .ok (.addi (fld w 19 7) (fld w 12 7) (fld w 0 12))
  | 9 => .ok (.andi (fld w 19 7) (fld w 12 7) (fld w 0 12))
  | 10 => .ok (.ori (fld w 19 7) (fld w 12 7) (fld w 0 12))
  | 11 => .ok (.xori (fld w 19 7) (fld w 12 7) (fld w 0 12))
  | 12 => match w / 1024 % 4 with
    | 0 => .ok (.shli (fld w 19 7) (fld w 12 7) (fld w 0 5))
    | 1 => .ok (.shri (fld w 19 7) (fld w 12 7) (fld w 0 5))
    | 2 => .ok (.srai (fld w 19 7) (fld w 12 7) (fld w 0 5))
    | _ => .ok (.rotli (fld w 19 7) (fld w 12 7) (fld w 0 5))
  | 13 => match w / 1024 % 4 with
    | 0 => .ok (.bfx (fld w 19 7) (fld w 12 7) (fld w 5 5) (fld w 0 5))
    | 1 => .ok (.bfxs (fld w 19 7) (fld w 12 7) (fld w 5 5) (fld w 0 5))
    | 2 => .ok (.bfi (fld w 19 7) (fld w 12 7) (fld w 5 5) (fld w 0 5))
    | _ => .error 1
  | 14 => .ok (.movi (fld w 19 7) (fld w 0 19))
  | 15 => .ok (.movhi (fld w 19 7) (fld w 0 19))
  | 16 => match w / 4 % 8 with
    | 0 => .ok (.fadd (fld w 19 7) (fld w 12 7) (fld w 5 7) (fld w 0 2))
    | 1 => .ok (.fsub (fld w 19 7) (fld w 12 7) (fld w 5 7) (fld w 0 2))
    | 2 => .ok (.fmul (fld w 19 7) (fld w 12 7) (fld w 5 7) (fld w 0 2))
    | 3 => .ok (.fmin (fld w 19 7) (fld w 12 7) (fld w 5 7))
    | 4 => .ok (.fmax (fld w 19 7) (fld w 12 7) (fld w 5 7))
    | _ => .error 1
  | 17 => match w / 4 % 8 with
    | 0 => .ok (.ffma (fld w 19 7) (fld w 12 7) (fld w 5 7) (fld w 0 2))
    | 1 => .ok (.ffms (fld w 19 7) (fld w 12 7) (fld w 5 7) (fld w 0 2))
    | 2 => .ok (.ffnma (fld w 19 7) (fld w 12 7) (fld w 5 7) (fld w 0 2))
    | _ => .error 1
  | 18 => match w / 4 % 8 with
    | 0 => .ok (.bfadd2 (fld w 19 7) (fld w 12 7) (fld w 5 7) (fld w 0 2))
    | 1 => .ok (.bfsub2 (fld w 19 7) (fld w 12 7) (fld w 5 7) (fld w 0 2))
    | 2 => .ok (.bfmul2 (fld w 19 7) (fld w 12 7) (fld w 5 7) (fld w 0 2))
    | 3 => .ok (.bfmin2 (fld w 19 7) (fld w 12 7) (fld w 5 7))
    | 4 => .ok (.bfmax2 (fld w 19 7) (fld w 12 7) (fld w 5 7))
    | _ => .error 1
  | 19 => match w / 4 % 8 with
    | 0 => .ok (.bffma2 (fld w 19 7) (fld w 12 7) (fld w 5 7) (fld w 0 2))
    | 1 => .ok (.bffms2 (fld w 19 7) (fld w 12 7) (fld w 5 7) (fld w 0 2))
    | 2 => .ok (.bffnma2 (fld w 19 7) (fld w 12 7) (fld w 5 7) (fld w 0 2))
    | _ => .error 1
  | 20 => if 8 ≤ w % 16 then .error 1 else .ok (.fcmp (fld w 19 7) (fld w 12 7) (fld w 5 7) (fld w 0 4))
  | 21 => match w % 32 with
    | 0 => .ok (.fabs (fld w 19 7) (fld w 12 7))
    | 1 => .ok (.fneg (fld w 19 7) (fld w 12 7))
    | 2 => .ok (.fclass (fld w 19 7) (fld w 12 7))
    | 3 => .ok (.bfabs2 (fld w 19 7) (fld w 12 7))
    | 4 => .ok (.bfneg2 (fld w 19 7) (fld w 12 7))
    | _ => .error 1
  | 22 => match w % 32 with
    | 0 => .ok (.rcp (fld w 19 7) (fld w 12 7))
    | 1 => .ok (.rsqrt (fld w 19 7) (fld w 12 7))
    | 2 => .ok (.sqrt (fld w 19 7) (fld w 12 7))
    | 3 => .ok (.exp2 (fld w 19 7) (fld w 12 7))
    | 4 => .ok (.log2 (fld w 19 7) (fld w 12 7))
    | 5 => .ok (.sin (fld w 19 7) (fld w 12 7))
    | 6 => .ok (.cos (fld w 19 7) (fld w 12 7))
    | _ => .error 1
  | 23 => match w % 32 with
    | 0 => .ok (.sfe (fld w 19 7) (fld w 12 7))
    | 1 => .ok (.sfe2 (fld w 19 7) (fld w 12 7))
    | 2 => .ok (.tblld (fld w 12 7))
    | 3 => .ok (.tblsw)
    | _ => .error 1
  | 24 => if 11 ≤ w % 16 ∨ 11 ≤ w / 16 % 16 then .error 1 else .ok (.cvt (fld w 19 7) (fld w 12 7) (fld w 10 1) (fld w 8 2) (fld w 4 4) (fld w 0 4))
  | 25 => .ok (.cvto (fld w 19 7) (fld w 12 7) (fld w 5 7) (fld w 4 1) (fld w 0 4))
  | 26 => match w % 32 with
    | 0 => .ok (.flrd (fld w 19 7))
    | 1 => .ok (.flclr (fld w 5 7))
    | _ => .error 1
  | 28 => match w % 32 with
    | 1 => .ok (.uadd (fld w 19 7) (fld w 12 7) (fld w 5 7))
    | 2 => .ok (.usub (fld w 19 7) (fld w 12 7) (fld w 5 7))
    | 3 => .ok (.uand (fld w 19 7) (fld w 12 7) (fld w 5 7))
    | 4 => .ok (.uor (fld w 19 7) (fld w 12 7) (fld w 5 7))
    | 5 => .ok (.uxor (fld w 19 7) (fld w 12 7) (fld w 5 7))
    | 6 => .ok (.uandn (fld w 19 7) (fld w 12 7) (fld w 5 7))
    | 7 => .ok (.ushl (fld w 19 7) (fld w 12 7) (fld w 5 7))
    | 8 => .ok (.ushr (fld w 19 7) (fld w 12 7) (fld w 5 7))
    | 9 => .ok (.usra (fld w 19 7) (fld w 12 7) (fld w 5 7))
    | 10 => .ok (.urotl (fld w 19 7) (fld w 12 7) (fld w 5 7))
    | 11 => .ok (.umin (fld w 19 7) (fld w 12 7) (fld w 5 7))
    | 12 => .ok (.umax (fld w 19 7) (fld w 12 7) (fld w 5 7))
    | 13 => .ok (.uminu (fld w 19 7) (fld w 12 7) (fld w 5 7))
    | 14 => .ok (.umaxu (fld w 19 7) (fld w 12 7) (fld w 5 7))
    | 15 => .ok (.uaddsat (fld w 19 7) (fld w 12 7) (fld w 5 7))
    | 16 => .ok (.usubsat (fld w 19 7) (fld w 12 7) (fld w 5 7))
    | _ => .error 1
  | 29 => .ok (.uaddi (fld w 19 7) (fld w 12 7) (fld w 0 12))
  | 30 => .ok (.umovi (fld w 19 7) (fld w 0 19))
  | 31 => match w % 32 with
    | 0 => .ok (.bcast (fld w 19 7) (fld w 12 7))
    | 1 => .ok (.rdfirst (fld w 19 7) (fld w 12 7))
    | _ => .error 1
  | 32 => if w % 8 = 7 then .error 1 else .ok (.ldg (fld w 22 4) (fld w 15 7) (fld w 8 7) (fld w 3 5) (fld w 0 3))
  | 33 => if 5 ≤ w % 8 then .error 1 else .ok (.stg (fld w 22 4) (fld w 15 7) (fld w 8 7) (fld w 7 1) (fld w 3 4) (fld w 0 3))
  | 34 => if w % 8 = 7 then .error 1 else .ok (.lds (fld w 22 4) (fld w 15 7) (fld w 8 7) (fld w 3 5) (fld w 0 3))
  | 35 => if 5 ≤ w % 8 then .error 1 else .ok (.sts (fld w 22 4) (fld w 15 7) (fld w 8 7) (fld w 7 1) (fld w 3 4) (fld w 0 3))
  | 36 => if w % 8 = 7 then .error 1 else .ok (.ldh (fld w 22 4) (fld w 15 7) (fld w 8 7) (fld w 3 5) (fld w 0 3))
  | 37 => if 5 ≤ w % 8 then .error 1 else .ok (.sth (fld w 22 4) (fld w 15 7) (fld w 8 7) (fld w 7 1) (fld w 3 4) (fld w 0 3))
  | 38 => match w / 128 % 2 with
    | 0 => if w % 8 = 7 then .error 1 else .ok (.ldsys (fld w 22 4) (fld w 15 7) (fld w 8 7) (fld w 3 4) (fld w 0 3))
    | _ => if 5 ≤ w % 8 then .error 1 else .ok (.stsys (fld w 22 4) (fld w 15 7) (fld w 8 7) (fld w 3 4) (fld w 0 3))
  | 39 => match w % 8 with
    | 0 => .ok (.pfl1 (fld w 22 4) (fld w 8 7))
    | 1 => .ok (.pfl2 (fld w 22 4) (fld w 8 7))
    | 2 => .ok (.evl1 (fld w 22 4) (fld w 8 7))
    | _ => .error 1
  | 40 => if 13 ≤ w % 16 ∨ w / 32 % 4 = 3 then .error 1 else .ok (.atomg (fld w 22 4) (fld w 15 7) (fld w 8 7) (fld w 7 1) (fld w 5 2) (fld w 4 1) (fld w 0 4))
  | 41 => if 13 ≤ w % 16 then .error 1 else .ok (.atoms (fld w 22 4) (fld w 15 7) (fld w 8 7) (fld w 7 1) (fld w 4 1) (fld w 0 4))
  | 42 => if 13 ≤ w % 16 then .error 1 else .ok (.atomh (fld w 22 4) (fld w 15 7) (fld w 8 7) (fld w 7 1) (fld w 4 1) (fld w 0 4))
  | 44 => match w % 32 with
    | 0 => .ok (.barw (fld w 22 4))
    | 1 => .ok (.barb (fld w 22 4))
    | 2 => .ok (.barc (fld w 22 4) (fld w 5 3))
    | 3 => .ok (.barg (fld w 22 4) (fld w 5 2))
    | _ => .error 1
  | 45 => match w % 32 with
    | 0 => .ok (.tbinit (fld w 22 4) (fld w 15 7) (fld w 8 7))
    | 1 => if w / 32 % 8 = 1 then .ok (.tbarrOne (fld w 22 4) (fld w 15 7)) else .ok (.tbarr (fld w 22 4) (fld w 15 7))
    | 2 => .ok (.tbexp (fld w 22 4) (fld w 15 7) (fld w 8 7))
    | 3 => .ok (.tbwait (fld w 22 4) (fld w 15 7) (fld w 8 7))
    | _ => .error 1
  | 46 => match w % 32 with
    | 0 => .ok (.fenceEng (fld w 19 7))
    | 1 => .ok (.fenceSys (fld w 19 7))
    | 2 => .ok (.fenceMir (fld w 19 7))
    | 3 => .ok (.fenceAll (fld w 19 7))
    | 4 => .ok (.fwait (fld w 12 7))
    | _ => .error 1
  | 47 => match w / 2048 % 2 with
    | 0 => .ok (.waitcLd (fld w 0 6))
    | _ => .ok (.waitcSt (fld w 0 6))
  | 48 => match w % 4 with
    | 0 => .ok (.xlaneAt (fld w 19 7) (fld w 12 7) (fld w 5 7))
    | 1 => .ok (.xlaneBack (fld w 19 7) (fld w 12 7) (fld w 5 7))
    | 2 => .ok (.xlaneFwd (fld w 19 7) (fld w 12 7) (fld w 5 7))
    | _ => .ok (.xlaneSwz (fld w 19 7) (fld w 12 7) (fld w 5 7))
  | 49 => match w % 32 with
    | 0 => .ok (.push (fld w 19 7) (fld w 12 7) (fld w 5 7))
    | 1 => .ok (.scanAdd (fld w 19 7) (fld w 12 7))
    | 2 => .ok (.scanAddx (fld w 19 7) (fld w 12 7))
    | 3 => .ok (.scanMin (fld w 19 7) (fld w 12 7))
    | 4 => .ok (.scanMax (fld w 19 7) (fld w 12 7))
    | 5 => .ok (.pgath (fld w 19 7) (fld w 12 7))
    | 6 => .ok (.pall (fld w 19 7) (fld w 12 7))
    | 7 => .ok (.pany (fld w 19 7) (fld w 12 7))
    | 8 => .ok (.lsame (fld w 19 7) (fld w 12 7))
    | 9 => .ok (.lsameAll (fld w 19 7) (fld w 12 7))
    | 10 => .ok (.lfoldAdd (fld w 19 7) (fld w 12 7))
    | 11 => .ok (.lfoldMin (fld w 19 7) (fld w 12 7))
    | 12 => .ok (.lfoldMax (fld w 19 7) (fld w 12 7))
    | 13 => .ok (.lfoldAnd (fld w 19 7) (fld w 12 7))
    | 14 => .ok (.lfoldOr (fld w 19 7) (fld w 12 7))
    | 15 => .ok (.lfoldXor (fld w 19 7) (fld w 12 7))
    | _ => .error 1
  | 50 => if w % 4 = 3 ∨ 16 ≤ w % 32 then .error 1 else .ok (.cpy (fld w 22 4) (fld w 15 7) (fld w 8 7) (fld w 5 1) (fld w 2 2) (fld w 0 2))
  | 51 => match w % 32 with
    | 0 => .ok (.tld (fld w 22 4) (fld w 15 7) (fld w 8 7) (fld w 5 3))
    | 1 => .ok (.tst (fld w 22 4) (fld w 15 7) (fld w 8 7) (fld w 5 3))
    | 2 => .ok (.mcast (fld w 22 4) (fld w 15 7) (fld w 8 7))
    | _ => .error 1
  | 52 => match w / 16 % 2 with
    | 0 => .ok (.slotClaim (fld w 22 4) (fld w 0 4))
    | _ => .ok (.slotRel (fld w 22 4) (fld w 0 4))
  | 53 => match w % 32 with
    | 0 => .ok (.spawn (fld w 12 7) (fld w 5 7))
    | 1 => .ok (.idem)
    | 2 => .ok (.idemx)
    | _ => .error 1
  | 54 => .ok (.yield (fld w 0 12))
  | 55 => match w % 32 with
    | 0 => .ok (.lxbase (fld w 19 7) (fld w 12 7))
    | 1 => .ok (.lxext0 (fld w 19 7) (fld w 12 7))
    | 2 => .ok (.lxext1 (fld w 19 7) (fld w 12 7))
    | 3 => .ok (.lxext2 (fld w 19 7) (fld w 12 7))
    | 4 => .ok (.lxext3 (fld w 19 7) (fld w 12 7))
    | 8 => .ok (.gkset (fld w 12 7))
    | 9 => .ok (.gkrd (fld w 19 7))
    | _ => .error 1
  | 56 => if 5 ≤ w % 32 then .error 1 else .ok (.mma (fld w 22 4) (fld w 15 7) (fld w 8 7) (fld w 5 3) (fld w 0 3))
  | 57 => match w % 4 with
    | 0 => if 3 ≤ w / 4 % 8 then .error 1 else .ok (.accld (fld w 22 4) (fld w 15 7) (fld w 8 7) (fld w 2 3))
    | 1 => .ok (.accst (fld w 22 4) (fld w 15 7) (fld w 8 7) (fld w 2 3))
    | 2 => if w / 4 % 2 = 1 then .ok (.mmackCut (fld w 22 4) (fld w 15 7)) else .ok (.mmack (fld w 22 4) (fld w 15 7))
    | _ => .error 1
  | 58 => match w % 32 with
    | 0 => .ok (.tdec (fld w 22 4) (fld w 15 7) (fld w 8 7) (fld w 5 3))
    | 1 => .ok (.tdecQ (fld w 22 4) (fld w 15 7) (fld w 5 3))
    | 2 => .ok (.venc (fld w 22 4) (fld w 15 7) (fld w 8 7) (fld w 5 3))
    | _ => .error 1
  | 59 => .ok (.twget (fld w 22 4) (fld w 15 7) (fld w 8 7) (fld w 0 3))
  | 60 => if 14 ≤ w / 2 ^ 22 % 16 then .error 4 else .ok (.bra (fld w 22 4) (fld w 0 22))
  | 61 => if 14 ≤ w / 2 ^ 22 % 16 then .error 4 else .ok (.call (fld w 22 4) (fld w 0 22))
  | 62 => match w % 32 with
    | 0 => .ok (.jmp (fld w 12 7))
    | 1 => .ok (.callr (fld w 12 7))
    | 2 => .ok (.ret)
    | 3 => .ok (.exit)
    | 4 => .ok (.fuse)
    | 5 => .ok (.trap (fld w 5 7))
    | 6 => .ok (.guard (fld w 12 7) (fld w 5 7))
    | 7 => .ok (.guardN (fld w 12 7) (fld w 5 7))
    | 8 => .ok (.loop (fld w 19 7) (fld w 12 7) (fld w 5 7))
    | 9 => .ok (.loopLong (fld w 19 7) (fld w 12 7) (fld w 5 7))
    | 10 => .ok (.brk (fld w 19 7))
    | 11 => .ok (.wbase (fld w 5 7))
    | 12 => .ok (.movs (fld w 19 7) (fld w 5 7))
    | 13 => .ok (.nop)
    | _ => .error 1
  | 63 => match w / 2 ^ 20 % 64 with
    | 1 => if w % 2 = 1 then .ok (.pshareRo (fld w 13 7) (fld w 6 7)) else .ok (.pshare (fld w 13 7) (fld w 6 7))
    | 2 => .ok (.prel (fld w 13 7) (fld w 6 7))
    | 3 => .ok (.pq (fld w 13 7) (fld w 6 7))
    | 4 => .ok (.nput (fld w 13 7) (fld w 6 7) (fld w 0 6))
    | 5 => .ok (.nget (fld w 13 7) (fld w 6 7) (fld w 0 6))
    | 6 => .ok (.ncoll (fld w 13 7) (fld w 6 7) (fld w 0 6))
    | 7 => .ok (.nscmax (fld w 13 7) (fld w 6 7) (fld w 0 6))
    | 8 => .ok (.nsum (fld w 13 7) (fld w 6 7) (fld w 0 6))
    | 9 => .ok (.dxfer (fld w 13 7))
    | 10 => .ok (.sigst (fld w 13 7) (fld w 6 7))
    | 11 => .ok (.sigadd (fld w 13 7) (fld w 6 7))
    | _ => .error 1
  | _ => .error 1

/-- The Xlorekq instruction of a custom-0 word (R304, R305); error 2 stands for mcause 2. -/
def pickX (w : Nat) : Except Nat Instr :=
  match w / 4096 % 8 with
  | 0 => .ok (.xrf (fld w 15 5) (fld w 7 5))
  | 1 => .ok (.xbfx (fld w 20 12) (fld w 15 5) (fld w 7 5))
  | 2 => .ok (.xsw (fld w 20 5) (fld w 15 5) (fld w 7 5))
  | 3 => .ok (.xdisp (fld w 15 5) (fld w 7 5))
  | 4 => .ok (.xjr (fld w 20 5) (fld w 15 5) (fld w 7 5))
  | _ => .error 2

/-- `w` with the `n` bits from `lo` set to zero. -/
def clearBits (w lo n : Nat) : Nat := w - w / 2 ^ lo % 2 ^ n * 2 ^ lo

/-- The class 1 code of a word whose unused fields are not those of its encoding (R67): a value of the
fs field, or of b in `tdec.q`, that the entry's range leaves out is code 3, any other is code 2
(R202, R209, R235, R322; log 20). -/
def strayCode (w : Nat) (i : Instr) : Nat :=
  match i with
  | .barg .. | .tbinit .. | .tbarr .. | .tbexp .. | .tbwait .. =>
    if clearBits w 5 3 = clearBits (encode i) 5 3 then 3 else 2
  | .cpy .. => if clearBits w 6 2 = encode i then 3 else 2
  | .tdecQ .. => if clearBits w 8 7 = clearBits (encode i) 8 7 then 3 else 2
  | _ => 2

/-- A thread instruction word decoded with the precedence of R67: codes 1 and 4, then 2, then 3. -/
def decodeWord (w : Nat) : Except Nat Instr :=
  match pick w with
  | .error c => .error c
  | .ok i => if encode i ≠ w then .error (strayCode w i)
             else if wellFormed i then .ok i else .error 3

/-- A custom-0 word decoded (R304): an unassigned funct3 or a field that must be zero gives mcause 2. -/
def decodeX (w : Nat) : Except Nat Instr :=
  match pickX w with
  | .error c => .error c
  | .ok i => if encodeX i ≠ w then .error 2 else .ok i

/-- The instruction whose bits are `w`, numbered as the opcode table numbers them. Every row of the
table with bits has 32. The words of the scheduler cores' rows are also words of thread rows; the table
does not say which agent fetches, so a word of an Xlorekq row is read as that row (log 7). -/
def decodeTableWord (nbits w : Nat) : Option Instr :=
  if nbits = 32 then
    match decodeX (w % 2 ^ 32) with
    | .ok i => if w % 128 = 11 then some i else (decodeWord (w % 2 ^ 32)).toOption
    | .error _ => (decodeWord (w % 2 ^ 32)).toOption
  else none

end Sys2Proof
end

