-- ==== Sys2Proof/Machine/Scheduling.lean ====
section
/-! DEFINITION. The warp scheduler of a lane set (R28 to R34, R166, R167), beds (R36, R170, R171), watchdogs
(R251), the replay of parked paths (R150), and the debug controller of a cluster (R277 to R282). -/

namespace Sys2Proof.Machine

/-! ### Pre-emption points (R78, R243, R333) -/

/-- The side-table entry of an address (R333): the entry whose off is the address less the kernel's entry. -/
def sideEntryAt (s : State) (g : Grid) (pc : Nat) : Option Nat :=
  let va := lrecBits g.lrec 191 128
  let entry := lrecBits g.lrec 51 0
  match cpRead64 s g.asid va with
  | none => none
  | some h =>
    if pc < entry then none
    else (List.range (bits h 31 0)).findSome? fun i =>
      match cpRead64 s g.asid (va + 64 * (i + 1)) with
      | some e => if bits e 31 0 = pc - entry then some e else none
      | none => none

/-- Threads that were asked to stop and stand at a pre-emption point stop there (R243). -/
def stopAtPoints (s : State) (die pos slot : Nat) : State :=
  match (coreAt s die pos).warpAt slot with
  | none => s
  | some w =>
    match w.stopReq, gridAt s w.grid with
    | true, some g =>
      let m := w.lanesWhere fun t =>
        t.running && t.wait = .none && (sideEntryAt s g t.pc.toNat).isSome
      modWarp s die pos slot fun w => { w with th := mapLanes m (fun _ t => { t with wait := .stopped }) w.th }
    | _, _ => s

/-! ### Unblocked threads (R28) -/

/-- The path of one lane alone, by which its blocks are decided: on the warp's state as the cycle begins. -/
def lanePath (s : State) (die pos : Nat) (w : Warp) (g : Grid) (k : Nat) : Path :=
  let t := w.lane k
  let m := maskOf [k]
  { die := die, pos := pos, slot := w.slot, grp := w.groupOf k, lanes := m, act := if t.enabled then m else 0,
    pc := t.pc, core := coreAt s die pos, w := { w with old := w.sh }, grid := g }

/-- The memory of the package when the grid was launched, with its page tables (R169). -/
def launchView (s : State) (g : Grid) : State := { s with mem := g.launchMem, moves := [] }

/-- The values that a fetch may return (R169): the current word, the one the address held when the grid was launched,
and those that stores have written there since. -/
def fetchable (s : State) (g : Grid) (pc : Nat) (tr : Tr) : List Nat :=
  let v := launchView s g
  let old := match translate v g.asid pc false true none with
    | .ok t => [ofBytes (agentBytes v .phys t.pa 4 t.kd)]
    | .error _ => []
  let later := ((s.codeLog.drop g.codeFrom).filter fun x => x.1 = tr.pa).map (·.2)
  distinct (ofBytes (agentBytes s .phys tr.pa 4 tr.kd) :: old ++ later)

/-- The word a fetch returns (R169). -/
def fetchWord (s : State) (g : Grid) (pc : Nat) (tr : Tr) (choice : Nat) : Nat :=
  match fetchable s g pc tr with
  | [] => 0
  | [v] => v
  | l => l.getD (choice % l.length) 0

/-- The choice that the fetch of a group's path makes in the decision that comes next (R169): one for each path, made
before its instruction is looked at, so that a path issues or waits by the word it fetched. -/
def fetchPick (s : State) (grp pc : Nat) : Nat := Config.fetchChoice s.fresh (grp * 2 ^ 52 + pc)

/-- The instruction that a path of a group fetches at an address, when its fetch and its decoding succeed. -/
def nextInstr (s : State) (g : Grid) (grp pc : Nat) : Option Instr :=
  match translate s g.asid pc false true none with
  | .error _ => none
  | .ok tr =>
    if tagMismatch s .phys tr.pa 4 tr.kd then none
    else match decodeWord (fetchWord s g pc tr (fetchPick s grp pc)) with
      | .ok i => some i
      | .error _ => none

/-- The instruction at which a lane of a warp stands. -/
def laneInstr (s : State) (g : Grid) (w : Warp) (k : Nat) : Option Instr :=
  nextInstr s g (w.groupOf k) (w.lane k).pc.toNat

/-- The thread of a lane is unblocked (R28). With the warp's eight records in use, an instruction that would fault is
stalled (R150): one that would fault before its own checks, and the lanes that `Warp.stalled` names. -/
def unblocked (s : State) (die pos : Nat) (w : Warp) (g : Grid) (k : Nat) : Bool :=
  let t := w.lane k
  t.running && t.wait = .none && w.restoring = [] &&
    match laneInstr s g w k with
    | none => decide (w.faults.length < 8)
    | some i =>
      match gate s (lanePath s die pos w g k) i with
      | .hold => false
      | .trap _ => decide (w.faults.length < 8)
      | .go => decide (w.faults.length < 8) || !(w.stalled.getLsbD k)

/-- A candidate path of a group: its address and its unblocked threads (R29). -/
structure Cand where
  grp : Nat
  pc : BitVec 52
  lanes : BitVec 32
  deriving DecidableEq, Repr

/-- The paths of a group (R29). -/
def candidates (w : Warp) (free : BitVec 32) (grp : Nat) : List Cand :=
  let m := free &&& w.groupLanes grp
  (distinct ((laneList m).map fun k => (w.lane k).pc.toNat)).map fun pc =>
    ⟨grp, BitVec.ofNat 52 pc, m &&& w.lanesWhere fun t => t.pc.toNat = pc⟩

/-- The unblocked threads of a warp. -/
def freeLanes (s : State) (die pos : Nat) (w : Warp) : BitVec 32 :=
  match gridAt s w.grid with
  | none => 0
  | some g => maskOf ((List.range 32).filter (unblocked s die pos w g))

/-- Threads of a path. -/
def Cand.size (c : Cand) : Nat := (laneList c.lanes).length

/-- The fairness count of a path (R30), kept by group and program counter: a path whose threads change group by a split
or a merge begins again at 0 (log 69). -/
def Warp.fairCount (w : Warp) (grp : Nat) (pc : BitVec 52) : Nat :=
  match w.fair.find? fun x => x.1 = grp && x.2.1 = pc with
  | some x => x.2.2
  | none => 0

/-- The path has become forced (R30). -/
def Warp.isForced (w : Warp) (c : Cand) : Bool :=
  w.forced.contains (c.grp, c.pc) || decide (64 ≤ w.fairCount c.grp c.pc)

/-- The order of choice (R29, R30): forced paths, oldest unissued first; then larger ones, then lower
program counters. Two forced paths that have waited equally long go in the order of their program counters too (log 69). -/
def Warp.before (w : Warp) (x y : Cand) : Bool :=
  let fx := w.isForced x
  let fy := w.isForced y
  let nx := w.fairCount x.grp x.pc
  let ny := w.fairCount y.grp y.pc
  if fx ≠ fy then fx
  else if fx && nx ≠ ny then decide (ny < nx)
  else if !fx && x.size ≠ y.size then decide (y.size < x.size)
  else decide (x.pc.toNat < y.pc.toNat)

/-- The path cannot issue in one cycle with those taken for it: together they would take a counter above 255 (R300) or
need a ninth fault record (R150), so it must wait (R28). -/
def Warp.clash (w : Warp) (counts : Cand → Bool × Bool) (taken : List Cand) (y : Cand) : Bool :=
  let stalls := fun (x : Cand) => decide (x.lanes &&& w.stalled ≠ 0#32)
  ((counts y).1 && decide (255 ≤ w.ldcnt.toNat + (taken.filter fun x => (counts x).1).length)) ||
    ((counts y).2 && decide (255 ≤ w.stcnt.toNat + (taken.filter fun x => (counts x).2).length)) ||
    (stalls y && decide (8 ≤ w.faults.length + (taken.filter stalls).length))

/-- The paths that a group issues beside those that the warp's other groups issue (R29): the first in order that can
issue with them, and the next that can. -/
def Warp.chosen (w : Warp) (counts : Cand → Bool × Bool) (taken l : List Cand) : List Cand :=
  match (sortBy w.before l).filter fun y => !(w.clash counts taken y) with
  | [] => []
  | x :: t => x :: (t.find? fun y => !(w.clash counts (x :: taken) y)).toList

/-- The paths that the groups of a warp issue in one cycle, group by group (R29, R166; log 69). -/
def Warp.picks (w : Warp) (counts : Cand → Bool × Bool) (cands : List Cand) (groups : List Nat) : List (List Cand) :=
  groups.foldl (fun l g => l ++ [w.chosen counts l.flatten (cands.filter fun c => c.grp = g)]) []

/-! ### Split and fairness counts (R30, R31, R167) -/

/-- A quad whose counter has reached 64 becomes a sprig (R31). -/
def Warp.splitQuad (w : Warp) (q : Nat) : Warp :=
  if !(w.sprigs.getLsbD q) && decide (64 ≤ w.split.getD q 0) then
    { w with sprigs := w.sprigs ||| BitVec.ofNat 8 (2 ^ q), split := w.split.set q 0 }
  else w

/-- Every split that is due, before paths are formed (R31). -/
def Warp.splitDue (w : Warp) : Warp := (List.range 8).foldl Warp.splitQuad w

/-- A path unissued for 64 counted cycles is forced (R30). -/
def Warp.force (w : Warp) (grp : Nat) (pc : BitVec 52) : Warp :=
  if decide (64 ≤ w.fairCount grp pc) && !(w.forced.contains (grp, pc)) then
    { w with forced := w.forced ++ [(grp, pc)] }
  else w

/-- Some running thread of a group stands at an address: its path is there, though its threads may be blocked (R30). -/
def Warp.stands (w : Warp) (grp : Nat) (pc : BitVec 52) : Bool :=
  (List.range 32).any fun k => (w.lane k).running && (w.lane k).pc = pc && w.groupOf k = grp

/-- The counts after a selection in which some groups took part (R30, R31): what issued restarts, what
waited unblocked advances, what is gone is forgotten. -/
def Warp.count (w : Warp) (cands issued : List Cand) : Warp :=
  let out := issued.foldl (fun m c => m ||| c.lanes) 0#32
  let free := cands.foldl (fun m c => m ||| c.lanes) 0#32
  let waited := cands.filter fun c => !(issued.contains c)
  let kept := w.fair.filter fun x =>
    !(cands.any fun c => c.grp = x.1 && c.pc = x.2.1) && w.stands x.1 x.2.1
  { w with
    fair := kept ++ waited.map (fun c => (c.grp, c.pc, w.fairCount c.grp c.pc + 1)),
    forced := w.forced.filter fun x => !(issued.any fun c => c.grp = x.1 && c.pc = x.2) && w.stands x.1 x.2,
    split := w.split.mapIdx fun q n =>
      let quad : BitVec 32 := BitVec.ofNat 32 (15 * 2 ^ (4 * q))
      if w.sprigs.getLsbD q then 0
      else if out &&& quad ≠ 0#32 then 0
      else if free &&& quad ≠ 0#32 then n + 1 else n }

/-! ### A decision (R29, R166) -/

/-- The groups of a warp, the warp group first. -/
def Warp.groups (w : Warp) : List Nat := 8 :: (List.range 8).filter fun q => w.sprigs.getLsbD q

/-- The groups of a selected warp that take part issue their paths: within a group the secondary path's
turn comes before the primary's (R18, R193). A path that could not issue beside the chosen ones was blocked (R28). -/
def selectWarp (s : State) (die pos slot : Nat) (take : Nat → Bool) : State :=
  let s := modWarp s die pos slot Warp.splitDue
  match (coreAt s die pos).warpAt slot with
  | none => s
  | some w =>
    let free := freeLanes s die pos w
    let groups := w.groups.filter take
    let cands := groups.flatMap (candidates w free)
    let w := cands.foldl (fun w c => w.force c.grp c.pc) w
    let counts := fun (c : Cand) => match (gridAt s w.grid).bind fun g => nextInstr s g c.grp c.pc.toNat with
      | some i => let on := (laneList c.lanes).any fun k => (w.lane k).enabled
        (on && countsLoad i, on && countsStore i)
      | none => (false, false)
    let picks := w.picks counts cands groups
    let waited := cands.filter fun c => picks.flatten.contains c || !(w.clash counts picks.flatten c)
    let fetch := fun (c : Cand) => fetchPick s c.grp c.pc.toNat
    let now := (dieOf s die).cycles
    let sel := (coreAt s die pos).sel + 1
    let s := modCore s die pos fun c => { c with
      sel := sel,
      picks := (c.picks.filter fun x => x.cycle = now) ++
        picks.flatten.map fun c => ⟨slot, c.grp, c.pc, c.lanes, now, fetch c⟩ }
    let s := modWarp s die pos slot fun _ =>
      { (w.count waited picks.flatten) with lastSel := sel, old := w.sh, flSet := 0, flClr := 0 }
    let turns := picks.flatMap fun l => l.reverse.map fun c =>
      (⟨0, [], .issue die pos slot c.grp c.pc c.lanes (fetch c)⟩ : Turn)
    { s with agenda := turns ++ s.agenda, fresh := s.fresh + 1 }

/-- The cluster holds back every issue (R279, R280). -/
def issueClosed (s : State) (die pos : Nat) : Bool :=
  let cl := clusterOf pos
  clusterStopped s die cl ||
    match (clusterAt s die cl).stopping with
    | some h => decide (h + 16 < (dieOf s die).cycles)
    | none => false

/-- A warp stands at a `spawn` after a higher warp slot has spawned in the same cycle: the decisions of the cycle that
spawn are taken in ascending warp slot, so that their cuttings enter so (R170). -/
def spawnsLate (s : State) (die pos : Nat) (w : Warp) : Bool :=
  match (coreAt s die pos).spawned, gridAt s w.grid with
  | some (cyc, slot), some g => cyc = (dieOf s die).cycles && decide (w.slot < slot) &&
      (List.range 32).any fun k => (w.lane k).running && match laneInstr s g w k with
        | some (.spawn ..) => true
        | _ => false
  | _, _ => false

/-- SCHEDULING_DECISION (R166): one in each core cycle of a lane set; the least recently selected warp
with an unblocked thread, the lower slot on ties. A decision that finds none fetches anew in the next cycle (R169). -/
def execSchedulingDecision (die pos laneSet : Nat) (s : State) : Host.Outcome State Fault Refusal :=
  let c := coreAt s die pos
  let now := (dieOf s die).cycles
  if c.kind = 3 || c.halves = 0 || decide (c.halves ≤ laneSet) || issueClosed s die pos ||
      c.decided.lookup laneSet = some now then .next s
  else
    let before := s
    let s := modCore s die pos fun c => { c with decided := assign c.decided laneSet now }
    let slots := (List.range (warpSlots c.kind)).filter fun k => k % c.halves = laneSet
    let s := slots.foldl (fun st k => stopAtPoints st die pos k) s
    let ready := slots.filterMap fun k =>
      match (coreAt s die pos).warpAt k with
      | some w => if freeLanes s die pos w ≠ 0#32 then some w else none
      | none => none
    match sortBy (fun (x y : Warp) => decide (x.lastSel < y.lastSel)) ready with
    | [] => .next { s with fresh := s.fresh + 1 }
    | w :: _ => .next (if spawnsLate s die pos w then before else selectWarp s die pos w.slot fun _ => true)

/-- QUAD_SPLIT (R31). -/
def execQuadSplit (die pos slot quad : Nat) (s : State) : Host.Outcome State Fault Refusal :=
  .next (modWarp s die pos slot fun w => w.splitQuad quad)

/-- PATH_FORCED (R30). -/
def execPathForced (die pos slot grp : Nat) (pc : BitVec 52) (s : State) : Host.Outcome State Fault Refusal :=
  .next (modWarp s die pos slot fun w => w.force grp pc)

/-- FUSE_HOLD_EXPIRY (R33): 64 core cycles after a hold at the address began. -/
def execFuseHoldExpiry (die pos slot : Nat) (pc : BitVec 52) (s : State) : Host.Outcome State Fault Refusal :=
  let now := (dieOf s die).cycles
  .next (modWarp s die pos slot fun w =>
    let due := (List.range 32).any fun k => w.fusing pc k && match (w.lane k).wait with
      | .fuse t => decide (t + 64 ≤ now)
      | _ => false
    if due then (w.fuseEnd pc true).fuseSettle else w)

/-! ### Beds (R36, R170, R171) -/

/-- The bed is full, or its timer has expired with cuttings in it (R36, R170). -/
def bedDue (s : State) (die : Nat) (b : Bed) : Bool :=
  match gridAt s b.grid with
  | none => false
  | some g =>
    b.cuttings ≠ [] && (decide (32 ≤ b.cuttings.length) ||
      decide (b.opened + lrecBits g.lrec 447 432 ≤ (dieOf s die).cycles))

/-- The thread of a cutting (R25, R36, R198). -/
def cuttingThread (g : Grid) (x : Cutting) : Thread :=
  Thread.start g.regs x.g x.entry x.thx x.thy x.thz x.blk true x.after

/-- Launch a bed as one warp into the lowest free slot within the kernel's quota (R36, R171); a cluster
whose kind changes takes no cutting warp (R161), and a warp of a block that is being saved stops too (R243). -/
def launchBed (s : State) (die pos bed : Nat) : State :=
  let c := coreAt s die pos
  match c.beds[bed]? with
  | none => s
  | some b =>
    match gridAt s b.grid, c.kernelOf b.grid, c.freeSlots with
    | some g, some k, slot :: _ =>
      if bedDue s die b && decide (c.warpsOf b.grid < k.warps) && c.roomFor k g 1 &&
          !(clusterChanging s die (clusterOf pos)) then
        let w := Warp.start s.nextId slot b.grid none c.sel (b.cuttings.map (cuttingThread g))
        let w := { w with stopReq := stillSaving s w }
        let s := modCore s die pos fun c => { c with warps := c.warps ++ [w], beds := c.beds.eraseIdx bed }
        { s with nextId := s.nextId + 1 }
      else s
    | _, _, _ => s

/-- BED_TIMER_EXPIRY (R36): the bed launches when a slot is free, and otherwise waits for BED_LAUNCH. -/
def execBedTimerExpiry (die pos bed : Nat) (s : State) : Host.Outcome State Fault Refusal :=
  .next (launchBed s die pos bed)

/-- BED_LAUNCH (R171). -/
def execBedLaunch (die pos bed : Nat) (s : State) : Host.Outcome State Fault Refusal :=
  .next (launchBed s die pos bed)

/-! ### Watchdogs and parked paths -/

/-- WATCHDOG_EXPIRY (R251, R252): a blocked warp raises class 11 code 1 at once; one that can issue raises it at its next
instruction (`watchdogTrap`). -/
def execWatchdogExpiry (die pos slot : Nat) (s : State) : Host.Outcome State Fault Refusal :=
  let c := coreAt s die pos
  match c.warpAt slot with
  | some w =>
    if watchdogDue c w && freeLanes s die pos w = 0#32 then
      .next (watchdogTrap s die pos w)
    else .next s
  | none => .next s

/-- PATH_REPLAY (R150): not while a debug stop or a save holds parked paths (R153, R243). -/
def execPathReplay (die pos slot rec : Nat) (s : State) : Host.Outcome State Fault Refusal :=
  match (coreAt s die pos).warpAt slot with
  | some w =>
    if clusterStopped s die (clusterOf pos) || w.stopReq then .next s else .next (replay s die pos slot rec)
  | none => .next s

/-- FAULT_RECORD_POST (R324, R390): the oldest waiting record, when the ring has room. -/
def execFaultRecordPost (die : Nat) (s : State) : Host.Outcome State Fault Refusal := .next (ringFlush s die .fault)

/-! ### The debug controller (R278 to R282) -/

/-- The positions of a cluster (R260). -/
def clusterPositions (cl : Nat) : List Nat := (List.range 24).map (posOfLocal cl)

/-- What a write of DBGCTL leaves in the register (R278 Table 6): the RW fields as written, overrun cleared by
a 1 that hardware does not set in the same cycle (R10); armed reads 0 while the controller is not accepted (R383). -/
def dbgctlWritten (s : State) (die cl : Nat) (old v : Word) : Word :=
  let rw : Word := if accepted s 11 then 0x8FFFF800#32 else 0x0FFFF800#32
  let kept := old &&& 0x40000700#32
  let kept := if v.getLsbD 8 && !(s.justSet.contains (.overrun die cl)) then kept &&& ~~~0x100#32 else kept
  kept ||| (v &&& rw &&& ~~~0x700#32)

/-- End the lookahead counts of every thread of some cores (R71). -/
def endCounts (s : State) (die : Nat) (ps : List Nat) : State :=
  ps.foldl (fun st p => modCore st die p fun c =>
    { c with
      warps := c.warps.map fun w => { w with th := w.th.map Thread.endCounts } }) s

/-- Every result that a thread of some cores is owed has been written (R71). -/
def resultsWritten (s : State) (die : Nat) (ps : List Nat) : Bool :=
  ps.all fun p => (coreAt s die p).warps.all fun w => w.th.all fun t => t.owed.all fun o => o.done

/-- CLUSTER_STOPPED (R279, R280, R71): once every outstanding result is written. A slot whose warp ended keeps the skid
that it made. -/
def execClusterStopped (die cl : Nat) (s : State) : Host.Outcome State Fault Refusal :=
  let c := clusterAt s die cl
  if c.stopping.isSome && !(clusterStopped s die cl) && resultsWritten s die (clusterPositions cl) then
    let s := endCounts s die (clusterPositions cl)
    let slots := (List.range 24).flatMap fun k =>
      (coreAt s die (posOfLocal cl k)).warps.map fun w => 64 * k + w.slot
    .next (modCluster s die cl fun c =>
      { c with
        dbgctl := c.dbgctl ||| 0x40000000#32,
        skid := (slots.map fun k => (k, BitVec.ofNat 32 (0x8000 + (lookupD c.skid k 0).toNat % 256))) ++
          (c.skid.filter fun x => !(slots.contains x.1)).map fun x => (x.1, x.2 &&& 0xFF#32) })
  else .next s

/-- The fatal failures of copies that a stop held back are carried out at the release (R152, R204). -/
def releaseCopies (s : State) (die cl : Nat) : State :=
  (clusterAt s die cl).held.foldl (fun st x => copyFatal st die x.pos x.grid x.blk x.bits)
    (modCluster s die cl fun c => { c with held := [] })

/-- The fatal faults that a stop held back are carried out at the release (R152). -/
def releaseFaults (s : State) (die pos : Nat) : State :=
  (coreAt s die pos).warps.foldl (fun st w =>
    (w.faults.filter (·.held)).foldl (fun st f =>
      let st := modWarpUid st w.uid fun w => { w with faults := w.faults.map fun y => { y with held := false } }
      dispose st die pos w.uid w.grid (w.lane (lowLane (BitVec.ofNat 32 (bits f.bits.toNat 159 128)))).blk f) st) s

/-- A write of DBGCTL with go (R279, R280): every core of a stopped cluster at once; else go is ignored. -/
def execDebugGo (die cl : Nat) (v : BitVec 32) (s : State) : Host.Outcome State Fault Refusal :=
  let stopped := clusterStopped s die cl
  let s := modCluster s die cl fun c => { c with dbgctl := dbgctlWritten s die cl c.dbgctl v }
  if stopped && bit v.toNat 29 then
    let s := modCluster s die cl fun c =>
      { c with dbgctl := c.dbgctl &&& ~~~0x40000000#32, dbghit := c.dbghit &&& ~~~1#128, stopping := none }
    .next ((clusterPositions cl).foldl (fun st p => releaseFaults st die p) (releaseCopies s die cl))
  else .next s

/-- A write of DBGCTL with step (R281): one decision for the target of a stopped cluster; step_busy is set until the
paths it chose have had their turn (`stepSettled`). A step in progress takes no other, and a write that would step a
lane set twice in one core cycle comes in a later one (R166; log 30). -/
def execDebugStep (die cl : Nat) (v : BitVec 32) (s : State) : Host.Outcome State Fault Refusal :=
  let before := s
  let stopped := clusterStopped s die cl
  let s := modCluster s die cl fun c => { c with dbgctl := dbgctlWritten s die cl c.dbgctl v }
  if stopped && bit v.toNat 28 && !(bit (clusterAt s die cl).dbgctl.toNat 10) then
    let pos := posOfLocal cl (bits v.toNat 20 16)
    let slot := bits v.toNat 26 21
    let c := coreAt s die pos
    let blocked := fun (b : Bool) (st : State) => modCluster st die cl fun c =>
      { c with dbgctl := if b then c.dbgctl ||| 0x200#32 else (c.dbgctl &&& ~~~0x200#32) ||| 0x400#32 }
    match if bits v.toNat 20 16 < 24 then c.warpAt slot else none with
    | none => .next { blocked true s with fresh := s.fresh + 1 }
    | some w =>
      let now := (dieOf s die).cycles
      let w := w.splitDue
      let grp := w.groupOf (bits v.toNat 15 11)
      let take := fun g => !(bit v.toNat 27) || g = grp
      if c.decided.lookup (slot % c.halves) = some now then .next before
      else if (w.groups.filter take).any fun g => freeLanes s die pos w &&& w.groupLanes g ≠ 0#32 then
        let s := modCore s die pos fun c => { c with decided := assign c.decided (slot % c.halves) now }
        .next (selectWarp (blocked false s) die pos slot take)
      else .next { blocked true s with fresh := s.fresh + 1 }
  else .next s

/-! ### The access port (R282) -/

/-- A read of an item of DBGACC Table 9, none for an access that sets err. -/
def dbgRead (w : Warp) (lane item : Nat) : Option Word :=
  let t := w.lane lane
  let inside := match fieldLoc t.wb.toNat item with
    | some (.v i) => decide (i < t.v.length)
    | _ => true
  if item ≤ 130 then
    (if !t.running then none
     else if item < 128 then (if inside then some (t.reg item) else none)
     else if item = 128 then some (t.pc.extractLsb' 0 32)
     else if item = 129 then some ((t.pc.extractLsb' 32 20).zeroExtend 32)
     else some (t.p.zeroExtend 32))
  else if item ≤ 194 then some (w.sh.u (item - 131))
  else if item = 195 then some (w.sh.fl.zeroExtend 32)
  else none

/-- A write of an item; bits [1:0] of a program counter stay 0 (R19). -/
def dbgPut (w : Warp) (lane item : Nat) (x : Word) : Warp :=
  let m := maskOf [lane]
  let th := fun (f : Thread → Thread) => { w with th := mapLanes m (fun _ t => f t) w.th }
  if item < 128 then th fun t => t.setReg item x
  else if item = 128 then th fun t => { t with pc := (t.pc.extractLsb' 32 20 ++ (x &&& ~~~3#32) : BitVec 52) }
  else if item = 129 then th fun t => { t with pc := (x.extractLsb' 0 20 ++ t.pc.extractLsb' 0 32 : BitVec 52) }
  else if item = 130 then th fun t => { t with p := x.extractLsb' 0 12 }
  else if item ≤ 194 then { w with sh := { w.sh with s := w.sh.s.set (item - 131) x } }
  else { w with sh := { w.sh with fl := x.extractLsb' 0 6 } }

/-- A write of DBGACC (R282 Table 9). -/
def dbgAccess (s : State) (die cl : Nat) (v : BitVec 64) : State :=
  let pos := posOfLocal cl (bits v.toNat 59 55)
  let slot := bits v.toNat 54 49
  let lane := bits v.toNat 48 44
  let item := bits v.toNat 43 36
  let put := fun (st : State) (err : Bool) (data : Nat) => modCluster st die cl fun c =>
    { c with dbgacc := BitVec.ofNat 64 (putBits (putBits (putBits (putBits v.toNat 35 32 0) 31 0 data) 63 60 0) 60 60
                (if err then 1 else 0) + (if bit v.toNat 62 then 2 ^ 62 else 0)) }
  if !(bit v.toNat 63) then put s (bit (clusterAt s die cl).dbgacc.toNat 60) (bits v.toNat 31 0)
  else
    match if clusterStopped s die cl && decide (bits v.toNat 59 55 < 24) then (coreAt s die pos).warpAt slot else none with
    | none => put s true (bits v.toNat 31 0)
    | some w =>
      match dbgRead w lane item with
      | none => put s true (bits v.toNat 31 0)
      | some x =>
        if bit v.toNat 62 then
          put (modWarp s die pos slot fun w => dbgPut w lane item (BitVec.ofNat 32 v.toNat)) false (bits v.toNat 31 0)
        else put s false x.toNat

/-- A DBGACC access that reads (R282). -/
def execDbgaccRead (die cl : Nat) (v : BitVec 64) (s : State) : Host.Outcome State Fault Refusal :=
  .next (dbgAccess s die cl (v &&& ~~~0x4000000000000000#64))

/-- A DBGACC access that writes (R282). -/
def execDbgaccWrite (die cl : Nat) (v : BitVec 64) (s : State) : Host.Outcome State Fault Refusal :=
  .next (dbgAccess s die cl (v ||| 0x4000000000000000#64))

end Sys2Proof.Machine
end

