-- ==== Sys2Proof/Machine/HostRegs.lean ====
section
/-! DEFINITION. Host writes of registers and of memory (R10, R11, R161, R265, R294, R315, R324, R336, R361 to R363,
R377, R383 to R391, R407). Every event is one complete write of its register (log 31). -/

namespace Sys2Proof.Machine

/-! ### Trust and features (R377, R382, R383, R391) -/

/-- FWRANGE_WRITE (R377): accepted once, inside HBM, outside the reserved range, of 1 to 256 units. -/
def execFwrangeWrite (v : BitVec 64) (s : State) : Host.Outcome State Fault Refusal :=
  let units := bits v.toNat 63 48
  let base := bits v.toNat 35 0 * 65536
  if s.fwlock then .next s
  else if units = 0 || decide (256 < units) || !(rangeInHbm base (units * 65536)) || meetsReserved s base (units * 65536) then
    .next { s with badrange := true, justSet := .badrange :: s.justSet }
  else .next { s with fwrange := BitVec.ofNat 64 (putBits v.toNat 47 36 0), fwlock := true }

/-- The features offered (R383): FEAT0 alone has bits; bit 8 on a G9-M only. -/
def offered (s : State) (k : Nat) : Word := if k = 0 then (if s.form = 2 then 0xFFF#32 else 0xEFF#32) else 0

/-- FEATACC_WRITE (R383): once, when firmware has started (R386, log 86); without integrity tags MEMCFG.integ falls to 0
unless the first launch has fixed it. -/
def execFeataccWrite (k : Nat) (v : BitVec 32) (s : State) : Host.Outcome State Fault Refusal :=
  if !s.passed || decide (4 ≤ k) || s.featWritten.getD k true then .next s
  else
    let a := v &&& offered s k
    let s := measure { s with featacc := s.featacc.set k a, featWritten := s.featWritten.set k true }
    .next (if k = 0 && !(bit a.toNat 9) && !s.launched then { s with memcfg := 0 } else s)

/-- MEMCFG_WRITE (R383, R391): ignored before firmware has started (R386, log 86), once the first launch has locked it,
and for a 1 that the accepted features do not allow. -/
def execMemcfgWrite (v : BitVec 32) (s : State) : Host.Outcome State Fault Refusal :=
  if !s.passed || s.launched || (bit v.toNat 0 && !(accepted s 9)) then .next s
  else .next (measure { s with memcfg := v &&& 1#32 })

/-- KEYPOL_WRITE (R391): lockd is fixed by the first write; a write changes MEASGEN. -/
def execKeypolWrite (v : BitVec 32) (s : State) : Host.Outcome State Fault Refusal :=
  let lockd := if s.keypolLocked then s.keypol &&& 0x80000000#32 else v &&& 0x80000000#32
  .next (measure { s with keypol := lockd ||| (v &&& 0xFF#32), keypolLocked := true })

/-! ### Heap, slices, power (R336, R387, R391) -/

/-- CTXHEAP_WRITE (R336, R380): the base or the size, when firmware has started (R386, log 86). -/
def execCtxheapWrite (size : Bool) (v : BitVec 64) (s : State) : Host.Outcome State Fault Refusal :=
  if !s.passed then .next s else .next (measure (if size then { s with ctxSize := v &&& 0xFFFFFF0000#64 } else { s with ctxBase := v &&& 0xFFFFFFFFF0000#64 }))

/-- HEAPBW_WRITE (R336): before firmware has started (R386, log 86) and outside 1 to 1,024 the field stays. -/
def execHeapbwWrite (v : BitVec 32) (s : State) : Host.Outcome State Fault Refusal :=
  let x := v &&& 0xFFFF#32
  .next (if !s.passed || x = 0#32 || decide (1024 < x.toNat) then s else { s with heapbw := x })

/-- VFSLICE_WRITE (R391): a slice outside 100 to 100,000 leaves that field. -/
def execVfsliceWrite (v : BitVec 32) (s : State) : Host.Outcome State Fault Refusal :=
  let n := bits v.toNat 16 0
  let slice := if decide (100 ≤ n) && decide (n ≤ 100000) then n else bits s.vfslice.toNat 16 0
  .next { s with vfslice := BitVec.ofNat 32 (bits v.toNat 31 17 * 2 ^ 17 + slice) }

/-- PWRCAP_WRITE (R387): below the minimum of 1,200 W the field stays (log 32). -/
def execPwrcapWrite (v : BitVec 32) (s : State) : Host.Outcome State Fault Refusal :=
  let x := v &&& 0xFFFF#32
  .next (if x.toNat < 1200 then s else { s with pwrcap := x })

/-- Every queue of a die is in state 0. -/
def queuesIdle (s : State) (die : Nat) : Bool :=
  !(dieOf s die).qdescWritten || (List.range 4096).all fun q => qState (qdesc s die q) = 0

/-- QDESC_BASE_WRITE (R391): only while every queue of the die is in state 0 (log 39). -/
def execQdescBaseWrite (die : Nat) (v : BitVec 64) (s : State) : Host.Outcome State Fault Refusal :=
  .next (if !(queuesIdle s die) then s else modDie s die fun d => { d with qdescBase := v &&& 0xFFFFFFFFFF000#64, qdescWritten := true })

/-! ### Mirroring (R407) -/

/-- Some valid leaf below a table marks its page for mirroring. -/
def mirBelow (s : State) : Nat → Nat → Bool
  | 0, table => (List.range 32).any fun i =>
      let e := devRead s (table + 8 * i) 8
      bit e 0 && bit e 6
  | level + 1, table => (List.range (if level + 1 = 3 then 8192 else 512)).any fun i =>
      let e := devRead s (table + 8 * i) 8
      bit e 0 && (if bit e 1 then bit e 6 else mirBelow s level (nextTable e))

/-- Some mir leaf is valid (R407). -/
def anyMirLeaf (s : State) : Bool :=
  (List.range 4096).any fun a =>
    let e := asidEntry s a
    bit e 392 && mirBelow s 3 (bits e 63 0)

/-- MIRCFG_WRITE (R407): en is writable only while no mir leaf is valid. -/
def execMircfgWrite (v : BitVec 64) (s : State) : Host.Outcome State Fault Refusal :=
  let rest := v &&& 0x0FFF000FFFFFFFFF#64
  let en := if (s.mircfg ^^^ v).getLsbD 63 && anyMirLeaf s then s.mircfg &&& 0x8000000000000000#64
            else v &&& 0x8000000000000000#64
  .next { s with mircfg := en ||| rest }

/-! ### Cluster kinds (R161, R162) -/

/-- Some cluster's field of a kind word satisfies a test. -/
def anyKind (v : BitVec 32) (p : Nat → Bool) : Bool := (List.range 6).any fun k => p (bits v.toNat (2 * k + 1) (2 * k))

/-- CLKIND_WRITE (R161, R162, R383). -/
def execClkindWrite (die : Nat) (v : BitVec 32) (s : State) : Host.Outcome State Fault Refusal :=
  let ignored := bit (dieOf s die).clkind.toNat 31 || anyKind v (· = 3) ||
    (!(accepted s 3) && anyKind v fun k => k = 1 || k = 2)
  let s := if ignored then { s with justSet := .rejected die :: s.justSet } else s
  .next (modDie s die fun d =>
    let old := d.clkind
    if ignored then { d with clkind := old ||| 0x40000000#32 }
    else
      let kept := if bit v.toNat 30 && !(s.justSet.contains (.rejected die)) then old &&& ~~~0x40000000#32 else old
      if (v ^^^ old) &&& 0xFFF#32 = 0#32 then { d with clkind := kept }
      else { d with
        kindsNow := old.extractLsb' 0 12,
        clkind := (kept &&& ~~~0xFFF#32) ||| (v &&& 0xFFF#32) ||| 0x80000000#32 })

/-- The positions of the clusters whose kind changes. -/
def changingPositions (s : State) (die : Nat) : List Nat :=
  (List.range Config.positions).filter fun p => clusterChanging s die (clusterOf p)

/-- CLUSTER_REBIND (R161): once the changed clusters hold no block, cutting or parked path. -/
def execClusterRebind (die : Nat) (s : State) : Host.Outcome State Fault Refusal :=
  let ps := changingPositions s die
  let empty := ps.all fun p =>
    let c := coreAt s die p
    c.warps = [] && c.beds = [] && c.restore = [] && residents s die p = []
  if bit (dieOf s die).clkind.toNat 31 && empty then
    let s := bindPositions s die ps
    let s := measure (updateTopo s die)
    .next (modDie s die fun d => { d with clkind := d.clkind &&& ~~~0x80000000#32, kindsNow := d.clkind.extractLsb' 0 12 })
  else .next s

/-! ### Page tables, pools and counts (R146, R361 to R363) -/

/-- TLBINV_WRITE (R361): go starts the completion of a change; the walkers of this model keep no entry (log 10). The
whole write is ignored while busy reads 1 (DESIGN CHOICE, log 10: R361 does not say what it does then). -/
def execTlbinvWrite (v : BitVec 128) (s : State) : Host.Outcome State Fault Refusal :=
  if s.tlbBusy then .next s
  else .next { s with tlbinv := v &&& 0x00000000FFFFFFFFFFFFFFFFFFFF0000#128, tlbBusy := v.getLsbD 127 }

/-- An access to the pages of TLBINV was checked and is not performed yet (R146). -/
def tlbPending (s : State) : Bool :=
  let v := s.tlbinv.toNat
  accessPending s (bits v 63 52) (bits v 51 16) (bits v 95 64)

/-- TLBINV_COMPLETE (R146, R361). -/
def execTlbinvComplete (s : State) : Host.Outcome State Fault Refusal :=
  .next (if s.tlbBusy && !(tlbPending s) then { s with tlbBusy := false } else s)

/-- POOLADD_WRITE (R363). -/
def execPooladdWrite (v : BitVec 64) (s : State) : Host.Outcome State Fault Refusal :=
  .next (poolPush s (bits v.toNat 63 52) (bits v.toNat 51 16 * 65536))

/-- RCWIN_WRITE (R362): a saturated count never changes again. -/
def execRcwinWrite (frame : Nat) (v : BitVec 16) (s : State) : Host.Outcome State Fault Refusal :=
  .next (if countOf s (frame * 65536) = 0xFFFF#16 then s else setCount s (frame * 65536) v)

/-! ### Watches, rings, notifications (R265, R315, R345, R389) -/

/-- CONFWATCH_WRITE (R345): a watch of other addresses starts with nothing held; clearing suspect lets the held
values be copied. -/
def execConfwatchWrite (die i : Nat) (v : BitVec 128) (s : State) : Host.Outcome State Fault Refusal :=
  .next (modDie s die fun d =>
    let old := lookupD d.watches i ⟨0, []⟩
    let rw : BitVec 128 := v &&& 0x800FFFFFFFFFFFFFFFFFFFFFFFFFFFFF#128
    let clr := v.getLsbD 126 && !(s.justSet.contains (.suspect die i))
    let ro := (old.reg &&& 0x20000000000000000000000000000000#128) |||
      (if clr then 0#128 else old.reg &&& 0x40000000000000000000000000000000#128)
    let same := v.getLsbD 127 && (old.reg ^^^ v) &&& 0x800FFFFFFFFFFFFFFFFFFFFFFFFFFFFF#128 = 0#128
    let held := if !same then []
      else if clr && old.reg.getLsbD 126 then old.held.map fun h => { h with needs := [] } else old.held
    { d with watches := assign d.watches i ⟨rw ||| ro, held⟩ })

/-- HOODDROP_CLEAR (R265). -/
def execHooddropClear (die cl : Nat) (s : State) : Host.Outcome State Fault Refusal :=
  .next (modCluster s die cl fun c => { c with drop := 0 })

/-- The record ring of an index, in the order of R388 Table 7. -/
def ringAt (k : Nat) : Option RingId :=
  match k with
  | 0 => some .fault
  | 1 => some .suspect
  | 2 => some .partialR
  | 3 => some .memerr
  | 4 => some .reclaim
  | _ => none

/-- RING_BASE_WRITE (R389): index 5 is MIGBASE. -/
def execRingBaseWrite (die ring : Nat) (v : BitVec 64) (s : State) : Host.Outcome State Fault Refusal :=
  let b := v &&& 0xFFFFFFFFFF01F#64
  match ringAt ring with
  | some i => .next (modRing s die i fun r => { r with base := b, prod := 0, cons := 0 })
  | none => .next (if ring = 5 then modDie s die fun d => { d with migbase := b } else s)

/-- RING_CONS_WRITE (R389). -/
def execRingConsWrite (die ring : Nat) (v : BitVec 64) (s : State) : Host.Outcome State Fault Refusal :=
  match ringAt ring with
  | some i => .next (modRing s die i fun r =>
      if v.toNat < r.cons.toNat ∨ r.prod.toNat < v.toNat then r else { r with cons := v })
  | none => .next s

/-- MIGTAIL_WRITE (R389). -/
def execMigtailWrite (die : Nat) (v : BitVec 64) (s : State) : Host.Outcome State Fault Refusal :=
  .next (modDie s die fun d =>
    if v.toNat < d.migtail.toNat ∨ d.mighead.toNat + baseUnits d.migbase < v.toNat then d else { d with migtail := v })

/-- SIGNOTIFY_WRITE (R315): every die is notified; the register is one of four dies' (R4). -/
def execSignotifyWrite (die : Nat) (_v : BitVec 64) (s : State) : Host.Outcome State Fault Refusal :=
  .next (if die < 4 then notifySignals s else s)

/-! ### Fault replies (R151, R154, R324) -/

/-- The parked paths of resident warps under a sequence number, with their records: the parts of a path whose warp was
split (R416) have one record. -/
def parkedAt (s : State) (die : Nat) (seq : Word) : List (Warp × Fault256) :=
  s.cores.flatMap fun c => c.warps.flatMap fun w =>
    (w.faults.filter fun f => f.seq = some (die, seq)).map fun f => (w, f)

/-- The saved blocks with a parked path under a sequence number. -/
def savedAt (s : State) (die : Nat) (seq : Word) : List (Context × SavedBlock) :=
  s.contexts.flatMap fun c => (c.blocks.filter fun b =>
    b.warps.any fun w => w.warp.faults.any fun f => f.seq = some (die, seq)).map fun b => (c, b)

/-- A waiting engine unit under a sequence number: its operation, unit, and the class and code it waits with. -/
def unitWaiting (s : State) (die : Nat) (seq : Word) : Option (Op × Unit) :=
  s.ops.findSome? fun o => if o.die = die then (o.unitsLeft.find? fun u => u.seq = some seq).map fun u => (o, u) else none

/-- The index of a waiting signal update under a sequence number. -/
def updateWaiting (s : State) (die : Nat) (seq : Word) : Option (Nat × Update) :=
  ((dieOf s die).updates.mapIdx fun i u => (i, u)).find? fun x => x.2.seq = some seq

/-- A record may replay: its lanes run again by PATH_REPLAY. -/
def Warp.resumeFault (w : Warp) (die : Nat) (seq : Word) : Warp :=
  { w with faults := updWhere (fun f => f.seq = some (die, seq)) (fun f => { f with ready := true, seq := none }) w.faults }

/-- Every part of a path under a sequence number may replay, in resident warps and in saved ones. -/
def resumePaths (s : State) (die : Nat) (seq : Word) : State :=
  { s with
    cores := s.cores.map fun c => { c with warps := c.warps.map fun w => w.resumeFault die seq },
    contexts := s.contexts.map fun c => { c with blocks := c.blocks.map fun b =>
      { b with warps := b.warps.map fun w => { w with warp := w.warp.resumeFault die seq } } } }

/-- FAULTREPLY holds the reply and whether it was refused: seq and action keep what the host last wrote (log 87: R324
gives them no access code). -/
def replyWritten (s : State) (die : Nat) (seq : Word) (kill err : Bool) : State :=
  modDie s die fun d => { d with
    reply := BitVec.ofNat 64 (seq.toNat + (if kill then 2 ^ 32 else 0) + (if err then 2 ^ 62 else 0)), replyErr := err }

/-- FAULTREPLY_RESUME (R324). -/
def execFaultreplyResume (die : Nat) (seq : BitVec 32) (s : State) : Host.Outcome State Fault Refusal :=
  let ok := replyWritten s die seq false false
  if parkedAt s die seq ≠ [] ∨ savedAt s die seq ≠ [] then .next (resumePaths ok die seq)
  else match unitWaiting s die seq, updateWaiting s die seq with
  | some (o, u), _ => .next (modUnit ok o.id u.tag u.recv fun u => { u with seq := none, page := none })
  | none, some (i, _) => .next (modDie ok die fun d =>
      { d with updates := updAt i (fun u => { u with seq := none }) d.updates })
  | none, none => .next (replyWritten s die seq false true)

/-- The block of the record of a parked path: that of the lowest lane of its lane mask, of those that a split of the warp
has left in it (R416). -/
def faultBlock (w : Warp) (f : Fault256) : Nat :=
  let m := f.lanes &&& BitVec.ofNat 32 (bits f.bits.toNat 159 128)
  (w.lane (lowLane (if m = 0#32 then f.lanes else m))).blk

/-- The grids and blocks of the paths under a sequence number. -/
def repliedBlocks (s : State) (die : Nat) (seq : Word) : List (Nat × Nat) :=
  ((parkedAt s die seq).map (fun x => (x.1.grid, faultBlock x.1 x.2)) ++
    (savedAt s die seq).map fun x => (x.1.grid, x.2.blk)).eraseDups

/-- FAULTREPLY_KILL (R324): the fatal path of R152 for the block, and for that of another part of the path where its warp
was split; an error for a unit or an update. -/
def execFaultreplyKill (die : Nat) (seq : BitVec 32) (s : State) : Host.Outcome State Fault Refusal :=
  let ok := replyWritten s die seq true false
  match repliedBlocks s die seq, unitWaiting s die seq, updateWaiting s die seq with
  | x :: t, _, _ => .next ((x :: t).foldl (fun st x => endGrid (killBlock st x.1 x.2 .killed) x.1 2) ok)
  | [], some (o, u), _ => .next (modUnit ok o.id u.tag u.recv fun u =>
      { u with seq := none, err := some (7, (u.page.map (·.2)).getD 0) })
  | [], none, some (i, u) =>
    let s := if u.own then queueError ok die u.queue 9 else ok
    .next (updateDone s die i u)
  | [], none, none => .next (replyWritten s die seq true true)

/-! ### Function-level reset (R384) -/

/-- The queues of a die whose descriptor names a function (R308); an array entry without a legal ring size
describes none. -/
def queuesOf (s : State) (die vf : Nat) : List Nat :=
  if (dieOf s die).qdescWritten then
    (List.range 4096).filter fun q =>
      let x := qdesc s die q
      qVf x = vf && decide (6 ≤ bits x 212 208) && decide (bits x 212 208 ≤ 16) && qState x ≠ 3
  else []

/-- FUNCTION_LEVEL_RESET (R384). -/
def execFunctionLevelReset (vf : Nat) (s : State) : Host.Outcome State Fault Refusal :=
  if 16 ≤ vf then .next s
  else
    let s := (List.range 4).foldl (fun st d => (queuesOf st d vf).foldl (fun st q => resetQueue st d q) st) s
    .next { s with pmcs := s.pmcs.map fun x =>
      if x.1 = vf then (x.1, { x.2 with cnt := List.replicate 4 0 }) else x }

/-! ### The host's and peers' accesses to memory (R294, R315, R345, R347, R361, R377) -/

/-- The entries of pages whose move is in progress: a host write of one is overwritten by the move (R361). -/
def movingEntries (s : State) : List Nat :=
  s.moves.filterMap fun m =>
    let at_ := fun asid v => match walk s asid (v * 65536) with
      | .leaf _ e a => if bit e 7 then some a else none
      | .unmapped .. => none
    match m with
    | .cow _ a v => at_ a v
    | .promote _ a v .. => at_ a v
    | .demote _ a v .. => at_ a v

/-- The range lies wholly in one region of the address map (R355). -/
def mapped (a n : Nat) : Bool :=
  rangeInHbm a n || (inGfam a && inGfam (a + n - 1)) || (inHost a && inHost (a + n - 1))

/-- The bits of a byte at an address that a host write leaves: those that a queue descriptor gives to the device, and
all of it while the descriptor's state is not 0 (R10, R308). -/
def keptBits (s : State) (a : Nat) : Byte :=
  match (List.range 4).find? fun d =>
      let b := baseAddr (dieOf s d).qdescBase
      (dieOf s d).qdescWritten && decide (b ≤ a) && decide (a < b + 64 * 4096) with
  | none => 0
  | some d =>
    let o := a - baseAddr (dieOf s d).qdescBase
    if qState (qdesc s d (o / 64)) ≠ 0 then 0xFF
    else match o % 64 with
      | 24 | 25 | 29 | 30 | 31 => 0xFF
      | 26 => 0xE0
      | k => if 32 ≤ k then 0xFF else 0

/-- PEER_MEMORY_ACCESS (R294): a write takes its place at its home; a read of a poisoned sector, or of a unit whose
tag fails, ends in an error completion (R347, R373). An access outside the regions, or to the reserved range, has no
effect (R355, R356, log 77). -/
def execPeerMemoryAccess (write : Bool) (pa : Nat) (bytes : List (BitVec 8)) (s : State) :
    Host.Outcome State Fault Refusal :=
  let n := bytes.length
  if n = 0 || !(mapped pa n) || (inHbm pa && meetsReserved s pa n) then .next s
  else if write then
    let held := movingEntries s
    let bs := bytes.mapIdx fun i b =>
      let k := keptBits s (pa + i)
      if (held.any fun a => a ≤ pa + i && pa + i < a + 8) || k = 0xFF then none
      else some ((readByte s .phys (pa + i) &&& k) ||| (b &&& ~~~k))
    let s := markDirty (homeWrite s .phys pa (keyId s 0) bs) .phys pa n
    .next (noteWatched s .phys pa n true [])
  else
    match readError s .phys pa n (keyId s 0) 0 with
    | some (_, s') => .next { s' with out := s'.out ++ [.readError pa] }
    | none =>
      let d := agentBytes s .phys pa n (keyId s 0)
      let s := noteRead s .phys pa n
      .next { s with out := s.out ++ [.readData pa d] }

/-! ### Registers with no behaviour of their own (R10, R11, R388) -/

/-- A write of 1 clears a bit, unless hardware sets it in the same cycle (R10). -/
def clears (s : State) (b : Sticky) (one : Bool) : Bool := one && !(s.justSet.contains b)

/-- A write of a function's counter registers (R385). -/
def writePmc (s : State) (fn offset : Nat) (v : Nat) : State :=
  let x := pmcOf s fn
  if 0x100 ≤ offset ∧ offset < 0x110 ∧ offset % 4 = 0 then
    let i := (offset - 0x100) / 4
    let old := (x.sel.getD i 0).toNat
    let ovf := if bit old 30 && !(clears s (.overflow fn i) (bit v 30)) then 2 ^ 30 else 0
    { s with pmcs := assign s.pmcs fn { x with
        sel := x.sel.set i (BitVec.ofNat 32 (bits v 31 31 * 2 ^ 31 + ovf + bits v 7 0)) } }
  else if 0x110 ≤ offset ∧ offset < 0x130 ∧ offset % 8 = 0 then
    { s with pmcs := assign s.pmcs fn { x with cnt := x.cnt.set ((offset - 0x110) / 8) (BitVec.ofNat 64 (v % 2 ^ 48)) } }
  else s

/-- A write of the package block by the physical function. -/
def writePackage (s : State) (offset : Nat) (v : BitVec 128) : State :=
  if offset = 0x28 then { s with badrange := s.badrange && !(clears s .badrange (v.getLsbD 29)) }
  else if offset = 0x70 then (if s.launched then s else { s with fabnode := v.setWidth 32 &&& 0xFFF#32 })
  else if offset = 0x80 then { s with asidtab := v.setWidth 64 &&& 0xFFFFFFFFFFFC0#64 }
  else if offset = 0xC0 then { s with mirin := v &&& 0x8FFF000FFFFFFFFF0000000FFFFFFFFF#128 }
  else if offset = 0xD0 then { s with mirBroken := s.mirBroken && !(clears s .broken (v.getLsbD 31)) }
  else if 0x1000 ≤ offset ∧ offset < 0x1400 ∧ offset % 16 = 0 then
    { s with fabwin := assign s.fabwin ((offset - 0x1000) / 16) (v &&& 0xEFFFFFFFFFFFFFFFFFFFFFFFFFFFFFFF#128) }
  else if 0x2000 ≤ offset ∧ offset < 0x2200 ∧ offset % 8 = 0 then
    let lo := (offset - 0x2000) * 8
    let kept := s.peermap.filter fun n => n < lo || lo + 64 ≤ n
    { s with peermap := kept ++ ((List.range 64).filter fun i => v.getLsbD i).map (· + lo) }
  else writePmc s 16 offset v.toNat

/-- A write of a cluster block. -/
def writeCluster (s : State) (die cl offset : Nat) (v : BitVec 128) : State :=
  if offset = 0x8 then modCluster s die cl fun c => { c with dbgctl := dbgctlWritten s die cl c.dbgctl (v.setWidth 32) }
  else if offset = 0x20 then dbgAccess s die cl (v.setWidth 64 &&& ~~~0x8000000000000000#64)
  else if 0x100 ≤ offset ∧ offset < 0x180 ∧ offset % 16 = 0 then
    modCluster s die cl fun c => { c with wpaddr := c.wpaddr.set ((offset - 0x100) / 16) (v.setWidth 64 &&& 0xFFFFFFFFFFFF8#64) }
  else if 0x108 ≤ offset ∧ offset < 0x188 ∧ offset % 16 = 8 then
    let x : Word := v.setWidth 32 &&& 0xFF800FFF#32
    let x := if bits x.toNat 30 29 = 0 then x &&& 0x7FFFFFFF#32 else x
    modCluster s die cl fun c => { c with wpctl := c.wpctl.set ((offset - 0x108) / 16) x }
  else s

/-- A write of a die block. A write of FAULTREPLY without go is no reply, and leaves seq and action as written (log 87). -/
def writeDie (s : State) (die offset : Nat) (v : BitVec 128) : State :=
  if offset = 0x4 then modDie s die fun d => { d with cpstat := if clears s (.takeover die) (v.getLsbD 31) then d.cpstat &&& 0x7FFFFFFF#32 else d.cpstat }
  else if offset = 0x28 then
    (if v.getLsbD 63 then s else modDie s die fun d => { d with
      reply := (d.reply &&& 0x4000000000000000#64) ||| (v.setWidth 64 &&& 0x1FFFFFFFF#64) })
  else if 0x20000 ≤ offset ∧ offset < 0x80000 then
    writeCluster s die ((offset - 0x20000) / 0x10000) ((offset - 0x20000) % 0x10000) v
  else s

/-- REGISTER_WRITE (R10, R388): a register that no other event writes, at its BAR 0 offset; `fn` 16 is the physical
function, and a virtual function reaches its own counters only. -/
def execRegisterWrite (fn offset : Nat) (v : BitVec 128) (s : State) : Host.Outcome State Fault Refusal :=
  if fn < 16 then .next (writePmc s fn offset v.toNat)
  else if fn ≠ 16 then .next s
  else if offset < 0x100000 then .next (writePackage s offset v)
  else .next (writeDie s ((offset - 0x100000) / 0x100000) ((offset - 0x100000) % 0x100000) v)

end Sys2Proof.Machine
end

