-- ==== Sys2Proof/Machine/HostReads.lean ====
section
/-! DEFINITION. What host reads of the registers return (R10, R388): the current value of a field that is read, zero for
a write-only field, a reserved one and an offset that no register has (log 79). -/

namespace Sys2Proof.Machine

/-- A register at an offset of its block: its bytes and its value. -/
structure Reg where
  at_ : Nat
  bytes : Nat
  value : Nat
  deriving DecidableEq, Repr

/-- The 32-bit word at an offset of a block of registers: zero where there is none (R388). -/
def regWord (l : List Reg) (offset : Nat) : Word :=
  match l.find? fun r => decide (r.at_ ≤ offset) && decide (offset < r.at_ + r.bytes) with
  | some r => let i := (offset - r.at_) / 4
              BitVec.ofNat 32 (bits r.value (32 * i + 31) (32 * i))
  | none => 0

/-- Some values of a width side by side from an offset on. -/
def regRow (at_ bytes : Nat) (l : List Nat) : List Reg := l.mapIdx fun i v => ⟨at_ + bytes * i, bytes, v⟩

/-- FWSTAT (R391): the lowest-numbered die that failed with its code. -/
def fwstat (s : State) : Nat :=
  let fails := (s.fwpass.mapIdx fun d c => (d, c.getD 0)).find? fun x => x.2 ≠ 0
  let (die, code) := fails.getD (0, 0)
  (if s.ready then 2 ^ 31 else 0) + (if s.passed then 2 ^ 30 else 0) + (if s.badrange then 2 ^ 29 else 0) +
    die * 2 ^ 22 + code * 2 ^ 16 + s.denied.toNat

/-- MEMCFG (R391). -/
def memcfgRead (s : State) : Nat := s.memcfg.toNat % 2 + (if s.launched then 2 else 0)

/-- COPSTAT (R391). -/
def copstat (d : Die) : Nat := d.copFails.toNat * 2 ^ 16 + d.copLate.toNat

/-- TLBINV (R361): go reads zero, busy as it is. -/
def tlbinvRead (s : State) : Nat := bits s.tlbinv.toNat 125 0 + (if s.tlbBusy then 2 ^ 126 else 0)

/-- The registers that every function has: features and its counters (R383, R385, R388). Event 7 reads zero in a virtual
function. -/
def functionRegs (s : State) (fn : Nat) : List Reg :=
  let x := pmcOf s fn
  let hidden := fun (i : Nat) => fn ≠ 16 && bits (x.sel.getD i 0).toNat 7 0 = 7
  regRow 0x0 4 ((List.range 4).map fun k => (offered s k).toNat) ++
    regRow 0x10 4 (s.featacc.map (·.toNat)) ++ regRow 0x100 4 (x.sel.map (·.toNat)) ++
    regRow 0x110 8 (x.cnt.mapIdx fun i c => if hidden i then 0 else c.toNat)

/-- The other registers of the package block (R388 Table 7); POOLADD and CKCMD read zero. -/
def packageRegs (s : State) : List Reg :=
  [⟨0x20, 8, s.fwrange.toNat⟩, ⟨0x28, 4, fwstat s⟩, ⟨0x30, 4, s.measgen.toNat⟩, ⟨0x34, 4, s.keypol.toNat⟩,
   ⟨0x38, 4, memcfgRead s⟩, ⟨0x40, 8, s.ctxBase.toNat⟩, ⟨0x48, 8, s.ctxSize.toNat⟩, ⟨0x50, 4, s.heapbw.toNat⟩,
   ⟨0x58, 4, s.pwrcap.toNat⟩, ⟨0x60, 8, 0⟩, ⟨0x68, 4, s.vfslice.toNat⟩, ⟨0x70, 4, s.fabnode.toNat⟩,
   ⟨0x80, 8, s.asidtab.toNat⟩, ⟨0x90, 16, tlbinvRead s⟩, ⟨0xB0, 8, s.mircfg.toNat⟩, ⟨0xC0, 16, s.mirin.toNat⟩,
   ⟨0xD0, 4, if s.mirBroken then 2 ^ 31 else 0⟩, ⟨0xE0, 8, (ckstat s).toNat⟩] ++
    regRow 0x1000 16 ((List.range 64).map fun i => (lookupD s.fabwin i 0).toNat) ++
    [⟨0x2000, 512, sumNat ((distinct (s.peermap.filter fun n => decide (n < 4096))).map (2 ^ ·))⟩]

/-- A record ring's four registers (R389). -/
def ringRegs (at_ : Nat) (r : Ring) : List Reg :=
  regRow at_ 8 [r.base.toNat, r.prod.toNat, r.cons.toNat] ++ [⟨at_ + 24, 4, r.lost.toNat⟩]

/-- The registers of a die block (R388 Table 7); SIGNOTIFY reads zero, and so does FAULTREPLY.go. Table 7 names no register
for the repair and binding tables (R159, R165): `hostRead` gives them (log 88). -/
def dieRegs (d : Die) : List Reg :=
  [⟨0x0, 4, d.clkind.toNat⟩, ⟨0x4, 4, d.cpstat.toNat⟩, ⟨0x8, 4, copstat d⟩, ⟨0xC, 4, d.badpte.toNat⟩,
   ⟨0x10, 8, d.qdescBase.toNat⟩, ⟨0x18, 4, d.qctl.toNat⟩, ⟨0x28, 8, bits d.reply.toNat 62 0⟩] ++
    ringRegs 0x40 d.fault ++ ringRegs 0x60 d.suspect ++ ringRegs 0x80 d.partialR ++ ringRegs 0xA0 d.memerr ++
    ringRegs 0xC0 d.reclaim ++ regRow 0xE0 8 [d.migbase.toNat, d.migtail.toNat, d.mighead.toNat] ++
    regRow 0x1000 16 ((List.range 256).map fun i => (lookupD d.watches i ⟨0, []⟩).reg.toNat)

/-- The registers of a cluster block (R388 Table 7); HOODDROP.clr, DBGCTL.go and step, and DBGACC.go read zero,
and so does DBGCTL.armed while the controller is not accepted (R383). -/
def clusterRegs (s : State) (c : Cluster) : List Reg :=
  [⟨0x0, 4, c.drop.toNat⟩,
   ⟨0x8, 4, (c.dbgctl &&& (if accepted s 11 then 0xCFFFFF00#32 else 0x4FFFFF00#32)).toNat⟩, ⟨0x10, 16, c.dbghit.toNat⟩,
   ⟨0x20, 8, bits c.dbgacc.toNat 62 0⟩] ++
    ((List.range 8).flatMap fun w => [⟨0x100 + 16 * w, 8, (c.wpaddr.getD w 0).toNat⟩,
      ⟨0x108 + 16 * w, 4, (c.wpctl.getD w 0).toNat⟩]) ++
    c.skid.map fun x => ⟨0x1000 + 4 * x.1, 4, x.2.toNat⟩

/-- The word that a function reads in BAR 0 (R388): there are the physical one and 16 virtual ones (R4). -/
def bar0Word (s : State) (fn offset : Nat) : Word :=
  if 16 < fn then 0
  else if fn < 16 then regWord (functionRegs s fn) offset
  else if offset < 0x100000 then regWord (functionRegs s 16 ++ packageRegs s) offset
  else
    let die := (offset - 0x100000) / 0x100000
    let o := (offset - 0x100000) % 0x100000
    if 4 ≤ die then 0
    else if 0x20000 ≤ o ∧ o < 0x80000 then
      regWord (clusterRegs s (clusterAt s die ((o - 0x20000) / 0x10000))) ((o - 0x20000) % 0x10000)
    else regWord (dieRegs (dieOf s die)) o

/-- The word that the physical function reads in BAR 4, the window of the reference counts (R362, R388). -/
def bar4Word (s : State) (offset : Nat) : Word :=
  if offset < 18 * 2 ^ 20 then
    let f := offset / 4 * 2
    BitVec.ofNat 32 ((countOf s (65536 * f)).toNat + (countOf s (65536 * (f + 1))).toNat * 2 ^ 16)
  else 0

/-- The repair table and the binding table of a die side by side (R159): the host reads them, but R388 names no register
for them, so the model puts them outside the BARs, at a number of their own for each die (log 88). -/
def tableRegs (s : State) (die : Nat) : List Reg :=
  ⟨0, 64, (dieOf s die).repair.toNat⟩ ::
    regRow 64 16 ((List.range Config.positions).map fun p => (coreAt s die p).entry.toNat)

/-- A host read of the 32-bit word at an offset of a BAR of a function, 16 the physical one (R10, R388): the doorbells of
BAR 2 are write-only and read zero; numbers 8 to 11 are the tables of dies 0 to 3 (R159). No read changes a register. -/
def hostRead (s : State) (fn bar offset : Nat) : State :=
  let v : Word := match bar with
    | 0 => bar0Word s fn offset
    | 4 => if fn = 16 then bar4Word s offset else 0
    | _ => if fn = 16 && decide (8 ≤ bar) && decide (bar < 12) then regWord (tableRegs s (bar - 8)) offset else 0
  { s with out := s.out ++ [.register fn bar offset v] }

end Sys2Proof.Machine
end

