-- ==== Sys2Proof/Machine/Clock.lean ====
section
/-! DEFINITION. The passing of time (R166, R251, R280, R415): package nanoseconds, core cycles of each die,
watchdogs, and what pauses while a cluster is stopped. -/

namespace Sys2Proof.Machine

/-- A core over `n` core cycles: watchdogs count in service mode (R251); hold and bed timers pause while
the cluster is stopped (R280). -/
def Core.pass (c : Core) (stopped : Bool) (n : Nat) : Core :=
  if stopped then
    { c with
      beds := c.beds.map fun b => { b with opened := b.opened + n },
      warps := c.warps.map fun w =>
        let held := fun (t : Thread) => match t.wait with
          | .fuse k => { t with wait := .fuse (k + n) }
          | _ => t
        { w with th := w.th.map held } }
  else if c.service then
    { c with
      warps := c.warps.map fun w => { w with wdog := BitVec.ofNat 32 (w.wdog.toNat - n) } }
  else c

/-- Time passes before a turn: `ns` nanoseconds, and core cycles of each die (R415). Bits that hardware set before any of
it passed were set in an earlier cycle (R10). -/
def tick (s : State) (ns : Nat) (cycles : List Nat) : State :=
  { s with
    ns := s.ns + ns,
    justSet := if ns = 0 && cycles.all (· = 0) then s.justSet else [],
    dies := s.dies.mapIdx fun d x => { x with cycles := x.cycles + cycles.getD d 0 },
    cores := s.cores.map fun c =>
      let n := cycles.getD c.die 0
      if n = 0 then c else c.pass (clusterStopped s c.die (clusterOf c.pos)) n }

end Sys2Proof.Machine
end

