-- ==== Sys2Proof/Machine/Atomics.lean ====
section
/-! DEFINITION. Atomics (R270 to R275), hood-window arrivals (R264, R265). -/

namespace Sys2Proof.Machine

/-- The width in bytes of an atomic. -/
def atomWidth (w : BitVec 1) : Nat := if w = 1#1 then 8 else 4

/-- Registers of the d field (R271 Table 3): `cas` names the compare value and the swap value. -/
def atomRegs (op w : Nat) : Nat := (if op = 9 then 2 else 1) * (w / 4)

/-- The new value of an atomic element (R271 Table 3): `v` is the operand or the compare value, `x` the
swap value. -/
def atomNew (op w old v x : Nat) : Nat :=
  let n := 8 * w
  match op with
  | 0 => (old + v) % 2 ^ n
  | 1 => if sintN n old ≤ sintN n v then old else v
  | 2 => if sintN n v ≤ sintN n old then old else v
  | 3 => min old v
  | 4 => max old v
  | 5 => old &&& v
  | 6 => old ||| v
  | 7 => old ^^^ v
  | 8 => v
  | 9 => if old = v then x else old
  | 10 => if v ≤ old then 0 else old + 1
  | 11 => (addF fp32 0 (fp32.decode old) (fp32.decode v)).1
  | _ => (addF bf16 0 (bf16.decode (bits old 15 0)) (bf16.decode (bits v 15 0))).1 +
      (addF bf16 0 (bf16.decode (bits old 31 16)) (bf16.decode (bits v 31 16))).1 * 2 ^ 16

/-- An atomic in every active lane (R270 to R274): every lane is checked as a write before any element is
sent. A returning form owes its d fields, the other has captured them. -/
def atomLanes (i : Instr) (sp : Sp) (la : BitVec 4) (d a : BitVec 7) (ret : Bool) (w : BitVec 1) (op : Nat)
    (s : State) : Host.Outcome State Fault Refusal :=
  perPath i s fun p t =>
    let size := atomWidth w
    let ea := p.ea sp a.toNat 0
    match p.checkAll s sp true size ea with
    | some f => .fault f
    | none =>
      let n := atomRegs op size
      let all := fun (th : Thread) => th.locs d.toNat n
      let accs := (p.targets s sp true size ea).map fun x =>
        let th := p.th x.1
        let v := (th.data d.toNat (size / 4)).toNat
        let y := if op = 9 then (th.data (d.toNat + size / 4) (size / 4)).toNat else 0
        p.lane sp (.atomic op size ret) size ea x [] (BitVec.ofNat 128 v) (BitVec.ofNat 64 y)
          (if ret then th.locs d.toNat (size / 4) else [])
      .done (p.launch s (p.frontier t) ret accs la.toNat (!ret)
        (fun th => if ret then all th else []) (fun th => if ret then [] else all th))

/-- `atomg` (R270 to R275): the scope is a hint. -/
def execAtomg (la : BitVec 4) (d a : BitVec 7) (r : BitVec 1) (x : BitVec 2) (w : BitVec 1) (o : BitVec 4)
    (s : State) : Host.Outcome State Fault Refusal :=
  atomLanes (.atomg la d a r x w o) .global la d a (r = 1#1) w o.toNat s

/-- `atoms` (R264, R270 to R274). -/
def execAtoms (la : BitVec 4) (d a : BitVec 7) (r w : BitVec 1) (o : BitVec 4) (s : State) :
    Host.Outcome State Fault Refusal :=
  atomLanes (.atoms la d a r w o) .scratch la d a (r = 1#1) w o.toNat s

/-- `atomh` (R264, R265, R270 to R274). -/
def execAtomh (la : BitVec 4) (d a : BitVec 7) (r w : BitVec 1) (o : BitVec 4) (s : State) :
    Host.Outcome State Fault Refusal :=
  atomLanes (.atomh la d a r w o) .hood la d a (r = 1#1) w o.toNat s

/-- An element is applied as one indivisible read-modify-write (R272); poisoned data that would reach a
register of a thread that still runs is a memory error, and poisoned data that would not is modified in place (R102, R347;
log 54). -/
def performAtomic (s : State) (o : Op) (a : LaneAcc) (op w : Nat) (ret : Bool) : State :=
  if genCurrent s a.gen then
    match (readError s a.sp a.addr w a.kd o.asid).filter fun x => (ret && owing s o a.lane) || x.1 ≠ 1 with
    | some (code, s') =>
      loadError (accessDone s' o a.lane) s o a code true
    | none =>
      let old := ofBytes (agentBytes s a.sp a.addr w a.kd)
      let new := atomNew op w old a.data.toNat a.data2.toNat
      let s := performWrite s a.sp a.addr a.kd ((toBytes w new).map some) a.mir o.uid o.cov [(o.grid, a.blk)]
      let s := if ret then receive s o.uid o.id a.lane (withDst a.dst old) else s
      let s := watchSpace s { o.src 2 with lane := a.lane } true true a.sp o.asid a.va a.addr w
      accessDone s o a.lane
  else
    let s := match a.gen with
      | some (d, q, _) => countDrop s d q
      | none => s
    let s := if ret then receive s o.uid o.id a.lane (withDst a.dst 0) else s
    accessDone s o a.lane

/-- ATOMIC_ELEMENT_APPLY (R272). -/
def execAtomicElementApply (op lane : Nat) (s : State) : Host.Outcome State Fault Refusal :=
  match pendingAt s op lane with
  | some (o, a) =>
    match a.kind with
    | .atomic f w r => .next (if enabled s o a && a.gen.isNone then performAtomic s o a f w r else s)
    | _ => .next s
  | none => .next s

/-- HOOD_ACCESS_ARRIVAL (R265): a window access or element arrives at its target core. -/
def execHoodAccessArrival (op lane : Nat) (s : State) : Host.Outcome State Fault Refusal :=
  match pendingAt s op lane with
  | some (o, a) =>
    if enabled s o a && a.gen.isSome then
      match a.kind with
      | .load _ sg => .next (performLoad s o a sg)
      | .store => .next (performStore s o a)
      | .atomic f w r => .next (performAtomic s o a f w r)
      | _ => .next s
    else .next s
  | none => .next s

end Sys2Proof.Machine
end

