-- ==== Sys2Proof/Machine/Control.lean ====
section
/-! DEFINITION. Control transfer, exit, guards, `fuse`, traps and loops (R33, R72, R98 to R104, R194 to R196,
R417). -/

namespace Sys2Proof.Machine

/-! ### Control transfer -/

/-- The lanes of a mask take a branch to their targets; a branch is no arrival at a loop level (R195). -/
def Path.jump (p : Path) (s : State) (m : BitVec 32) (target : Nat → Nat) : State :=
  let s := p.setThreads s m fun k t => { t with pc := BitVec.ofNat 52 (target k) }
  { s with cur := { s.cur with jumped := m } }

/-- Write the link pair g12:g13 of the lanes of a mask (R98, R99). -/
def Path.link (p : Path) (s : State) (m : BitVec 32) : State :=
  p.setThreads s m fun _ t => t.setPair 124 ((p.pc + 4).setWidth 64)

/-- The lanes that take a branch of a condition (R98). -/
def Path.taken (p : Path) (c : Nat) : BitVec 32 :=
  p.failing fun k =>
    if c ≤ 11 then (p.th k).pred c
    else if c = 12 then true
    else (laneList p.act).any fun j => (p.th j).pred 0

/-- `bra` and `call` (R98): the target depends on the address of the word alone. -/
def branch (i : Instr) (isCall : Bool) (c : BitVec 4) (o : BitVec 22) (s : State) :
    Host.Outcome State Fault Refusal :=
  issue i s fun p t =>
    let m := p.taken c.toNat
    let tgt : Int := p.pc.toNat + 4 * o.toInt
    if m ≠ 0#32 ∧ (tgt < 0 ∨ (2 : Int) ^ 52 ≤ tgt) then .fault (Flt.target 2 m (wrapN 64 tgt))
    else
      let t := if isCall then p.link t m else t
      .done (p.jump t m fun _ => tgt.toNat)

/-- The checks of a register target (R101, R149): code 1 ahead of code 2; the address is the target. -/
def targetFault (p : Path) (tgt : Nat → BitVec 64) : Option Flt :=
  let odd := p.failing fun k => (tgt k).toNat % 4 ≠ 0
  let bad := p.failing fun k => (tgt k).toNat % 4 ≠ 0 || 2 ^ 52 ≤ (tgt k).toNat
  if bad = 0#32 then none else some (Flt.target (if odd ≠ 0#32 then 1 else 2) bad (tgt (lowLane bad)).toNat)

/-- A transfer to a register pair of each lane (R101). -/
def transfer (i : Instr) (linked : Bool) (n : Nat) (s : State) : Host.Outcome State Fault Refusal :=
  issue i s fun p t =>
    let tgt := fun k => (p.th k).pair n
    match targetFault p tgt with
    | some f => .fault f
    | none =>
      let t := if linked then p.link t p.act else t
      .done (p.jump t p.act fun k => (tgt k).toNat)

/-- `bra` (R98). -/
def execBra (c : BitVec 4) (o : BitVec 22) (s : State) : Host.Outcome State Fault Refusal :=
  branch (.bra c o) false c o s

/-- `call` (R98, R99). -/
def execCall (c : BitVec 4) (o : BitVec 22) (s : State) : Host.Outcome State Fault Refusal :=
  branch (.call c o) true c o s

/-- `jmp` (R101). -/
def execJmp (a : BitVec 7) (s : State) : Host.Outcome State Fault Refusal :=
  transfer (.jmp a) false a.toNat s

/-- `callr` (R101). -/
def execCallr (a : BitVec 7) (s : State) : Host.Outcome State Fault Refusal :=
  transfer (.callr a) true a.toNat s

/-- `ret` (R101): to g13:g12. -/
def execRet (s : State) : Host.Outcome State Fault Refusal := transfer .ret false 124 s

/-! ### Exit (R102) -/

/-- What follows when lanes of a warp have exited: barriers, the gang latch, the warp's slot, retirement
(R37, R102, R211, R213, R226, R263). -/
def afterExit (s : State) (die pos slot g : Nat) (blks : List Nat) : State :=
  let s := settleBarw s die pos slot
  let s := blks.foldl (fun st b => match gridAt st g with
    | some x => settleHood st x b
    | none => st) s
  let s := match (coreAt s die pos).warpAt slot with
    | some w => if w.th.any Thread.running then s else gangBroken s die pos w
    | none => s
  let s := reapWarps s die pos
  blks.foldl (fun st b => checkRetired st g b) s

/-- `exit` (R102). -/
def execExit (s : State) : Host.Outcome State Fault Refusal :=
  issue .exit s fun p t =>
    if p.any then
      let t := p.mod t fun w => (w.leave p.act .exited).settle
      .done (afterExit t p.die p.pos p.slot p.grid.id
        (distinct ((laneList p.act).map fun k => (p.th k).blk)))
    else .done t

/-! ### `fuse`, `trap`, guards -/

/-- `fuse` (R33, R103): nothing on a warp without sprigs; otherwise the active lanes wait at it, and the
hold ends at once when every other group waits there. The issue counts towards R332 as any does. -/
def execFuse (s : State) : Host.Outcome State Fault Refusal :=
  issue .fuse s fun p t =>
    if p.any && p.w.sprigs ≠ 0#8 then
      let began := ((List.range 32).filterMap fun k =>
        if p.w.fusing p.pc k && p.w.groupOf k = p.grp then
          (match (p.w.lane k).wait with | .fuse c => some c | _ => none) else none).headD (dieOf s p.die).cycles
      let t := p.setThreads t p.act fun k th => { p.th k with wait := .fuse began, stopIssues := th.stopIssues }
      .done (p.mod t fun w => (w.fuseEnd p.pc false).fuseSettle)
    else .done t

/-- `trap` (R104, R154): the user trap in every active lane. -/
def execTrap (c : BitVec 7) (s : State) : Host.Outcome State Fault Refusal :=
  issue (.trap c) s fun p t =>
    if p.any then .fault (Flt.plain 10 c.toNat p.act) else .done t

/-- A guard starts its window in every thread of the path (R72, R417). -/
def guardPath (i : Instr) (sense : Bool) (q n : BitVec 7) (s : State) : Host.Outcome State Fault Refusal :=
  issue i s fun p t => .done (p.setThreads t p.lanes fun k th =>
    { th with guardN := n.extractLsb' 0 4, guardEn := (p.th k).pred q.toNat == sense })

/-- `guard` (R72). -/
def execGuard (q n : BitVec 7) (s : State) : Host.Outcome State Fault Refusal :=
  guardPath (.guard q n) true q n s

/-- `guard.n` (R72). -/
def execGuardN (q n : BitVec 7) (s : State) : Host.Outcome State Fault Refusal :=
  guardPath (.guardN q n) false q n s

/-! ### Loops (R194 to R196) -/

/-- The loop level n of a warp as it stood when the cycle began (R22). -/
def Warp.level (w : Warp) (n : Nat) : Loop := w.old.loops.getD n ⟨false, 0, 0, 0, 0, 0⟩

/-- `loop` with a body of `len` instructions (R194). -/
def enterLoop (i : Instr) (d a : BitVec 7) (len : Nat) (s : State) : Host.Outcome State Fault Refusal :=
  perPath i s fun p t =>
    let c := p.reg0 a.toNat
    let first := p.pc.toNat + 4
    let last := p.pc.toNat + 4 * len
    if (p.w.level d.toNat).active then .fault (Flt.plain 9 22 p.act)
    else if p.w.old.loops.any fun m => m.active && (decide (first < m.first) || decide (m.last < last)) then
      .fault (Flt.plain 9 23 p.act)
    else if c = 0#32 then
      .done (p.setThreads t p.act fun _ th => { th with pc := BitVec.ofNat 52 (last + 4) })
    else
      let order := maxNat (p.w.sh.loops.map fun m => m.order) + 1
      .done (p.share t fun x => { x with loops := x.loops.set d.toNat ⟨true, c, first, last, p.act, order⟩ })

/-- `loop`, fn 8 (R194). -/
def execLoop (d a b : BitVec 7) (s : State) : Host.Outcome State Fault Refusal :=
  enterLoop (.loop d a b) d a (b.toNat + 1) s

/-- `loop`, fn 9 (R194). -/
def execLoopLong (d a b : BitVec 7) (s : State) : Host.Outcome State Fault Refusal :=
  enterLoop (.loopLong d a b) d a (b.toNat + 129) s

/-- `brk` (R196). -/
def execBrk (d : BitVec 7) (s : State) : Host.Outcome State Fault Refusal :=
  issue (.brk d) s fun p t =>
    let l := p.w.level d.toNat
    if p.any then
      if !l.active || (laneList p.act).any (fun k => !(l.members.getLsbD k)) then .fault (Flt.plain 9 24 p.act)
      else
        let drop := fun (m : Loop) =>
          if m.active && decide (l.order ≤ m.order) then { m with members := m.members &&& ~~~p.act } else m
        let t := p.share t fun x => { x with loops := x.loops.map drop }
        .done (p.setThreads t p.act fun _ th => { th with pc := BitVec.ofNat 52 (l.last + 4) })
    else .done t

end Sys2Proof.Machine
end

