-- ==== Sys2Proof/Machine/Convert.lean ====
section
/-! DEFINITION. Conversion and quantising to N4X (R128 to R132). -/

namespace Sys2Proof.Machine

/-- `cvt` on one word (R128): the source's low bits converted, the result extended to 32 bits. -/
def cvtWord (src tgt rm : Nat) (sat : Bool) (a : Word) : Word × Fl :=
  let (r, fl) := convert src tgt rm sat a.toNat
  (match intFmt tgt with
    | some (w, true) => BitVec.ofInt 32 (sintN w r)
    | _ => BitVec.ofNat 32 r, fl)

/-- `cvt` (R128). -/
def execCvt (d a : BitVec 7) (m : BitVec 1) (r : BitVec 2) (x t : BitVec 4) (s : State) :
    Host.Outcome State Fault Refusal :=
  perFloat (.cvt d a m r x t) d (fun th => cvtWord x.toNat t.toNat r.toNat (m = 1#1) (th.reg a.toNat)) s

/-! ### `cvto` (R129 to R132) -/

/-- A quotient rounded to an int, with whether it was exact; an infinite quotient is beyond every clamp. -/
def quotInt (x d : Num) : Int × Bool :=
  match x, d with
  | .fin n m e, .fin n' m' e' => if m = 0 then (0, true) else roundToInt 0 (n != n') m m' (e - e')
  | .inf n, .fin n' _ _ => (if n != n' then -8 else 8, true)
  | _, _ => (0, true)

/-- A quotient rounded to a format with `rn` and `prop`. DESIGN CHOICE (log 93): the quotient of a zero is the zero of the
signs' XOR, which R45 does not state for the escape of R130. -/
def quotF (f : Fmt) (x d : Num) : Nat × Fl :=
  match x, d with
  | .fin n m e, .fin n' m' e' =>
    if m = 0 then (f.signed (n != n') 0, 0) else roundRat f 0 false (n != n') m m' (e - e')
  | .inf n, .fin n' _ _ => roundNum f 0 false (.inf (n != n'))
  | _, _ => (f.nan, 0)

/-- The half block of `cvto`: slots, side list, outliers and flags. -/
structure Quant where
  slots : List Nat
  side : List Nat
  out : List Bool
  fl : Fl
  deriving DecidableEq, Repr

/-- The magnitude of a value is at most T. -/
def withinT (x t : Num) : Bool :=
  let ax := match x with
    | .fin _ m e => Num.fin false m e
    | .inf _ => .inf false
    | y => y
  !t.isNan && !x.isNan && decide (Num.cmp ax t ≤ 0)

/-- R130 over 32 elements: `act k` says whether lane k is active, `x k` its value, `t` and `sg` the
threshold and the scale. DESIGN CHOICE (log 91): a signalling NaN as the threshold sets no invalid flag, by the list of
R131 and against the general words of R43. -/
def quantise (act : Nat → Bool) (x : Nat → Num) (t sg : Num) : Quant :=
  let bad := sg.isZero || sg.isInf || sg.isNan
  let out := (List.range 32).map fun k => act k && (bad || !(withinT (x k) t))
  let o := fun k => out.getD k false
  let q := fun k => if act k && !(o k) then quotInt (x k) sg else (0, true)
  let n := fun k => max (-7) (min 7 (q k).1)
  let init : List Nat × List Nat × List Nat × Fl := ([], [], [], 0)
  -- state: slots so far, pending filler nibbles, side list, flags
  let r := (List.range 32).foldl (fun st k =>
    let (slots, fill, side, fl) := st
    match fill with
    | f :: fill => (slots ++ [f], fill, side, fl)
    | [] =>
      if !(o k) then (slots ++ [wrapN 4 (n k)], [], side, fl)
      else
        let (f, ffl) := quotF f8e4 (x k) sg
        if !bad && decide (k ≤ 29) && !(o (k + 1)) && !(o (k + 2)) && n (k + 1) = 0 && n (k + 2) = 0 &&
            !(f8e4.decode f).isNan then
          (slots ++ [8], [bits f 7 4, bits f 3 0], side, fl ||| (ffl &&& (flInexact ||| flUnderflow)))
        else
          let (b, bfl) := roundNum bf16 0 false (x k)
          (slots ++ [0], [], side ++ [k * 2 ^ 16 + b],
            fl ||| (bfl &&& (flInexact ||| flUnderflow ||| flOverflow)))) init
  let lanes := List.range 32
  let fl := r.2.2.2 ||| flIf (lanes.any fun k => !(q k).2) flInexact |||
    flIf (lanes.any fun k => (q k).1 ≠ n k) flSaturated |||
    flIf (bad || lanes.any fun k => act k && (x k).signalling) flInvalid
  ⟨r.1, r.2.2.1, out, fl⟩

/-- The eight slots that a lane packs into its word (R130). -/
def packSlots (slots : List Nat) (k : Nat) : Nat :=
  sumNat ((List.range 8).map fun j => slots.getD (8 * (k / 8) + j) 0 * 16 ^ j)

/-- `cvto` (R129 to R132): the side list is written by lane l0 as the instruction issues (log 24). -/
def execCvto (d a b : BitVec 7) (x : BitVec 1) (q : BitVec 4) (s : State) : Host.Outcome State Fault Refusal :=
  perPath (.cvto d a b x q) s fun p t =>
    let f := if x = 1#1 then bf16 else fp32
    let val := fun (w : Word) => f.decode (w.toNat % (2 * f.signBit))
    let r := quantise p.act.getLsbD (fun k => if p.act.getLsbD k then val ((p.th k).reg a.toNat) else .fin false 0 0)
      (val (p.reg0 b.toNat)) (bf16.decode ((p.reg0 (b.toNat + 1)).toNat % 2 ^ 16))
    let ad := (p.reg0 (b.toNat + 2)).toNat
    let n := 4 * r.side.length
    match firstFault [p.pathCheck (n ≠ 0 && ad % 4 ≠ 0) 5 1 1 true ad,
                      p.pathCheck (n ≠ 0 && decide (p.scratchBytes < ad + n)) 5 3 1 true ad] with
    | some e => .fault e
    | none =>
      let t := p.setThreads t p.act fun k th =>
        ((th.setReg d.toNat (BitVec.ofNat 32 (packSlots r.slots k))).setReg (d.toNat + 1)
          (BitVec.ofNat 32 r.side.length)).setPred q.toNat (r.out.getD k false)
      let t := agentWrite t p.scratch ad 0 ((r.side.flatMap (toBytes 4)).map some)
      .done (p.flags (watchScratch t (p.src p.l0 1) false true p.die p.pos ad n) r.fl)

end Sys2Proof.Machine
end

