-- ==== Sys2Proof/Machine/CoreState.lean ====
section
/-! DEFINITION. Slots, cuttings, idempotent regions, yields and layout registers (R35, R170, R174, R197 to R201,
R211, R212). -/

namespace Sys2Proof.Machine

/-! ### Operand slots (R211, R212) -/

/-- The waiting claims with one more: claims of one cycle stand in ascending warp slot (R212). -/
def addClaim (l : List Claim) (c : Claim) : List Claim :=
  insertBy (fun x y => !y.resumed && x.cycle = y.cycle && decide (x.wslot < y.wslot)) c l

/-- `slot.claim` (R211): a slot of another warp makes the path wait for its grant. -/
def execSlotClaim (la k : BitVec 4) (s : State) : Host.Outcome State Fault Refusal :=
  perPath (.slotClaim la k) s fun p t =>
    let kn := p.kernel
    if kn.slots ≤ k.toNat then .fault (Flt.plain 9 18 p.act)
    else match kn.owner.lookup k.toNat with
      | none => .done (modKernel t p.die p.pos p.grid.id fun x => { x with owner := (k.toNat, p.w.uid) :: x.owner })
      | some u =>
        if u = p.w.uid then .done t
        else .again (modKernel s p.die p.pos p.grid.id fun x =>
          { x with
            claims := addClaim x.claims ⟨k.toNat, p.w.uid, p.lanes, false, (dieOf s p.die).cycles, p.slot, []⟩ })

/-- `slot.rel` (R211). -/
def execSlotRel (la k : BitVec 4) (s : State) : Host.Outcome State Fault Refusal :=
  perPath (.slotRel la k) s fun p t =>
    if p.kernel.slots ≤ k.toNat then .fault (Flt.plain 9 18 p.act)
    else if p.kernel.owner.lookup k.toNat ≠ some p.w.uid then .fault (Flt.plain 9 25 p.act)
    else .done (freeSlot t p.die p.pos p.grid.id k.toNat)

/-! ### Cuttings (R35, R170, R197, R198) -/

/-- A cutting enters the bed of its key, or a free bed takes the key (R35). -/
def Core.enterBed (c : Core) (grid : Nat) (entry : BitVec 52) (x : Cutting) (now : Nat) : Core :=
  if c.beds.any fun b => b.grid = grid && b.entry = entry then
    { c with
      beds := updWhere (fun b => b.grid = grid && b.entry = entry)
        (fun b => { b with cuttings := b.cuttings ++ [x] }) c.beds }
  else { c with beds := c.beds ++ [⟨grid, entry, [x], now⟩] }

/-- `spawn` (R197, R198): the lanes that fit enter and go on; the others stay at the instruction (R170). -/
def execSpawn (a b : BitVec 7) (s : State) : Host.Outcome State Fault Refusal :=
  perPath (.spawn a b) s fun p t =>
    let ent := fun k => (p.th k).pair a.toNat
    let odd := p.failing fun k => (ent k).toNat % 4 ≠ 0
    let bad := p.failing fun k => (ent k).toNat % 4 ≠ 0 || 2 ^ 52 ≤ (ent k).toNat
    if bad ≠ 0#32 then .fault (Flt.target (if odd ≠ 0#32 then 1 else 2) bad (ent (lowLane bad)).toNat)
    else if p.kernel.beds = 0 then .fault (Flt.plain 9 16 p.act)
    else
      let now := (dieOf s p.die).cycles
      .done ((laneList p.act).foldl (fun st k =>
        let e := (ent k).extractLsb' 0 52
        let th := p.th k
        if bedRoom (coreAt st p.die p.pos) p.kernel.beds p.grid.id e then
          let x : Cutting :=
            { g := (List.range 4).map fun j => th.reg (b.toNat + j), entry := e, thx := th.thx, thy := th.thy,
              thz := th.thz, grid := p.grid.id, blk := th.blk,
              after := p.forkAfter s (BitVec.ofNat 32 (2 ^ k)) }
          modCore st p.die p.pos fun c => c.enterBed p.grid.id e x now
        else p.setThreads st (BitVec.ofNat 32 (2 ^ k)) fun _ _ => th)
        (modCore t p.die p.pos fun c => { c with spawned := some (now, p.slot) }))

/-! ### Idempotent regions and yield (R199, R200, R249) -/

/-- `idem` (R199). -/
def execIdem (s : State) : Host.Outcome State Fault Refusal :=
  perPath .idem s fun p t => .done (p.share t fun h => { h with idem := true })

/-- `idemx` (R199). -/
def execIdemx (s : State) : Host.Outcome State Fault Refusal :=
  perPath .idemx s fun p t => .done (p.share t fun h => { h with idem := false })

/-- `yield` (R200): the warp counts as selected in this cycle; in service mode its watchdog is loaded. -/
def execYield (i : BitVec 12) (s : State) : Host.Outcome State Fault Refusal :=
  perPath (.yield i) s fun p t =>
    .done (p.mod t fun w =>
      { w with
        lastSel := p.core.sel,
        wdog := if p.core.service then BitVec.ofNat 32 (max i.toNat 1 * 1024) else w.wdog })

/-! ### Layout registers (R185, R201) -/

/-- Change a layout register. -/
def Path.setLx (p : Path) (t : State) (d : Nat) (f : BitVec 192 → BitVec 192) : State :=
  p.share t fun h => { h with lx := updAt d f h.lx }

/-- `lxbase` (R201). -/
def execLxbase (d a : BitVec 7) (s : State) : Host.Outcome State Fault Refusal :=
  perPath (.lxbase d a) s fun p t =>
    let v := (p.pair0 a.toNat).toNat
    match firstFault [p.pathCheck (decide (2 ^ 52 ≤ v)) 5 2 0 false v] with
    | some f => .fault f
    | none => .done (p.setLx t d.toNat fun x => BitVec.ofNat 192 (putBits x.toNat 51 0 v))

/-- `lxext.i` (R201). -/
def lxExt (i : Instr) (n : Nat) (d a : BitVec 7) (s : State) : Host.Outcome State Fault Refusal :=
  perPath i s fun p t =>
    .done (p.setLx t d.toNat fun x =>
      BitVec.ofNat 192 (putBits x.toNat (32 * n + 95) (32 * n + 64) (p.reg0 a.toNat).toNat))

/-- `lxext.0` (R201). -/
def execLxext0 (d a : BitVec 7) (s : State) : Host.Outcome State Fault Refusal := lxExt (.lxext0 d a) 0 d a s

/-- `lxext.1` (R201). -/
def execLxext1 (d a : BitVec 7) (s : State) : Host.Outcome State Fault Refusal := lxExt (.lxext1 d a) 1 d a s

/-- `lxext.2` (R201). -/
def execLxext2 (d a : BitVec 7) (s : State) : Host.Outcome State Fault Refusal := lxExt (.lxext2 d a) 2 d a s

/-- `lxext.3` (R201). -/
def execLxext3 (d a : BitVec 7) (s : State) : Host.Outcome State Fault Refusal := lxExt (.lxext3 d a) 3 d a s

end Sys2Proof.Machine
end

