-- ==== Sys2Proof/Machine/Preempt.lean ====
section
/-! DEFINITION. Saving, flushing and resuming neighbourhoods, and the context heap (R243 to R250, R302, R336 to
R341, R416). -/

namespace Sys2Proof.Machine

/-! ### The context heap (R336, R337) -/

/-- Bytes of the heap. -/
def heapUnits (s : State) : Nat := bits s.ctxSize.toNat 39 16

/-- The lowest free run of 64 KiB units, leaving out a context's own (R336). -/
def findUnits (s : State) (own n : Nat) : Option Nat :=
  let base := bits s.ctxBase.toNat 51 16 * 65536
  let used := (s.contexts.filter fun c => c.id ≠ own).map fun c => ((c.addr - base) / 65536, c.units)
  let starts := sortBy (fun a b => decide (a < b)) (0 :: used.map fun x => x.1 + x.2)
  (starts.find? fun k => decide (k + n ≤ heapUnits s) &&
    used.all fun x => decide (k + n ≤ x.1) || decide (x.1 + x.2 ≤ k)).map fun k => base + 65536 * k

/-- Bytes before the payloads of a context of n image blocks (R337). -/
def headBytes (nimg : Nat) : Nat := 128 + (4 * nimg + 15) / 16 * 16

/-- Units that an image of some bytes and its header need (R337). -/
def unitsFor (raw : Nat) : Nat := ceilDiv (raw + headBytes (raw / 256)) 65536

/-- A context of a neighbourhood. -/
def contextOf (s : State) (g h : Nat) : Option Context := s.contexts.find? fun c => c.grid = g && c.hood = h

/-! ### Stopping (R243, R332) -/

/-- Ask every warp of some blocks to stop at pre-emption points (R243); the counts of R332 of their threads start. -/
def requestStop (s : State) (g : Nat) (blks : List Nat) : State :=
  modWarps s (fun w => w.holds g blks) fun w =>
    { w with
      stopReq := true,
      th := w.th.map fun t => if blks.contains t.blk then { t with stopIssues := 0 } else t }

/-- Reserve a context of a neighbourhood (R337), none without room. `raw` is the estimate of its image. -/
def reserve (s : State) (g : Grid) (h : Hood) (raw : Nat) : Option State :=
  (findUnits s 0 (unitsFor raw)).map fun a =>
    let c : Context :=
      { id := s.nextId, addr := a, units := unitsFor raw, st := 1, cdie := 0, kind := g.kind, grid := g.id, hood := h.idx,
        savedNs := 0, blocks := [] }
    let s := { s with contexts := s.contexts ++ [c], nextId := s.nextId + 1 }
    devWrite s a 128 (headerWord s c 0 0)

/-- Begin the save of a neighbourhood with a reserved context (R337); without room it drains. -/
def beginSave (s : State) (g : Grid) (h : Hood) (raw : Nat) : State :=
  match reserve s g h raw with
  | none => modHood s g.id h.idx fun h => { h with st := .draining }
  | some s => requestStop (modHood s g.id h.idx fun h => { h with st := .saving }) g.id (h.placed.map (·.idx))

/-! ### What a save waits for (R71, R243 to R245, R302) -/

/-- The warps that hold lanes of a neighbourhood's placed blocks, with their cores. -/
def hoodWarps (s : State) (g : Grid) (h : Hood) : List (Core × Warp) :=
  s.cores.flatMap fun c => (c.warps.filter fun w => w.holds g.id (h.placed.map (·.idx))).map fun w => (c, w)

/-- An instruction at which a blocked path rests (R243): the points of R78 that wait, and `spawn` (R198). -/
def restsAt (i : Instr) : Bool :=
  match i with
  | .tbwait .. | .fwait _ | .waitcLd _ | .waitcSt _ | .slotClaim .. | .mma .. | .spawn .. => true
  | _ => false

/-- A path that stands where a lane stands waits for what the save does not wait for (R243, R248, R150): at one of the
instructions of `restsAt`, for the slots of a resumed warp, or for a free fault record. -/
def restsBlocked (s : State) (c : Core) (w : Warp) (g : Grid) (k : Nat) : Bool :=
  !(unblocked s c.die c.pos w g k) &&
    (w.restoring ≠ [] || decide (8 ≤ w.faults.length) || (laneInstr s g w k).any restsAt)

/-- A lane is at rest (R243): it waits, or it is blocked where it stands, and every result it is owed is written (R71). -/
def laneStopped (s : State) (c : Core) (w : Warp) (g : Grid) (k : Nat) : Bool :=
  let t := w.lane k
  !t.running || (t.owed.all fun o => o.done) &&
    match t.wait with
    | .signal _ => false
    | .none => restsBlocked s c w g k
    | _ => true

/-- Every lane of the warps that hold lanes of the neighbourhood is at rest (R243, R416). -/
def hoodAtRest (s : State) (g : Grid) (h : Hood) : Bool :=
  (hoodWarps s g h).all fun x => (List.range 32).all fun k => laneStopped s x.1 x.2 g k

/-- Operations that a save leaves to be continued (R245). -/
def Op.continued (o : Op) : Bool :=
  match o.kind with
  | .mma _ => true
  | .tdecQ .. => true
  | _ => false

/-- The warps whose operation it is. -/
def Op.uids (o : Op) : List Nat :=
  match o.kind with
  | .mma m => m.members.map (·.1)
  | _ => [o.uid]

/-- A save of these blocks takes the warps of the operation as a whole, or those of an operation of one of them have ended;
an operation of a warp that other blocks keep goes on with it (R416). -/
def Op.goesWith (o : Op) (s : State) (blks : List Nat) : Bool :=
  match (o.uids.filterMap (warpOfUid s)).map (·.2) with
  | [] => blks.contains o.blk
  | ws => ws.all fun w => w.th.all fun t => !t.running || blks.contains t.blk

/-- A save of these blocks cuts and records the operation (R245). -/
def Op.cutBy (o : Op) (s : State) (g : Nat) (blks : List Nat) : Bool :=
  o.continued && o.grid = g && o.goesWith s blks

/-- The operand slots that an operation names. -/
def Op.slots (o : Op) : List Nat := (List.range 16).filter (slotNamed o)

/-- The matrix operation holds the other back: that one joined it (R292), reads its accumulators after it (R233, R234),
follows it on the array (R227), or follows the release of a slot that it names (R212). -/
def Op.holdsBack (o : Op) (s : State) (e : Op) : Bool :=
  (e.after.any fun a => a.op = o.id) ||
    (decide (o.id < e.id) && o.uids.any (e.uids.contains ·) && match e.kind with
      | .accst .. | .mma _ => true
      | .late l => l.any fun a => a.kind = .accum
      | _ => false) ||
    (decide (o.id < e.id) && e.die = o.die && e.pos = o.pos && e.kern = o.kern &&
      ((coreAt s o.die o.pos).kernelOf o.grid).any fun kn => e.slots.any fun k => slotNamed o k &&
        kn.releases.any fun r => r.1 = k && decide (o.id < r.2) && decide (r.2 ≤ e.id))

/-- The matrix operations for which an operation that a save waits for has to wait, directly or through others. -/
def waitedMmas (s : State) : List Nat :=
  let mmas := s.ops.filter fun o => o.mma?.isSome
  let first := mmas.filter fun o => s.ops.any fun e => !e.continued && o.holdsBack s e
  ((List.range mmas.length).foldl (fun l _ =>
    mmas.filter fun o => l.any fun e => e.id = o.id || o.holdsBack s e) first).map (·.id)

/-- Cut the `mma` operations of the neighbourhoods that are saved together, so that none begins a k-step any more (R245
step 1), or let them begin again (R337). One for which an operation that the save waits for has to wait goes on until that
has ended (log 71). -/
def holdMmas (s : State) (g : Grid) (hs : List Hood) (cut : Bool) : State :=
  let bs := hs.flatMap Hood.placed
  let waited := waitedMmas s
  let s := { s with ops := s.ops.map fun o => match o.kind with
    | .mma m => if o.cutBy s g.id (bs.map (·.idx)) then
        { o with kind := .mma { m with hold := cut && !(waited.contains o.id) } } else o
    | _ => o }
  bs.foldl (fun st b => arrayTurn st b.die b.pos) s

/-- Window accesses of the neighbourhood's threads, its retired members' too, are all performed or discarded (R265). -/
def windowQuiet (s : State) (g : Grid) (h : Hood) : Bool :=
  !(s.ops.any fun o => o.grid = g.id && o.pending.any fun a => a.gen.isSome && h.blocks.any fun b => b.idx = a.blk)

/-- Every lane is at rest, no k-step of a cut operation is in progress, and everything else that the neighbourhood's
threads issued has ended, is performed and is durable (R71, R243, R245, R265, R302); `together` are the blocks that are
saved with it. -/
def readyToCapture (s : State) (g : Grid) (together : List Nat) (h : Hood) : Bool :=
  let uids := (hoodWarps s g h).map (·.2.uid)
  let blks := h.placed.map (·.idx)
  hoodAtRest s g h && windowQuiet s g h &&
    !(s.ops.any fun o => !o.continued && o.grid = g.id &&
      (blks.contains o.blk || uids.contains o.uid || (o.unitsLeft.any fun u => blks.contains (o.unitBlk u)) ||
        o.pending.any fun a => blks.contains a.blk)) &&
    !(s.ops.any fun o => o.cutBy s g.id together && o.mma?.any (·.began)) &&
    (s.mirBroken || !(s.mirrors.any fun m => (m.grid = g.id && blks.contains m.blk) || uids.contains m.uid))

/-! ### Live masks (R244, R246, R333) -/

/-- What of a lane is saved: the masks of v, g and p registers, and of the per-warp items. -/
structure Live where
  v : Nat
  g : Nat
  p : Nat
  s : Nat
  lx : Nat
  gk : Bool
  deriving DecidableEq, Repr

/-- Everything is live (R244). -/
def Live.all (regs : Nat) : Live := ⟨2 ^ regs - 1, 0x7FFF, 0xFFF, 2 ^ 64 - 1, 0xFF, true⟩

/-- Nothing is live. -/
def Live.none : Live := ⟨0, 0, 0, 0, 0, false⟩

/-- The masks of a side-table entry (R333 Table 3). -/
def Live.ofEntry (e : Nat) : Live :=
  ⟨bits e 511 256, bits e 169 155, bits e 181 170, bits e 255 192, bits e 191 184, bit e 183⟩

/-- The union of two. -/
def Live.union (a b : Live) : Live := ⟨a.v ||| b.v, a.g ||| b.g, a.p ||| b.p, a.s ||| b.s, a.lx ||| b.lx, a.gk || b.gk⟩

/-- What is live in a lane: full for a parked lane, one in a loop hold, or one off every point (R244). -/
def laneLive (s : State) (g : Grid) (t : Thread) : Live :=
  if !t.running then Live.none
  else match t.wait with
    | .parked => Live.all g.regs
    | .loopHold _ => Live.all g.regs
    | _ =>
      match sideEntryAt s g t.pc.toNat with
      | some e => Live.ofEntry e
      | none => Live.all g.regs

/-- A saved thread: registers that are not live are restored as zero (R246). The latches of `clkhi` and `nshi`, which
Table 1 does not list, keep what they hold (log 74). -/
def Thread.keep (s : State) (t : Thread) (m : Live) : Thread :=
  { t with
    v := t.v.mapIdx fun i x => if bit m.v i then x else 0,
    g := t.g.mapIdx fun i x => if bit m.g i then x else 0,
    p := t.p &&& BitVec.ofNat 12 m.p,
    owed := [], after := liveAfter s t.after, stopIssues := 0 }

/-- A saved warp's shared items. -/
def Shared.keep (x : Shared) (m : Live) : Shared :=
  { x with
    s := x.s.mapIdx fun i y => if bit m.s i then y else 0,
    lx := x.lx.mapIdx fun i y => if bit m.lx i then y else 0,
    gk := if m.gk then x.gk else 0 }

/-- A saved warp restricted to some lanes (R246, R416). -/
def Warp.saved (s : State) (g : Grid) (w : Warp) (mine : BitVec 32) : Warp :=
  let lives := (List.range 32).map fun k => if mine.getLsbD k then laneLive s g (w.lane k) else Live.none
  let all := lives.foldl Live.union Live.none
  { w with
    th := w.th.mapIdx fun k t =>
      if mine.getLsbD k then
        let t := t.keep s (lives.getD k Live.none)
        { t with wait := match t.wait with
            | .stopped => .none
            | .latch => .none
            | x => x }
      else Thread.absent,
    sh := { (w.sh.keep all) with loops := w.sh.loops.map fun l => { l with members := l.members &&& mine } },
    split := List.replicate 8 0, fair := [], forced := [], ldcnt := 0, stcnt := 0, latch := none, lastSel := 0, stalled := 0,
    stopReq := false, restoring := [],
    faults := (w.faults.filter fun f => f.lanes &&& mine ≠ 0#32).map fun f => { f with lanes := f.lanes &&& mine } }

/-! ### Capture (R245, R246, R416) -/

/-- Sectors of a slot with their poison and their bytes. -/
def sectorBytes (s : State) (sp : Space) (l : List Nat) : List (Nat × Bool × List Byte) :=
  l.map fun k => (k, s.poison.contains (sp, k), readBytes s sp (32 * k) 32)

/-- The written sectors of a store, of one block or of any (R246). -/
def touchedSectors (s : State) (sp : Space) (blk : Option Nat) : List Nat :=
  let l := localOf s sp
  sortBy (fun a b => decide (a < b)) (distinct ((l.touched.filter fun x => match blk with
    | some b => x.2 = b
    | none => true).map (·.1)))

/-- The poisoned ones of some sectors of a store. -/
def poisonedOf (s : State) (sp : Space) (l : List Nat) : List Nat := l.filter fun k => s.poison.contains (sp, k)

/-- Index of a `tdec.q`'s first unconsumed row (R192, R245). -/
def firstRow (c : Core) (o : Op) (row : Nat) : Nat := row - (c.queue.filter fun r => r.op = o.id).length

/-- An operation that a save records: an `mma` as its cut leaves it, a producer at its first unconsumed row. -/
def Op.recorded (o : Op) (s : State) (c : Core) : Op :=
  let o := { o with after := liveAfter s o.after }
  match o.kind with
  | .mma m => { o with kind := .mma { m with began := false, cut := false, hold := false } }
  | .tdecQ t row rows => { o with kind := .tdecQ { t with early := [] } (firstRow c o row) rows }
  | _ => o

/-- The slots that a warp owns, each with its written sectors; one whose grant it still waits for since it was resumed
counts as owned, with the sectors that come with the grant (R246, R248). -/
def ownedSlots (s : State) (die pos g : Nat) (kn : Kernel) (uid : Nat) : List (Nat × List (Nat × Bool × List Byte)) :=
  ((kn.owner.filter fun x => x.2 = uid).map fun x =>
    let sp : Space := .slot die pos g x.1
    (x.1, sectorBytes s sp (touchedSectors s sp none))) ++
  (kn.claims.filter fun x => x.resumed && x.warp = uid).map fun x => (x.slot, x.sectors)

/-- The claims of a warp, each with its place in the queues. -/
def waitingClaims (kn : Kernel) (uid : Nat) : List Claim :=
  (kn.claims.mapIdx fun i x => { x with cycle := i, sectors := [] }).filter fun x => !x.resumed && x.warp = uid

/-- The warp of a saved block: the whole warp, or a warp of its own with the block's lanes, without slots and claims, for
which the operation of its last `mma` has ended (R416). -/
def captureWarp (s : State) (g : Grid) (c : Core) (blk : Nat) (w : Warp) (uid : Nat) : SavedWarp :=
  let mine := w.lanesWhere fun t => t.blk = blk && t.life ≠ .absent && t.life ≠ .removed
  let x := Warp.saved s g w mine
  let live := (List.range 32).map fun k =>
    let m := if mine.getLsbD k then laneLive s g (w.lane k) else Live.none
    (m.v, m.g)
  if w.othersThan blk then
    { warp := { x with uid := uid, mmaOp := 0, mmaAck := ackWord s w }, blk := blk, live := live, slots := [], claims := [] }
  else
    let kn := c.kernelOf g.id
    { warp := x, blk := blk, live := live,
      slots := (kn.map fun k => ownedSlots s c.die c.pos g.id k w.uid).getD [],
      claims := (kn.map fun k => waitingClaims k w.uid).getD [] }

/-- The saved context of a member block (R246). -/
def captureBlock (s : State) (g : Grid) (b : Block) (rank : Nat) : SavedBlock :=
  let c := coreAt s b.die b.pos
  let ws := sortBy (fun (x y : Warp) => decide (x.slot < y.slot)) (c.warps.filter fun w => w.holds g.id [b.idx])
  let wsp : Space := .weight b.die b.pos g.id
  let asp : Space := .acc b.die b.pos g.id
  let scr : Space := .scratch b.die b.pos
  let lines := if g.carveKib = 0 then []
    else sortBy (fun a b => decide (a < b)) ((localOf s scr).touched.map (·.1))
  let wsec := touchedSectors s wsp (some b.idx)
  let asec := touchedSectors s asp (some b.idx)
  let tags := (localOf s asp).tags
  let bank := fun n => (List.range 4160).map fun i => readByte s (.bank b.die b.pos n) i
  let cuts := (c.beds.flatMap (·.cuttings) ++ c.restore).filter fun x => x.grid = g.id && x.blk = b.idx
  { blk := b.idx, rank := rank,
    warps := ws.mapIdx fun i w => captureWarp s g c b.idx w (s.nextId + i),
    scratch := lines.map fun k => (k, readBytes s scr (128 * k) 128),
    sectors := wsec.map (fun k => (0, k, false, readBytes s wsp (32 * k) 32)) ++
      asec.map fun k => (1, k, tags.contains k, readBytes s asp (32 * k) 32),
    table := match c.kernelOf g.id with
      | some k => if k.tbl then some (c.bank, [(0, bank 0), (1, bank 1)]) else none
      | none => none,
    cuttings := cuts.map fun x => { x with after := liveAfter s x.after },
    mmas := (sortBy (fun (x y : Op) => decide (x.id < y.id)) (s.ops.filter fun o => o.cutBy s g.id [b.idx])).map
      fun o => o.recorded s c,
    poison := (poisonedOf s scr (lines.flatMap fun k => rangeFrom (4 * k) (4 * k + 4))).map (fun k => (0, k)) ++
      (poisonedOf s wsp wsec).map (fun k => (1, k)) ++ (poisonedOf s asp asec).map fun k => (2, k) }

/-! ### The image (R338, R339) -/

/-- Free bytes of the image: the member block, the warp records and the table's index, whose layout the spec
leaves open. -/
def freeBytes (seed n : Nat) : List Byte := (List.range n).map (Config.imageByte seed)

/-- The registers of a set that a mask names, as bytes in ascending order. -/
def maskedWords (l : List Word) (m : Nat) : List Byte :=
  ((List.range l.length).filter (bit m)).flatMap fun i => toBytes 4 (l.getD i 0).toNat

/-- The live registers of a saved warp, lane by lane in register order (R338 item 2). -/
def SavedWarp.words (w : SavedWarp) : List Byte :=
  (List.range 32).flatMap fun k =>
    let t := w.warp.lane k
    let m := w.live.getD k (0, 0)
    if t.running then maskedWords t.v m.1 ++ maskedWords (t.g.take 15) m.2 else []

/-- A cutting's record (R338 item 6). -/
def cuttingBytes (x : Cutting) : List Byte :=
  let gs := (List.range 4).flatMap fun i => toBytes 4 (x.g.getD i 0).toNat
  gs ++ toBytes 8 x.entry.toNat ++ toBytes 2 x.thx.toNat ++ toBytes 2 x.thy.toNat ++ toBytes 2 x.thz.toNat ++ [0, 0] ++
    toBytes 4 x.blk ++ List.replicate 28 0

/-- The address word of a store sector (R338 item 4). -/
def sectorWord (store k slot : Nat) (tag : Bool) : Nat :=
  store + (if tag then 4 else 0) + (k * 32 % 2 ^ 32) + (if store = 2 then slot * 2 ^ 32 else 0)

/-- The image bytes of a member block (R338 items 1 to 6). -/
def memberImage (s : State) (b : SavedBlock) : List Byte :=
  freeBytes s.fresh 256 ++
    (b.warps.flatMap fun w => freeBytes (s.fresh + w.warp.uid) 256 ++ w.words) ++
    (b.scratch.flatMap fun x => toBytes 8 (128 * x.1) ++ x.2) ++
    (b.sectors.flatMap fun x => toBytes 8 (sectorWord x.1 x.2.1 0 x.2.2.1) ++ x.2.2.2) ++
    (b.warps.flatMap fun w => w.slots.flatMap fun y => y.2.flatMap fun x =>
      toBytes 8 (sectorWord 2 x.1 y.1 false) ++ x.2.2) ++
    (match b.table with
     | some t => freeBytes (s.fresh + 1) 8 ++ t.2.flatMap fun x => x.2
     | none => []) ++
    b.cuttings.flatMap cuttingBytes

/-- The image of a context, padded to whole blocks (R338). -/
def imageOf (s : State) (bs : List SavedBlock) : List Byte :=
  let l := (sortBy (fun (x y : SavedBlock) => decide (x.rank < y.rank)) bs).flatMap (memberImage s)
  l ++ List.replicate ((256 - l.length % 256) % 256) 0

/-- The payload of an image block with its mode and delta width: the shortest, ties in the order 1, 3 (8-bit), 3
(16-bit), 2; raw when none is below 256 bytes (R339 Table 9). -/
def encodeBlock (b : List Byte) : Nat × Bool × List Byte :=
  let w := (List.range 64).map fun i => ofBytes ((b.drop (4 * i)).take 4)
  let nz := w.filter (· ≠ 0)
  let map := toBytes 8 (sumNat (w.mapIdx fun i x => if x = 0 then 0 else 2 ^ i))
  let base := nz.headD 0
  let delta := fun x => sintN 32 (x + 2 ^ 32 - base)
  let fits := fun n => nz.all fun x => decide (-(2 ^ (n - 1) : Nat) ≤ delta x) && decide (delta x < (2 ^ (n - 1) : Nat))
  let m3 := fun n => map ++ toBytes 4 base ++ nz.flatMap fun x => toBytes (n / 8) (wrapN n (delta x))
  let cands : List (Nat × Bool × List Byte) :=
    (if nz = [] then [(1, false, [])] else []) ++ (if fits 8 then [(3, false, m3 8)] else []) ++
      (if fits 16 then [(3, true, m3 16)] else []) ++ [(2, false, map ++ nz.flatMap (toBytes 4))]
  let padded := cands.map fun x => (x.1, x.2.1, x.2.2 ++ List.replicate ((16 - x.2.2.length % 16) % 16) 0)
  match sortBy (fun x y => decide (x.2.2.length < y.2.2.length)) (padded.filter fun x => decide (x.2.2.length < 256)) with
  | x :: _ => x
  | [] => (0, false, b)

/-- Descriptors and payloads of an image (R339 Table 8). -/
def encodeImage (img : List Byte) : List Nat × List Byte :=
  (List.range (img.length / 256)).foldl (fun acc i =>
    let (mode, dw, pay) := encodeBlock ((img.drop (256 * i)).take 256)
    let d := mode + (if dw then 4 else 0) + pay.length / 16 * 8 + acc.2.length / 16 * 256
    (acc.1 ++ [d], acc.2 ++ pay)) ([], [])

/-- The bits of a map below a place. -/
def rankIn (map i : Nat) : Nat := ((List.range i).filter (bit map)).length

/-- The 256 bytes of an image block from its descriptor and its payload (R339 Table 9). -/
def decodeBlock (d : Nat) (pay : List Byte) : List Byte :=
  let map := ofBytes (pay.take 8)
  let base := ofBytes ((pay.drop 8).take 4)
  let n := if bit d 2 then 2 else 1
  let word := fun i => match bits d 1 0 with
    | 0 => ofBytes ((pay.drop (4 * i)).take 4)
    | 1 => 0
    | 2 => if bit map i then ofBytes ((pay.drop (8 + 4 * rankIn map i)).take 4) else 0
    | _ => if bit map i then wrapN 32 (base + sintN (8 * n) (ofBytes ((pay.drop (12 + n * rankIn map i)).take n))) else 0
  (List.range 64).flatMap fun i => toBytes 4 (word i)

/-- The image of a context, decoded from its descriptors and payloads in the heap (R337, R339). -/
def decodeImage (s : State) (c : Context) : List Byte :=
  let n := bits (devRead s c.addr 128) 63 32
  (List.range n).flatMap fun i =>
    let d := devRead s (c.addr + 128 + 4 * i) 4
    decodeBlock d (devBytes s (c.addr + headBytes n + 16 * bits d 31 8) (16 * bits d 7 3))

/-! ### Saved items from an image (R338, R339) -/

/-- Read the items of a list from an image one after the other: each with what is left of the image. -/
def reloadAll {α : Type} (f : α → List Byte → α × List Byte) : List α → List Byte → List α × List Byte
  | [], l => ([], l)
  | x :: t, l =>
    let y := f x l
    let r := reloadAll f t y.2
    (y.1 :: r.1, r.2)

/-- The registers of a set that a mask names, from an image. -/
def reloadWords (v : List Word) (m : Nat) (l : List Byte) : List Word × List Byte :=
  let n := ((List.range v.length).filter (bit m)).length
  (v.mapIdx fun i x => if bit m i then BitVec.ofNat 32 (ofBytes ((l.drop (4 * rankIn m i)).take 4)) else x, l.drop (4 * n))

/-- The live registers of a saved lane. -/
def Thread.reload (x : Thread × Nat × Nat) (l : List Byte) : (Thread × Nat × Nat) × List Byte :=
  if x.1.running then
    let v := reloadWords x.1.v x.2.1 l
    let g := reloadWords x.1.g (x.2.2 % 2 ^ 15) v.2
    (({ x.1 with v := v.1, g := g.1 }, x.2), g.2)
  else (x, l)

/-- A saved warp: its record, then its registers. -/
def SavedWarp.reload (w : SavedWarp) (l : List Byte) : SavedWarp × List Byte :=
  let r := reloadAll Thread.reload (w.warp.th.mapIdx fun k t => (t, w.live.getD k (0, 0))) (l.drop 256)
  ({ w with warp := { w.warp with th := r.1.map (·.1) } }, r.2)

/-- Data of a length after an address word of 8 bytes. -/
def reloadData (n : Nat) (l : List Byte) : List Byte × List Byte := ((l.drop 8).take n, l.drop (8 + n))

/-- The saved sectors of a warp's slots. -/
def SavedWarp.reloadSlots (w : SavedWarp) (l : List Byte) : SavedWarp × List Byte :=
  let sector := fun (x : Nat × Bool × List Byte) l => let d := reloadData 32 l
                                                      ((x.1, x.2.1, d.1), d.2)
  let slot := fun (y : Nat × List (Nat × Bool × List Byte)) l => let r := reloadAll sector y.2 l
                                                                 ((y.1, r.1), r.2)
  let r := reloadAll slot w.slots l
  ({ w with slots := r.1 }, r.2)

/-- A cutting from its record (R338 item 6). -/
def Cutting.reload (x : Cutting) (l : List Byte) : Cutting × List Byte :=
  let w := fun a n => ofBytes ((l.drop a).take n)
  ({ x with g := (List.range 4).map fun i => BitVec.ofNat 32 (w (4 * i) 4), entry := BitVec.ofNat 52 (w 16 8),
            thx := BitVec.ofNat 32 (w 24 2), thy := BitVec.ofNat 32 (w 26 2), thz := BitVec.ofNat 32 (w 28 2),
            blk := w 32 4 }, l.drop 64)

/-- A saved block with the values of an image in place of its own (R338 items 1 to 6). -/
def SavedBlock.reload (b : SavedBlock) (l : List Byte) : SavedBlock × List Byte :=
  let w := reloadAll SavedWarp.reload b.warps (l.drop 256)
  let sc := reloadAll (fun (x : Nat × List Byte) l => let d := reloadData 128 l
                                                      ((x.1, d.1), d.2)) b.scratch w.2
  let se := reloadAll (fun (x : Nat × Nat × Bool × List Byte) l => let d := reloadData 32 l
                                                                   ((x.1, x.2.1, x.2.2.1, d.1), d.2)) b.sectors sc.2
  let sl := reloadAll SavedWarp.reloadSlots w.1 se.2
  let bank := fun (x : Nat × List Byte) (l : List Byte) => ((x.1, l.take x.2.length), l.drop x.2.length)
  let tb := match b.table with
    | some t => let r := reloadAll bank t.2 (sl.2.drop 8)
                (some (t.1, r.1), r.2)
    | none => (none, sl.2)
  let cu := reloadAll Cutting.reload b.cuttings tb.2
  ({ b with warps := sl.1, scratch := sc.1, sectors := se.1, table := tb.1, cuttings := cu.1 }, cu.2)

/-- The saved blocks of a context with the values that its image in the heap holds (R339). -/
def loadImage (s : State) (c : Context) : List SavedBlock :=
  (reloadAll SavedBlock.reload (sortBy (fun (x y : SavedBlock) => decide (x.rank < y.rank)) c.blocks) (decodeImage s c)).1

/-! ### SAVE_CAPTURE -/

/-- A captured block leaves its core (R246, R265, R416). -/
def releaseSaved (s : State) (g : Nat) (b : Block) (saved : SavedBlock) : State :=
  let ids := saved.mmas.map (·.id)
  let s := dropOps { s with nextId := s.nextId + saved.warps.length } fun o => ids.contains o.id
  let s := removeWarps s b.die b.pos g b.idx
  leaveCore (dropCuttings s b.die b.pos g b.idx) g b.idx .saved

/-- Capture the blocks of a neighbourhood one after the other. -/
def captureHood (s : State) (g : Grid) (h : Hood) : List SavedBlock × State :=
  h.placed.foldl (fun (acc : List SavedBlock × State) b =>
    let x := captureBlock acc.2 g b (b.idx % g.hoodSize)
    (acc.1 ++ [x], releaseSaved acc.2 g.id b x)) ([], s)

/-- The image that a capture of the neighbourhood would make now. -/
def imageNow (s : State) (g : Grid) (h : Hood) : List Byte :=
  imageOf s (h.placed.map fun b => captureBlock s g b (b.idx % g.hoodSize))

/-- The reservations grow to what the images of some neighbourhoods need (R337), none without room. -/
def growContexts (s : State) (g : Grid) : List Hood → Option State
  | [] => some s
  | h :: t =>
    match contextOf s g.id h.idx with
    | none => none
    | some c =>
      let n := unitsFor (imageNow s g h).length
      if n ≤ c.units then growContexts s g t
      else match findUnits s c.id n with
        | none => none
        | some a =>
          let s := devWrite s c.addr 1 (putBits (devRead s c.addr 1) 1 0 0)
          let s := devWrite s a 128 (headerWord s c 0 0)
          growContexts { s with contexts := updWhere (fun x => x.id = c.id) (fun x => { x with addr := a, units := n }) s.contexts }
            g t

/-- Capture a neighbourhood into its context. -/
def captureInto (s : State) (g : Grid) (h : Hood) : State :=
  match contextOf s g.id h.idx with
  | none => s
  | some c =>
    let x := captureHood s g h
    let s := { x.2 with contexts := updWhere (fun y => y.id = c.id) (fun y => { y with blocks := x.1 }) x.2.contexts }
    modHood s g.id h.idx fun h => { h with st := .saved c.id, freeFor := none, coppice := false }

/-- The neighbourhoods that are saved with one: those of its cooperative grid (R323). -/
def savingWith (g : Grid) (h : Hood) : List Hood := if g.coop then g.hoods.filter fun x => x.st = .saving else [h]

/-- The counts of the lanes that a save has stopped where their next instruction blocks them end (R71, R243). -/
def endRested (s : State) (g : Grid) (h : Hood) : State :=
  let ended := fun (c : Core) (w : Warp) (k : Nat) (t : Thread) =>
    if t.running && t.wait = .none && restsBlocked s c w g k then t.endCounts else t
  (hoodWarps s g h).foldl (fun st x =>
    modWarp st x.1.die x.1.pos x.2.slot fun w => { w with th := w.th.mapIdx (ended x.1 x.2) }) s

/-- The save of a neighbourhood is given up for a drain (R332, R337): its reservation is returned. -/
def drainInstead (s : State) (g : Grid) (h : Hood) : State :=
  let s := modHood (endRested s g h) g.id h.idx fun h => { h with st := .draining }
  match contextOf s g.id h.idx with
  | some c => dropContext s c.id
  | none => s

/-- The save of some neighbourhoods becomes a drain (R332, R337): their operations go on and the paths resume. -/
def saveToDrain (s : State) (g : Grid) (hs : List Hood) : State :=
  resumeWarps (hs.foldl (fun st h => drainInstead st g h) (holdMmas s g hs false))

/-- The neighbourhoods stop: their threads at their points, and once all are at rest their operations (R243, R245). -/
def stopHoods (s : State) (g : Grid) (hs : List Hood) : State :=
  let s := hs.foldl (fun st h =>
    (hoodWarps st g h).foldl (fun st x => stopAtPoints st x.1.die x.1.pos x.2.slot) st) s
  holdMmas s g hs (hs.all (hoodAtRest s g))

/-- SAVE_CAPTURE (R245, R246, R323, R337): once everything is at rest. Images that need more room than can be had turn
the save into a drain. -/
def execSaveCapture (grid hood : Nat) (s : State) : Host.Outcome State Fault Refusal :=
  match gridAt s grid, (gridAt s grid).bind fun g => g.hoods.find? fun h => h.idx = hood, contextOf s grid hood with
  | some g, some h, some c =>
    if h.st = .done && c.st = 1 then .next (dropContext s c.id)
    else if h.st ≠ .saving then .next s
    else if h.placed = [] then .next (dropContext s c.id)
    else
      let hs := savingWith g h
      let s := stopHoods s g hs
      let together := hs.flatMap fun h => h.placed.map (·.idx)
      if !(hs.all (readyToCapture s g together)) then .next s
      else match growContexts s g hs with
        | none => .next (saveToDrain s g hs)
        | some s =>
          let s := hs.foldl (fun st h => endRested st g h) s
          .next (resumeWarps (hs.foldl (fun st h => captureInto st g h) s))
  | _, _, _ => .next s

/-- SAVE_TO_DRAIN (R332), of every neighbourhood of a cooperative grid together (R323). -/
def execSaveToDrain (grid hood : Nat) (s : State) : Host.Outcome State Fault Refusal :=
  match gridAt s grid, (gridAt s grid).bind fun g => g.hoods.find? fun h => h.idx = hood with
  | some g, some h =>
    let late := (hoodWarps s g h).any fun x => x.2.th.any fun t =>
      t.running && h.placed.any (fun b => b.idx = t.blk) && t.wait = .none && decide (65536 ≤ t.stopIssues)
    .next (if h.st = .saving && late then saveToDrain s g (savingWith g h) else s)
  | _, _ => .next s

/-! ### CONTEXT_SAVED (R337) -/

/-- CONTEXT_SAVED (R337): descriptors and payloads are written, the surplus returned, the context is ready. -/
def execContextSaved (ctx : Nat) (s : State) : Host.Outcome State Fault Refusal :=
  match s.contexts.find? fun c => c.id = ctx with
  | none => .next s
  | some c =>
    match c.st = 1 && c.blocks ≠ [], gridAt s c.grid with
    | true, some g =>
      let img := imageOf s c.blocks
      let (ds, pay) := encodeImage img
      let n := img.length / 256
      let c := { c with st := 2, savedNs := s.ns, units := ceilDiv (headBytes n + pay.length) 65536 }
      let s := { s with contexts := s.contexts.map (fun x => if x.id = ctx then c else x), fresh := s.fresh + 1 }
      let s := devStore s (c.addr + 128)
        (ds.flatMap (toBytes 4) ++ List.replicate (headBytes n - 128 - 4 * n) 0)
      let s := devStore s (c.addr + headBytes n) pay
      let s := devWrite s c.addr 128 (headerWord s c img.length pay.length)
      let s := (s.contexts.filter fun x => x.grid = c.grid && x.st = 2 && x.id ≠ ctx).foldl writeHeader s
      .next (countEvent s g.vf 8 n)
    | _, _ => .next s

/-- CONTEXT_DISCARD (R341): the host's compare-and-swap of state from 2 to 0. The neighbourhood counts as killed: of a
rerunnable launch it is placed again; another launch ends, with the discarded blocks in state 1 (R348). -/
def execContextDiscard (ctx : Nat) (s : State) : Host.Outcome State Fault Refusal :=
  match s.contexts.find? fun c => c.id = ctx with
  | some c =>
    if c.st ≠ 2 then .next s
    else
      let s := dropContext s ctx
      .next (if (gridAt s c.grid).any fun g => bit g.lrec.toNat 418 then killHood s c.grid c.hood
        else endGrid (c.blocks.foldl (fun st b => discardEngines st c.grid b.blk []) s) c.grid 4)
  | none => .next s

/-! ### Flush (R250) -/

/-- Every warp with a thread of the neighbourhood that has not exited has its bit at 1 (R250). -/
def flushLegal (s : State) (g : Grid) (h : Hood) : Bool := (hoodWarps s g h).all fun x => x.2.sh.idem

/-- A flushed block leaves its core and waits to be placed again (R250). -/
def flushBlock (s : State) (g : Nat) (b : Block) : State :=
  let s := markGone s g b.idx
  let s := discardEngines s g b.idx (wholeWarps s b.die b.pos g b.idx)
  let s := removeWarps s b.die b.pos g b.idx
  leaveCore (dropCuttings s b.die b.pos g b.idx) g b.idx .waiting

/-! ### Resumption (R248, R340) -/

/-- Numbers of operations and warps change with a resumption. -/
def After.renumber (num : Nat → Nat) (a : After) : After := { a with op := num a.op }

/-- A saved warp takes a slot of the target core (R246, R248): timers and counters restart, its holds are evaluated again
(R195, R244), and it counts as selected (log 69). -/
def Warp.resumed (w : Warp) (slot now sel : Nat) (num : Nat → Nat) (restoring : List Nat) : Warp :=
  Warp.settle
    { w with
      slot := slot, old := w.sh, flSet := 0, flClr := 0, lastSel := sel, mmaOp := num w.mmaOp, restoring := restoring,
      th := w.th.map fun t =>
        { t with
          after := t.after.map (After.renumber num),
          wait := match t.wait with
            | .fuse _ => .fuse now
            | x => x } }

/-- Write back what R248 step 1 names of the stores of a block. -/
def restoreStores (s : State) (die pos : Nat) (g : Grid) (b : SavedBlock) (fresh : Bool) : State :=
  let scr : Space := .scratch die pos
  let s := b.scratch.foldl (fun st x => clearPoison (writeBytes st scr (128 * x.1) x.2) scr (128 * x.1) 128) s
  let s := b.sectors.foldl (fun st x =>
    let sp : Space := if x.1 = 0 then .weight die pos g.id else .acc die pos g.id
    let st := clearPoison (writeBytes st sp (32 * x.2.1) x.2.2.2) sp (32 * x.2.1) 32
    let l := localOf st sp
    setLocal st { l with
      touched := (x.2.1, b.blk) :: l.touched.filter (· ≠ (x.2.1, b.blk)),
      tags := if x.2.2.1 then x.2.1 :: l.tags.filter (· ≠ x.2.1) else l.tags.filter (· ≠ x.2.1) }) s
  let s := b.poison.foldl (fun st x =>
    addPoison st (match x.1 with
      | 0 => scr
      | 1 => .weight die pos g.id
      | _ => .acc die pos g.id) x.2) s
  match b.table, fresh with
  | some (act, banks), true =>
    let s := banks.foldl (fun st x => writeBytes st (.bank die pos x.1) 0 x.2) s
    modCore s die pos fun c => { c with bank := act, bankWas := none }
  | _, _ => s

/-- The saved warps in the order in which they take their slots (R27): those of the block in ascending w, then the
cutting warps. -/
def SavedBlock.slotOrder (b : SavedBlock) : List SavedWarp :=
  sortBy (fun x y => decide (x.warp.widx.getD 0 < y.warp.widx.getD 0)) (b.warps.filter fun w => w.warp.widx.isSome) ++
    b.warps.filter fun w => w.warp.widx.isNone

/-- The numbers that the continued operations of a resumed block take. -/
def SavedBlock.num (b : SavedBlock) (next : Nat) (id : Nat) : Nat :=
  match b.mmas.findIdx? fun o => o.id = id with
  | some i => next + i
  | none => id

/-- Resume the warps of a block in the lowest free slots, with the slots they still wait for (R248 steps 5, 6). -/
def resumeBlockWarps (s : State) (die pos : Nat) (b : SavedBlock) : State :=
  let num := b.num s.nextId
  b.slotOrder.foldl (fun st w =>
    let c := coreAt st die pos
    match c.freeSlots with
    | [] => st
    | k :: _ =>
      let x := w.warp.resumed k (dieOf st die).cycles c.sel num (w.slots.map (·.1))
      modCore st die pos fun c => { c with warps := c.warps ++ [x] }) s

/-- The continued operations of a block come back (R248 steps 2, 3): new operations of the core, ready now, in their saved
order, with what they follow. -/
def resumeOps (s : State) (die pos : Nat) (b : SavedBlock) : State :=
  let num := b.num s.nextId
  let slotOf := fun (uid : Nat) => (warpOfUid s uid).map fun x => x.2.slot
  let back := fun (o : Op) =>
    let uids : List Nat := match o.kind with
      | .mma m => m.members.map (·.1)
      | _ => [o.uid]
    let l := uids.filterMap slotOf
    { o with id := num o.id, die := die, pos := pos, cyc := (dieOf s die).cycles, after := o.after.map (After.renumber num),
             slot := l.foldl min (l.headD o.slot) }
  { s with ops := s.ops ++ b.mmas.map back, nextId := s.nextId + b.mmas.length }

/-- Place the slot claims of the resumed warps (R248 step 5): owned slots first, ahead of every waiting claim, in
ascending warp slot among all that were resumed; then the saved claims behind them, in their order. -/
def resumeSlots (s : State) (die pos g : Nat) (b : SavedBlock) : State :=
  let c := coreAt s die pos
  let slotOf := fun uid => ((c.warps.find? fun w => w.uid = uid).map (·.slot)).getD 0
  let own := b.warps.flatMap fun w => w.slots.map fun x =>
    (⟨x.1, w.warp.uid, 0, true, 0, slotOf w.warp.uid, x.2⟩ : Claim)
  let late := (sortBy (fun (x y : Claim) => decide (x.cycle < y.cycle)) (b.warps.flatMap (·.claims))).map fun x =>
    { x with wslot := slotOf x.warp, cycle := (dieOf s die).cycles }
  let s := modKernel s die pos g fun k => { k with
    claims := sortBy (fun x y => decide (x.wslot < y.wslot)) (k.claims.filter (·.resumed) ++ own) ++
      (k.claims.filter fun x => !x.resumed) ++ late }
  (List.range 16).foldl (fun st k => grantSlot st die pos g k) s

/-- Cuttings come back into beds, or wait in the restore list (R248 step 4). -/
def resumeCuttings (s : State) (die pos g : Nat) (l : List Cutting) : State :=
  l.foldl (fun st x => modCore st die pos fun c =>
    let quota := ((c.kernelOf g).map (·.beds)).getD 0
    if c.restore = [] && bedRoom c quota g x.entry then c.enterBed g x.entry x (dieOf st die).cycles
    else { c with restore := c.restore ++ [x] }) s

/-- Restore a member block on a core (R248). -/
def restoreBlock (s : State) (die pos : Nat) (g : Grid) (b : SavedBlock) : State :=
  let alone := !((residents s die pos).any fun x => x.1.id = g.id)
  let cuts := b.cuttings.map fun x => { x with after := x.after.map (After.renumber (b.num s.nextId)) }
  let s := seatBlock s die pos g b.blk
  let s := restoreStores s die pos g b alone
  let s := resumeBlockWarps s die pos b
  let s := resumeOps s die pos b
  let s := resumeCuttings s die pos g.id cuts
  let s := arrayTurn (resumeSlots s die pos g.id b) die pos
  ((coreAt s die pos).warps.filter fun w => w.holds g.id [b.blk]).foldl (fun st w => settleBarw st die pos w.slot) s

/-- A reserved bit of the context's header is set (R11, R337 Table 7). -/
def contextMalformed (s : State) (c : Context) : Bool :=
  let h := devRead s c.addr 128
  bits h 1023 384 ≠ 0 || bits h 255 248 ≠ 0 || bits h 191 180 ≠ 0 || bits h 31 16 ≠ 0 || bits h 7 6 ≠ 0

/-- A die claims a context for placement (R340): state 3 with the die that claims it. -/
def claimContext (s : State) (die : Nat) (c : Context) : State := writeHeader s { c with st := 3, cdie := die }

/-- Resume a context on the positions of a rectangle (R340): claimed, decoded, restored and released in one step; the
barriers and the holds of its threads are evaluated again (R195, R213, R269, R322). -/
def restoreHood (s : State) (die : Nat) (g : Grid) (h : Hood) (c : Context) (ps : List Nat) : State :=
  let s := claimContext s die c
  let bs := loadImage s c
  let s := modHood s g.id h.idx fun h => { h with
    st := .placed, gens := memberGens s die ps, skipSince := [], starving := [], resumed := true, coppice := false }
  let s := unreserve s die g.id h.idx
  let s := bs.foldl (fun st b => restoreBlock st die (ps.getD b.rank 0) g b) s
  let n := bits (devRead s c.addr 128) 63 32
  let s := dropContext (countEvent s g.vf 8 n) c.id
  let s := match gridAt s g.id with
    | some g' => bs.foldl (fun st b => settleHood st g' b.blk) s
    | none => s
  (List.range 4).foldl (fun st k => settleGrid st g.id k) s

/-- RESTORE_LIST_ENTRY (R248 step 4): the first cutting of the restore list that a bed can take. -/
def execRestoreListEntry (die pos : Nat) (s : State) : Host.Outcome State Fault Refusal :=
  let c := coreAt s die pos
  let room := fun (x : Cutting) => bedRoom c (((c.kernelOf x.grid).map (·.beds)).getD 0) x.grid x.entry
  match c.restore.findIdx? room with
  | none => .next s
  | some i =>
    match c.restore[i]? with
    | some x => .next (modCore s die pos fun c =>
        { (c.enterBed x.grid x.entry x (dieOf s die).cycles) with restore := c.restore.eraseIdx i })
    | none => .next s

end Sys2Proof.Machine
end

