-- ==== Sys2Proof/Machine/Special.lean ====
section
/-! DEFINITION. The special functions, correctly rounded (R118 to R120), by integer fixed-point
computation. The precision is far beyond the hardest case of a 24-bit significand (log 12). -/

namespace Sys2Proof.Machine

/-- floor(√n), from the top bit down, with `fuel` result bits. -/
def isqrtFrom (n : Nat) : Nat → Nat → Nat
  | 0, r => r
  | k + 1, r => let c := r + 2 ^ k
                if c * c ≤ n then isqrtFrom n k c else isqrtFrom n k r

/-- floor(√n). -/
def isqrt (n : Nat) : Nat := isqrtFrom n (Nat.log2 n / 2 + 1) 0

/-- floor(π/2 × 2^512). -/
def halfPi512 : Nat := 21060935446725318109723410742279694052627998656744627302797342544051902891138049459896942686123863173221885648458166742663646458312799580771176887101916299

/-- floor(ln 2 × 2^384). -/
def ln2_384 : Nat := 27311389503436327984859642001965014295881604093268141717219425985154158335678826923825841039545353940567474963094288

/-- The value just above `n / 2 ^ p`, and below `(n + 1) / 2 ^ p`, rounded to FP32 by `rn`. -/
def roundSticky (neg : Bool) (n : Nat) (p : Int) : Nat × Fl :=
  roundRat fp32 0 false neg (2 * n + 1) 1 (-p - 1)

/-- Sum of the terms `t × x^i / (i! …)` of a series at `p` fractional bits: each term is the last one
times `x` divided by `d i`, signs as `alt`. -/
def series (p x : Nat) (alt : Bool) (d : Nat → Nat) : Nat → Nat → Nat → Bool → Int → Int
  | 0, _, _, _, acc => acc
  | fuel + 1, i, t, neg, acc =>
    let acc := if neg then acc - t else acc + t
    series p x alt d fuel (i + 1) (t * x / 2 ^ p / d i) (if alt then !neg else neg) acc

/-- exp(x / 2^p) × 2^p for 0 ≤ x < 2^p. -/
def expFix (p x : Nat) : Nat := (series p x false (fun i => i + 1) 120 0 (2 ^ p) false 0).toNat

/-- sin(x / 2^p) × 2^p for 0 ≤ x/2^p ≤ π/2. -/
def sinFix (p x : Nat) : Nat :=
  (series p (x * x / 2 ^ p) true (fun i => (2 * i + 2) * (2 * i + 3)) 80 0 x false 0).toNat

/-- cos(x / 2^p) × 2^p for 0 ≤ x/2^p ≤ π/2. -/
def cosFix (p x : Nat) : Nat :=
  (series p (x * x / 2 ^ p) true (fun i => (2 * i + 1) * (2 * i + 2)) 80 0 (2 ^ p) false 0).toNat

/-- Σ z^(2i+1) / (2i+1) at `p` bits, z given at `p` bits. -/
def atanhFix (p : Nat) : Nat → Nat → Nat → Nat → Nat → Nat
  | 0, _, _, _, acc => acc
  | fuel + 1, i, t, z2, acc => atanhFix p fuel (i + 1) (t * z2 / 2 ^ p) z2 (acc + t / (2 * i + 1))

/-- ln(num / den) × 2^p for 1 ≤ num/den < 2. -/
def lnFix (p num den : Nat) : Nat :=
  let z := (num - den) * 2 ^ p / (num + den)
  2 * atanhFix p 160 0 z (z * z / 2 ^ p) 0

/-- `rcp` (R119, R120). -/
def rcpF (x : Num) : Nat × Fl :=
  match x with
  | .nan s => (fp32.nan, flIf s flInvalid)
  | .inf n => (fp32.signed n 0, 0)
  | .fin n m e => if m = 0 then (fp32.signed n fp32.infCode, flDivzero) else roundRat fp32 0 false n 1 m (-e)

/-- `sqrt` (R119, R120): the integer root of the mantissa scaled to an even exponent, with a sticky bit. -/
def sqrtF (x : Num) : Nat × Fl :=
  match x with
  | .nan s => (fp32.nan, flIf s flInvalid)
  | .inf n => if n then (fp32.nan, flInvalid) else (fp32.infCode, 0)
  | .fin n m e =>
    if m = 0 then (fp32.signed n 0, 0)
    else if n then (fp32.nan, flInvalid)
    else
      let (m, e) := if e % 2 = 0 then (m, e) else (2 * m, e - 1)
      let r := isqrt (m * 2 ^ 128)
      if r * r = m * 2 ^ 128 then roundRat fp32 0 false false r 1 (e / 2 - 64)
      else roundSticky false r (64 - e / 2)

/-- `rsqrt` (R119, R120). -/
def rsqrtF (x : Num) : Nat × Fl :=
  match x with
  | .nan s => (fp32.nan, flIf s flInvalid)
  | .inf n => if n then (fp32.nan, flInvalid) else (0, 0)
  | .fin n m e =>
    if m = 0 then (fp32.signed n fp32.infCode, flDivzero)
    else if n then (fp32.nan, flInvalid)
    else
      let (m, e) := if e % 2 = 0 then (m, e) else (2 * m, e - 1)
      let q := 2 ^ 256
      let r := isqrt (q / m)
      if r * r * m = q then roundRat fp32 0 false false r 1 (-128 - e / 2)
      else roundSticky false r (128 + e / 2)

/-- `exp2` (R119, R120). A value beyond every FP32 result stands for its like. -/
def exp2F (x : Num) : Nat × Fl :=
  match x with
  | .nan s => (fp32.nan, flIf s flInvalid)
  | .inf n => if n then (0, 0) else (fp32.infCode, 0)
  | .fin n m e =>
    if m = 0 then (0x3F800000, 0)
    else
      let q := if 0 ≤ e then m * 2 ^ e.toNat else m / 2 ^ (-e).toNat
      if 1000 ≤ q then roundSticky false 1 (if n then 1000 else -1000)
      else
        let frac := if 0 ≤ e then 0 else m % 2 ^ (-e).toNat
        if frac = 0 then roundRat fp32 0 false false 1 1 (if n then -(q : Int) else q)
        else
          let d := 2 ^ (-e).toNat
          let (k, f) : Int × Nat := if n then (-(q : Int) - 1, d - frac) else ((q : Int), frac)
          let y := expFix 384 (f * ln2_384 / d)
          roundSticky false (max y (2 ^ 384)) (384 - k)

/-- `log2` (R119, R120). -/
def log2F (x : Num) : Nat × Fl :=
  match x with
  | .nan s => (fp32.nan, flIf s flInvalid)
  | .inf n => if n then (fp32.nan, flInvalid) else (fp32.infCode, 0)
  | .fin n m e =>
    if m = 0 then (fp32.signed true fp32.infCode, flDivzero)
    else if n then (fp32.nan, flInvalid)
    else
      let l := Nat.log2 m
      let k : Int := e + l
      if m = 2 ^ l then (if k = 0 then (0, 0) else roundNum fp32 0 false (Num.ofInt k))
      else
        let f : Nat := lnFix 384 m (2 ^ l) * 2 ^ 384 / ln2_384
        let v : Int := k * 2 ^ 384 + f
        if 0 ≤ v then roundSticky false v.toNat 384 else roundSticky true (-v - 1).toNat 384

/-- Sine or cosine (R119, R120): the argument reduced by π/2 at 512 fractional bits. -/
def sinCosF (cosine : Bool) (x : Num) : Nat × Fl :=
  match x with
  | .nan s => (fp32.nan, flIf s flInvalid)
  | .inf _ => (fp32.nan, flInvalid)
  | .fin n m e =>
    if m = 0 then (if cosine then 0x3F800000 else fp32.signed n 0, 0)
    else
      let v := m * 2 ^ (e + 512).toNat
      let q := v / halfPi512 % 4
      let r := v % halfPi512
      let useCos := (q % 2 = 1) != cosine
      let neg := if cosine then (q = 1 || q = 2) else n != (q = 2 || q = 3)
      let y := if useCos then cosFix 512 r else sinFix 512 r
      roundSticky neg (min y (2 ^ 512 - 1) - 1) 512

end Sys2Proof.Machine
end

