-- ==== Sys2Proof/Machine/Float.lean ====
section
/-! DEFINITION. Floating-point instructions and the flag register (R108 to R120). -/

namespace Sys2Proof.Machine

/-- An FP32 operation on two operands, as words (R112). -/
def f32op2 (f : Num → Num → Nat × Fl) (a b : Word) : Word × Fl :=
  let r := f (fp32.decode a.toNat) (fp32.decode b.toNat)
  (BitVec.ofNat 32 r.1, r.2)

/-- An FP32 operation on three operands. -/
def f32op3 (f : Num → Num → Num → Nat × Fl) (a b d : Word) : Word × Fl :=
  let r := f (fp32.decode a.toNat) (fp32.decode b.toNat) (fp32.decode d.toNat)
  (BitVec.ofNat 32 r.1, r.2)

/-- An FP32 operation on one operand. -/
def f32op1 (f : Num → Nat × Fl) (a : Word) : Word × Fl :=
  let r := f (fp32.decode a.toNat)
  (BitVec.ofNat 32 r.1, r.2)

/-- Both elements of a BF16×2 word from a function of the element index (R40, R112). -/
def both (f : Nat → Nat × Fl) : Word × Fl :=
  (BitVec.ofNat 32 ((f 0).1 + (f 1).1 * 2 ^ 16), (f 0).2 ||| (f 1).2)

/-- Element i of a BF16×2 word (R40). -/
def halfOf (a : Word) (i : Nat) : Nat := bits a.toNat (16 * i + 15) (16 * i)

/-- A BF16×2 operation on two operands (R112). -/
def bfop2 (f : Num → Num → Nat × Fl) (a b : Word) : Word × Fl :=
  both fun i => f (bf16.decode (halfOf a i)) (bf16.decode (halfOf b i))

/-- A BF16×2 operation on three operands. -/
def bfop3 (f : Num → Num → Num → Nat × Fl) (a b d : Word) : Word × Fl :=
  both fun i => f (bf16.decode (halfOf a i)) (bf16.decode (halfOf b i)) (bf16.decode (halfOf d i))

/-- a − b, as a + (−b) (R112, R113). -/
def subF (f : Fmt) (rm : Nat) (a b : Num) : Nat × Fl := addF f rm a b.neg

/-- a × b − d. -/
def fmsF (f : Fmt) (rm : Nat) (a b d : Num) : Nat × Fl := fmaF f rm a b d.neg

/-- −(a × b) + d. -/
def fnmaF (f : Fmt) (rm : Nat) (a b d : Num) : Nat × Fl := fmaF f rm a.neg b d

/-- Minimum or maximum on code words (R115). -/
def f32minmax (isMax : Bool) (a b : Word) : Word × Fl :=
  let r := minmaxF fp32 isMax a.toNat b.toNat
  (BitVec.ofNat 32 r.1, r.2)

/-- Minimum or maximum of both elements (R115). -/
def bfminmax (isMax : Bool) (a b : Word) : Word × Fl :=
  both fun i => minmaxF bf16 isMax (halfOf a i) (halfOf b i)

/-- Clear or invert the sign of a value that is no NaN (R117). -/
def signOp (f : Fmt) (invert : Bool) (x : Nat) : Nat × Fl :=
  let v := f.decode x
  if v.isNan then (f.nan, flIf v.signalling flInvalid)
  else if bit x (f.ew + f.t) then (x - f.signBit, 0)
  else (if invert then x + f.signBit else x, 0)

/-- The class mask of an FP32 value (R117). -/
def classOf (x : Nat) : Nat :=
  let sub := bits x 30 23 = 0
  match fp32.decode x with
  | .nan sg => if sg then 2 ^ 8 else 2 ^ 9
  | .inf n => if n then 2 ^ 0 else 2 ^ 7
  | .fin n m _ =>
    if m = 0 then (if n then 2 ^ 3 else 2 ^ 4)
    else if sub then (if n then 2 ^ 2 else 2 ^ 5)
    else if n then 2 ^ 1 else 2 ^ 6

/-- The comparisons of R116 Table 4. -/
def fcmpF (c : Nat) (a b : Num) : Bool × Fl :=
  let un := a.isNan || b.isNan
  let r := Num.cmp a b
  let res := match c with
    | 0 => !un && r = 0
    | 1 => un || r ≠ 0
    | 2 => !un && decide (r < 0)
    | 3 => !un && decide (r ≤ 0)
    | 4 => !un && decide (0 < r)
    | 5 => !un && decide (0 ≤ r)
    | 6 => un
    | _ => !un
  let inv := if 2 ≤ c ∧ c ≤ 5 then un else a.signalling || b.signalling
  (res, flIf inv flInvalid)

/-! ### Meanings -/

/-- `fadd` (R112, R113). -/
def execFadd (d a b : BitVec 7) (m : BitVec 2) (s : State) : Host.Outcome State Fault Refusal :=
  perFloat (.fadd d a b m) d (fun t => f32op2 (addF fp32 m.toNat) (t.reg a.toNat) (t.reg b.toNat)) s

/-- `bfadd2` (R112, R113). -/
def execBfadd2 (d a b : BitVec 7) (m : BitVec 2) (s : State) : Host.Outcome State Fault Refusal :=
  perFloat (.bfadd2 d a b m) d (fun t => bfop2 (addF bf16 m.toNat) (t.reg a.toNat) (t.reg b.toNat)) s

/-- `fsub` (R112, R113). -/
def execFsub (d a b : BitVec 7) (m : BitVec 2) (s : State) : Host.Outcome State Fault Refusal :=
  perFloat (.fsub d a b m) d (fun t => f32op2 (subF fp32 m.toNat) (t.reg a.toNat) (t.reg b.toNat)) s

/-- `bfsub2` (R112, R113). -/
def execBfsub2 (d a b : BitVec 7) (m : BitVec 2) (s : State) : Host.Outcome State Fault Refusal :=
  perFloat (.bfsub2 d a b m) d (fun t => bfop2 (subF bf16 m.toNat) (t.reg a.toNat) (t.reg b.toNat)) s

/-- `fmul` (R112, R113). -/
def execFmul (d a b : BitVec 7) (m : BitVec 2) (s : State) : Host.Outcome State Fault Refusal :=
  perFloat (.fmul d a b m) d (fun t => f32op2 (mulF fp32 m.toNat) (t.reg a.toNat) (t.reg b.toNat)) s

/-- `bfmul2` (R112, R113). -/
def execBfmul2 (d a b : BitVec 7) (m : BitVec 2) (s : State) : Host.Outcome State Fault Refusal :=
  perFloat (.bfmul2 d a b m) d (fun t => bfop2 (mulF bf16 m.toNat) (t.reg a.toNat) (t.reg b.toNat)) s

/-- `ffma` (R112, R113). -/
def execFfma (d a b : BitVec 7) (m : BitVec 2) (s : State) : Host.Outcome State Fault Refusal :=
  perFloat (.ffma d a b m) d (fun t => f32op3 (fmaF fp32 m.toNat) (t.reg a.toNat) (t.reg b.toNat) (t.reg d.toNat)) s

/-- `bffma2` (R112, R113). -/
def execBffma2 (d a b : BitVec 7) (m : BitVec 2) (s : State) : Host.Outcome State Fault Refusal :=
  perFloat (.bffma2 d a b m) d (fun t => bfop3 (fmaF bf16 m.toNat) (t.reg a.toNat) (t.reg b.toNat) (t.reg d.toNat)) s

/-- `ffms` (R112, R113). -/
def execFfms (d a b : BitVec 7) (m : BitVec 2) (s : State) : Host.Outcome State Fault Refusal :=
  perFloat (.ffms d a b m) d (fun t => f32op3 (fmsF fp32 m.toNat) (t.reg a.toNat) (t.reg b.toNat) (t.reg d.toNat)) s

/-- `bffms2` (R112, R113). -/
def execBffms2 (d a b : BitVec 7) (m : BitVec 2) (s : State) : Host.Outcome State Fault Refusal :=
  perFloat (.bffms2 d a b m) d (fun t => bfop3 (fmsF bf16 m.toNat) (t.reg a.toNat) (t.reg b.toNat) (t.reg d.toNat)) s

/-- `ffnma` (R112, R113). -/
def execFfnma (d a b : BitVec 7) (m : BitVec 2) (s : State) : Host.Outcome State Fault Refusal :=
  perFloat (.ffnma d a b m) d (fun t => f32op3 (fnmaF fp32 m.toNat) (t.reg a.toNat) (t.reg b.toNat) (t.reg d.toNat)) s

/-- `bffnma2` (R112, R113). -/
def execBffnma2 (d a b : BitVec 7) (m : BitVec 2) (s : State) : Host.Outcome State Fault Refusal :=
  perFloat (.bffnma2 d a b m) d (fun t => bfop3 (fnmaF bf16 m.toNat) (t.reg a.toNat) (t.reg b.toNat) (t.reg d.toNat)) s

/-- `fmin` (R115). -/
def execFmin (d a b : BitVec 7) (s : State) : Host.Outcome State Fault Refusal :=
  perFloat (.fmin d a b) d (fun t => f32minmax false (t.reg a.toNat) (t.reg b.toNat)) s

/-- `bfmin2` (R115). -/
def execBfmin2 (d a b : BitVec 7) (s : State) : Host.Outcome State Fault Refusal :=
  perFloat (.bfmin2 d a b) d (fun t => bfminmax false (t.reg a.toNat) (t.reg b.toNat)) s

/-- `fmax` (R115). -/
def execFmax (d a b : BitVec 7) (s : State) : Host.Outcome State Fault Refusal :=
  perFloat (.fmax d a b) d (fun t => f32minmax true (t.reg a.toNat) (t.reg b.toNat)) s

/-- `bfmax2` (R115). -/
def execBfmax2 (d a b : BitVec 7) (s : State) : Host.Outcome State Fault Refusal :=
  perFloat (.bfmax2 d a b) d (fun t => bfminmax true (t.reg a.toNat) (t.reg b.toNat)) s

/-- `fcmp` (R116). -/
def execFcmp (p a b : BitVec 7) (c : BitVec 4) (s : State) : Host.Outcome State Fault Refusal :=
  issue (.fcmp p a b c) s fun x t =>
    let r := fun k => fcmpF c.toNat (fp32.decode ((x.th k).reg a.toNat).toNat) (fp32.decode ((x.th k).reg b.toNat).toNat)
    .done (x.flags (x.setThreads t x.act fun k th => th.setPred p.toNat (r k).1)
      (orFlags ((laneList x.act).map fun k => (r k).2)))

/-- `fabs` (R117). -/
def execFabs (d a : BitVec 7) (s : State) : Host.Outcome State Fault Refusal :=
  perFloat (.fabs d a) d (fun t =>
    let r := signOp fp32 false (t.reg a.toNat).toNat
    (BitVec.ofNat 32 r.1, r.2)) s

/-- `bfabs2` (R117). -/
def execBfabs2 (d a : BitVec 7) (s : State) : Host.Outcome State Fault Refusal :=
  perFloat (.bfabs2 d a) d (fun t => both fun i => signOp bf16 false (halfOf (t.reg a.toNat) i)) s

/-- `fneg` (R117). -/
def execFneg (d a : BitVec 7) (s : State) : Host.Outcome State Fault Refusal :=
  perFloat (.fneg d a) d (fun t =>
    let r := signOp fp32 true (t.reg a.toNat).toNat
    (BitVec.ofNat 32 r.1, r.2)) s

/-- `bfneg2` (R117). -/
def execBfneg2 (d a : BitVec 7) (s : State) : Host.Outcome State Fault Refusal :=
  perFloat (.bfneg2 d a) d (fun t => both fun i => signOp bf16 true (halfOf (t.reg a.toNat) i)) s

/-- `fclass` (R117). -/
def execFclass (d a : BitVec 7) (s : State) : Host.Outcome State Fault Refusal :=
  perLane1 (.fclass d a) d a (fun x => BitVec.ofNat 32 (classOf x.toNat)) s

/-- `rcp` (R118 to R120). -/
def execRcp (d a : BitVec 7) (s : State) : Host.Outcome State Fault Refusal :=
  perFloat (.rcp d a) d (fun t => f32op1 rcpF (t.reg a.toNat)) s

/-- `rsqrt` (R118 to R120). -/
def execRsqrt (d a : BitVec 7) (s : State) : Host.Outcome State Fault Refusal :=
  perFloat (.rsqrt d a) d (fun t => f32op1 rsqrtF (t.reg a.toNat)) s

/-- `sqrt` (R118 to R120). -/
def execSqrt (d a : BitVec 7) (s : State) : Host.Outcome State Fault Refusal :=
  perFloat (.sqrt d a) d (fun t => f32op1 sqrtF (t.reg a.toNat)) s

/-- `exp2` (R118 to R120). -/
def execExp2 (d a : BitVec 7) (s : State) : Host.Outcome State Fault Refusal :=
  perFloat (.exp2 d a) d (fun t => f32op1 exp2F (t.reg a.toNat)) s

/-- `log2` (R118 to R120). -/
def execLog2 (d a : BitVec 7) (s : State) : Host.Outcome State Fault Refusal :=
  perFloat (.log2 d a) d (fun t => f32op1 log2F (t.reg a.toNat)) s

/-- `sin` (R118 to R120). -/
def execSin (d a : BitVec 7) (s : State) : Host.Outcome State Fault Refusal :=
  perFloat (.sin d a) d (fun t => f32op1 (sinCosF false) (t.reg a.toNat)) s

/-- `cos` (R118 to R120). -/
def execCos (d a : BitVec 7) (s : State) : Host.Outcome State Fault Refusal :=
  perFloat (.cos d a) d (fun t => f32op1 (sinCosF true) (t.reg a.toNat)) s

/-- `flrd` (R110, R111): the flags as they stood at the start of the cycle. -/
def execFlrd (d : BitVec 7) (s : State) : Host.Outcome State Fault Refusal :=
  issue (.flrd d) s fun p t => .done (p.write t d.toNat fun _ => p.w.old.fl.zeroExtend 32)

/-- `flclr` (R110, R111): a bit that a contribution sets in the same cycle ends set. -/
def execFlclr (m : BitVec 7) (s : State) : Host.Outcome State Fault Refusal :=
  perPath (.flclr m) s fun p t => .done (p.mod t fun w =>
    let clr := w.flClr ||| m.extractLsb' 0 6
    { w with flClr := clr, sh := { w.sh with fl := flagsOf w.old.fl w.flSet clr } })

end Sys2Proof.Machine
end

