-- ==== Sys2Proof/Machine/Table.lean ====
section
/-! DEFINITION. The activation table (R121 to R127). -/

namespace Sys2Proof.Machine

/-- The bytes of a table image: a header of 64 bytes and 256 entries of 16 (R121). -/
def imageBytes : Nat := 4160

/-- The bank that `sfe` reads in a cycle (R125): a switch counts from the next cycle. -/
def Core.bankIn (c : Core) (now : Nat) : Bool :=
  match c.bankWas with
  | some (k, b) => if k = now then b else c.bank
  | none => c.bank

/-- The bank of a core as a store. -/
def bankSpace (die pos : Nat) (b : Bool) : Space := .bank die pos (if b then 1 else 0)

/-- A word of a bank. -/
def bankWord (s : State) (sp : Space) (a : Nat) : Num := fp32.decode (readN s sp a 4)

/-- The segment and the fraction of `t` (R122): none is the canonical NaN with invalid. -/
def segment (mode : Nat) (t : Num) : Option (Nat × Num × Fl) :=
  let big := match t with
    | .inf n => !n
    | _ => decide (0 ≤ Num.cmp t (Num.ofInt 256))
  let low := match t with
    | .inf n => n
    | _ => decide (Num.cmp t (Num.ofInt 0) < 0)
  if big then
    if mode = 1 then some (255, Num.ofInt 1, 0)
    else if t.isInf then none
    else let r := addF fp32 0 t (Num.ofInt (-255))
         some (255, fp32.decode r.1, r.2)
  else if low then
    if mode = 1 then some (0, Num.ofInt 0, 0)
    else if t.isInf then none
    else some (0, t, 0)
  else
    let i := match t with
      | .fin _ m e => if 0 ≤ e then m * 2 ^ e.toNat else m / 2 ^ (-e).toNat
      | _ => 0
    some (i, Num.add false t (Num.ofInt i).neg, 0)

/-- `sfe` on an FP32 value (R122). -/
def sfeF (s : State) (sp : Space) (x : Num) : Nat × Fl :=
  if x.isNan then (fp32.nan, flIf x.signalling flInvalid)
  else
    let x0 := bankWord s sp 0
    let scale := bankWord s sp 4
    let mode := bits (readN s sp 8 1) 1 0
    let (tc, tfl) := if scale.isZero then (0, 0)
      else finishArith fp32 0 false (Num.mul (Num.add false x x0.neg) scale)
    match segment mode (fp32.decode tc) with
    | none => (fp32.nan, tfl ||| flInvalid)
    | some (i, u, ufl) =>
      let c := fun j => bankWord s sp (64 + 16 * i + 4 * j)
      let r1 := fmaF fp32 0 (c 3) u (c 2)
      let r2 := fmaF fp32 0 (fp32.decode r1.1) u (c 1)
      let r3 := fmaF fp32 0 (fp32.decode r2.1) u (c 0)
      (r3.1, tfl ||| ufl ||| r1.2 ||| r2.2 ||| r3.2)

/-- The kernel of the path does not hold the table grant (R127). -/
def Path.noGrant (p : Path) : Bool × Flt := p.pathCheck (!p.kernel.tbl) 9 1 5 false 0

/-- `sfe` or `sfe2` in every active lane (R122, R123, R126). -/
def sfeLanes (i : Instr) (d a : BitVec 7) (f : (Num → Nat × Fl) → Word → Word × Fl) (s : State) :
    Host.Outcome State Fault Refusal :=
  perPath i s fun p t =>
    match firstFault [p.noGrant] with
    | some e => .fault e
    | none =>
      let sp := bankSpace p.die p.pos (p.core.bankIn (dieOf s p.die).cycles)
      let r := fun k => f (sfeF s sp) ((p.th k).reg a.toNat)
      .done (p.flags (p.write t d.toNat fun k => (r k).1) (orFlags ((laneList p.act).map fun k => (r k).2)))

/-- `sfe` (R122). -/
def execSfe (d a : BitVec 7) (s : State) : Host.Outcome State Fault Refusal :=
  sfeLanes (.sfe d a) d a f32op1 s

/-- `sfe2` (R123): each BF16 element goes through FP32, and the result is rounded to BF16. -/
def execSfe2 (d a : BitVec 7) (s : State) : Host.Outcome State Fault Refusal :=
  sfeLanes (.sfe2 d a) d a (fun f w => both fun i =>
    let r := f (bf16.decode (halfOf w i))
    let q := roundNum bf16 0 false (fp32.decode r.1)
    (q.1, r.2 ||| q.2)) s

/-- A header that `tblld` rejects (R121, R124). -/
def headerBad (h : Nat) : Bool :=
  bits h 511 66 ≠ 0 || 2 ≤ bits h 65 64 ||
    (match fp32.decode (bits h 31 0) with | .fin .. => false | _ => true) ||
    (match fp32.decode (bits h 63 32) with | .fin _ m _ => m = 0 | _ => true)

/-- `tblld` (R124, R126, R347): the header is read and checked at issue; the entries are copied later. The grant is
checked first (log 19), and the record of a malformed header carries no scratch address (log 62). -/
def execTblld (a : BitVec 7) (s : State) : Host.Outcome State Fault Refusal :=
  perPath (.tblld a) s fun p t =>
    let ad := (p.reg0 a.toNat).toNat
    match firstFault [p.noGrant, p.pathCheck (ad % 64 ≠ 0) 5 1 1 false ad,
                      p.pathCheck (decide (p.scratchBytes < ad + imageBytes)) 5 3 1 false ad,
                      p.pathCheck (isPoisoned s p.scratch ad 64) 8 1 1 false ad,
                      p.pathCheck (headerBad (readN s p.scratch ad 64)) 9 2 5 false 0] with
    | some e => .fault e
    | none =>
      let b := !p.core.bank
      let t := writeBytes t (bankSpace p.die p.pos b) 0 (readBytes s p.scratch ad 64)
      let t := watchScratch t (p.src p.l0 4) true false p.die p.pos ad 64
      .done (addOp t { p.newOp t (.table (List.range 256) ad b) p.act p.l0 with after := p.forkAfter s p.act })

/-- `tblsw` (R125, R126). -/
def execTblsw (s : State) : Host.Outcome State Fault Refusal :=
  perPath .tblsw s fun p t =>
    match firstFault [p.noGrant] with
    | some e => .fault e
    | none =>
      let now := (dieOf s p.die).cycles
      .done (modCore t p.die p.pos fun c =>
        { c with bank := !c.bank, bankWas := some (now, c.bankIn now) })

/-- TBLLD_COPY (R124, R347): one entry is read and copied into the bank, unless the grant has gone with the kernel (R127). -/
def execTblldCopy (die pos entry : Nat) (s : State) : Host.Outcome State Fault Refusal :=
  let mine := fun (o : Op) => o.die = die && o.pos = pos && match o.kind with
    | .table left _ _ => left.contains entry
    | _ => false
  match s.ops.find? mine with
  | some o =>
    match o.kind with
    | .table left src b =>
      let a := src + 64 + 16 * entry
      let sp := o.place s (.scratch die pos)
      if isPoisoned s sp a 16 then .next (memoryError s o 1 1 false (BitVec.ofNat 32 (2 ^ o.l0)) a)
      else
        let s := if o.kern = o.grid then writeBytes s (bankSpace die pos b) (64 + 16 * entry) (readBytes s sp a 16) else s
        let s := watchSpace s (o.src 4) true false sp o.asid a a 16
        let left := left.filter (· ≠ entry)
        .next (if left = [] then endOp s o.id else modOp s o.id fun o => { o with kind := .table left src b })
    | _ => .next s
  | none => .next s

end Sys2Proof.Machine
end

