-- ==== Sys2Proof/Machine/Dispatcher.lean ====
section
/-! DEFINITION. Placement rounds, starvation and the estimator (R263, R323, R327 to R332, R340, R384). -/

namespace Sys2Proof.Machine

/-! ### Exact fractions (R330) -/

/-- A non-negative rational, compared exactly. -/
structure Frac where
  num : Nat
  den : Nat
  deriving DecidableEq, Repr

def Frac.lt (a b : Frac) : Bool := decide (a.num * b.den < b.num * a.den)
def Frac.add (a b : Frac) : Frac := ⟨a.num * b.den + b.num * a.den, a.den * b.den⟩
def Frac.max (a b : Frac) : Frac := if a.lt b then b else a
def Frac.ofNat (n : Nat) : Frac := ⟨n, 1⟩

/-- A time fits a budget, which may be negative (R329). -/
def Frac.fits (a : Frac) (budget : Int) : Bool := decide ((a.num : Int) ≤ budget * a.den)

/-! ### Volumes (R330) -/

/-- The lane is blocked or parked where it stands (R243, R244). -/
def heldLane (s : State) (g : Grid) (c : Core) (w : Warp) (k : Nat) : Bool :=
  match (w.lane k).wait with
  | .none => restsBlocked s c w g k
  | .stopped => false
  | _ => true

/-- R244 saves the thread with full masks wherever it stands: it is parked, or waits in a loop hold. -/
def Thread.savedWhole (t : Thread) : Bool :=
  match t.wait with
  | .parked => true
  | .loopHold _ => true
  | _ => false

/-- The live v and g registers of a lane for the estimate (R330): the side-table entry at or after its pc, everything
where R244 applies, a lane held at a pc without an entry among them (R333), or where no entry follows. -/
def estimateLive (s : State) (g : Grid) (c : Core) (w : Warp) (k : Nat) : Live :=
  let t := w.lane k
  if !t.running then Live.none
  else
    let va := lrecBits g.lrec 191 128
    let entry := lrecBits g.lrec 51 0
    if t.savedWhole || t.pc.toNat < entry then Live.all g.regs
    else match cpRead64 s g.asid va with
      | none => Live.all g.regs
      | some h =>
        match (List.range (bits h 31 0)).findSome? fun i => match cpRead64 s g.asid (va + 64 * (i + 1)) with
          | some e => if t.pc.toNat - entry ≤ bits e 31 0 then some e else none
          | none => none with
        | some e => if heldLane s g c w k && bits e 31 0 ≠ t.pc.toNat - entry then Live.all g.regs else Live.ofEntry e
        | none => Live.all g.regs

/-- Bits set in a mask of n bits. -/
def countBits (n m : Nat) : Nat := ((List.range n).filter (bit m)).length

/-- Live registers of a warp: v registers, and v and g registers together. -/
def warpLive (s : State) (g : Grid) (c : Core) (w : Warp) : Nat × Nat :=
  let m := ((List.range 32).map (estimateLive s g c w)).foldl Live.union Live.none
  (countBits g.regs m.v, countBits g.regs m.v + countBits 15 m.g)

/-- Scratch lines, written sectors and cuttings of a resident block (R330); the slots of a warp that goes with the block as
a whole count with those whose grant it still waits for (R246, R248, R416). -/
def blockCounts (s : State) (g : Grid) (b : Block) : Nat × Nat × Nat :=
  let c := coreAt s b.die b.pos
  let mine := (c.warps.filter fun w => w.holds g.id [b.idx] && !(w.othersThan b.idx)).map (·.uid)
  let slots := ((c.kernelOf g.id).map (·.owner)).getD []
  let owed := (((c.kernelOf g.id).map (·.claims)).getD []).filter fun x => x.resumed && mine.contains x.warp
  let secs := (touchedSectors s (.weight b.die b.pos g.id) (some b.idx)).length +
    (touchedSectors s (.acc b.die b.pos g.id) (some b.idx)).length +
    sumNat ((slots.filter fun x => mine.contains x.2).map fun x => (touchedSectors s (.slot b.die b.pos g.id x.1) none).length) +
    sumNat (owed.map fun x => x.sectors.length)
  let cuts := ((c.beds.flatMap (·.cuttings) ++ c.restore).filter fun x => x.grid = g.id && x.blk = b.idx).length
  (if g.carveKib = 0 then 0 else (localOf s (.scratch b.die b.pos)).touched.length, secs, cuts)

/-- L(V), the save volume of a resident neighbourhood (R330). -/
def saveVolume (s : State) (g : Grid) (h : Hood) : Nat :=
  sumNat ((hoodWarps s g h).map fun x => 128 + 128 * (warpLive s g x.1 x.2).1) +
    sumNat (h.placed.map fun b =>
      let (lines, secs, cuts) := blockCounts s g b
      4096 + 128 * lines + 32 * secs + 64 * cuts)

/-- raw(V), the size of its image (R330, R338). -/
def rawVolume (s : State) (g : Grid) (h : Hood) : Nat :=
  let n := sumNat ((hoodWarps s g h).map fun x => 256 + 128 * (warpLive s g x.1 x.2).2) +
    sumNat (h.placed.map fun b =>
      let (lines, secs, cuts) := blockCounts s g b
      let tbl := match (coreAt s b.die b.pos).kernelOf g.id with
        | some k => if k.tbl then 8 + 2 * imageBytes else 0
        | none => 0
      256 + 136 * lines + 40 * secs + 64 * cuts + tbl)
  ceilDiv n 256 * 256

/-! ### Choices for a resident neighbourhood (R330, R331) -/

/-- How cores are freed of a neighbourhood. -/
inductive Choice where
  | drain
  | flush
  | save
  deriving DecidableEq, Repr

/-- A legal choice with its time to free and its cost. -/
structure Option1 where
  choice : Choice
  time : Frac
  cost : Frac
  deriving DecidableEq, Repr

/-- The path issues of a block in the last 4,096 core cycles, at least 64 (R330). -/
def Block.issues (b : Block) (now : Nat) : Nat :=
  max 64 (sumNat ((b.iss.filter fun x => decide (now < x.1 + 4096)).map (·.2)))

/-- rem_b / iss_b (R330). -/
def drainTime (est now : Nat) (b : Block) : Frac :=
  if b.r < est then ⟨(est - b.r) * 4096, b.issues now⟩ else ⟨est * 4096, 4 * b.issues now⟩

/-- Every placed neighbourhood of a cooperative grid goes together (R323). -/
def together (s : State) (g : Grid) (h : Hood) : List Hood :=
  if g.coop then (((gridAt s g.id).map (·.hoods)).getD []).filter fun x => x.st = .placed || x.idx = h.idx else [h]

/-- Reserve a context for each neighbourhood of a list (R337), none without room for all. -/
def reserveAll (s : State) (g : Grid) : List Hood → Option State
  | [] => some s
  | h :: t => (reserve s g h (rawVolume s g h)).bind fun s => reserveAll s g t

/-- The legal choices of a neighbourhood (R330 Table 1), in the order drain, save, flush. -/
def legalChoices (s : State) (g : Grid) (h : Hood) : List Option1 :=
  let now := fun (b : Block) => (dieOf s b.die).cycles
  let est := lrecBits g.lrec 511 480
  let drain : Frac := (h.placed.map fun b => drainTime est (now b) b).foldl Frac.max (Frac.ofNat 0)
  let l := saveVolume s g h
  let bw := max 1 s.heapbw.toNat
  let flush : Frac := (h.placed.map fun b => ⟨b.r * 4096, b.issues (now b)⟩).foldl Frac.add (Frac.ofNat 0)
  [⟨.drain, drain, Frac.ofNat 0⟩] ++
    (if (reserveAll s g (together s g h)).isSome then
      [⟨.save, ⟨256 * bw + l, bw⟩, ⟨2 * l, bw⟩⟩] else []) ++
    (if flushLegal s g h && !g.coop then [⟨.flush, Frac.ofNat 256, flush⟩] else [])

/-- The first of a list that none precedes. -/
def leastBy (lt : Option1 → Option1 → Bool) (l : List Option1) : Option Option1 :=
  l.foldl (fun best x => match best with
    | none => some x
    | some b => if lt x b then some x else some b) none

/-- The choice for a neighbourhood under a budget (R331). -/
def chooseFor (s : State) (g : Grid) (h : Hood) (budget : Int) : Option1 :=
  let l := legalChoices s g h
  let flushFirst := (l.filter fun x => x.choice = .drain) ++ (l.filter fun x => x.choice = .flush) ++
    l.filter fun x => x.choice = .save
  let fits := l.filter fun x => x.time.fits budget
  let pick := if fits = [] then leastBy (fun x y => x.time.lt y.time) flushFirst
              else leastBy (fun x y => x.cost.lt y.cost) fits
  pick.getD ⟨.drain, Frac.ofNat 0, Frac.ofNat 0⟩

/-- The neighbourhood is committed already (R331): its remaining time, at cost 0. -/
def committed (s : State) (die : Nat) (g : Grid) (h : Hood) : Option Option1 :=
  let now := (dieOf s die).cycles
  let left : Frac := ⟨h.due.1 - now * h.due.2, h.due.2⟩
  match h.st with
  | .draining => some ⟨.drain, (legalChoices s g h).headD ⟨.drain, left, left⟩ |>.time, Frac.ofNat 0⟩
  | .flushing => some ⟨.flush, left, Frac.ofNat 0⟩
  | .saving => some ⟨.save, left, Frac.ofNat 0⟩
  | _ => none

/-! ### Commitments (R331, R332, R337) -/

/-- A neighbourhood drains. -/
def drainHood (s : State) (g h : Nat) : State := modHood s g h fun h => { h with st := .draining }

/-- The saves of some neighbourhoods of a grid begin together; without room for all, all of them drain (R323, R337). -/
def saveTogether (s : State) (g : Grid) (hs : List Hood) : State :=
  if (reserveAll s g hs).isSome then hs.foldl (fun st x => beginSave st g x (rawVolume st g x)) s
  else hs.foldl (fun st x => drainHood st g.id x.idx) s

/-- Commit a choice for a neighbourhood and those that go with it (R323), for another that waits; one that is committed
by now stays so. Each is due when its own time is over. -/
def commit (s : State) (die : Nat) (g : Grid) (h : Hood) (x : Option1) (target : Option (Nat × Nat)) : State :=
  let h := ((gridAt s g.id).bind fun y => y.hoods.find? fun z => z.idx = h.idx).getD h
  if (committed s die g h).isSome then s
  else
    let now := (dieOf s die).cycles
    let hs := together s g h
    let own := fun (y : Hood) => if y.idx = h.idx then x
      else ((legalChoices s g y).find? fun o => o.choice = x.choice).getD x
    let s := hs.foldl (fun st y => modHood st g.id y.idx fun z =>
      { z with freeFor := target, due := (now * (own y).time.den + (own y).time.num, (own y).time.den) }) s
    match x.choice with
    | .drain => hs.foldl (fun st y => drainHood st g.id y.idx) s
    | .flush => modHood s g.id h.idx fun h => { h with st := .flushing }
    | .save => saveTogether s g hs

/-! ### The ready list (R327, R340, R384) -/

/-- An entry of a die's list: its grid, its neighbourhood, and the context to resume. -/
structure Ready where
  grid : Grid
  hood : Hood
  ctx : Option Context
  deriving DecidableEq, Repr

/-- Work of the function that has the package now (R384, log 33). -/
def vfActive (s : State) (g : Grid) : Bool := s.activeVf = 16 || g.vf = s.activeVf

/-- The order of R327. -/
def Ready.before (x y : Ready) : Bool :=
  let t := fun (r : Ready) => match r.ctx with
    | some c => c.savedNs
    | none => r.hood.readyNs
  if x.grid.prio ≠ y.grid.prio then decide (y.grid.prio < x.grid.prio)
  else if x.ctx.isSome ≠ y.ctx.isSome then x.ctx.isSome
  else if t x ≠ t y then decide (t x < t y)
  else decide (x.hood.idx < y.hood.idx)

/-- The ready neighbourhoods of a die in order (R327): new ones of its own dispatches, and every saved context whose header
has no reserved bit set (R11, log 76). -/
def readyList (s : State) (die : Nat) : List Ready :=
  let fresh := (s.grids.filter fun g => g.die = die && g.ended.isNone && !g.complete && vfActive s g).flatMap fun g =>
    (g.hoods.filter fun h => h.st = .ready).map fun h => (⟨g, h, none⟩ : Ready)
  let saved := (s.contexts.filter fun c => c.st = 2 && !(contextMalformed s c)).filterMap fun c =>
    match gridAt s c.grid with
    | some g => if vfActive s g then (g.hoods.find? fun h => h.idx = c.hood).map fun h => (⟨g, h, some c⟩ : Ready) else none
    | none => none
  sortBy Ready.before (fresh ++ saved)

/-- The warps that a member of an entry brings. -/
def Ready.warps (r : Ready) (rank : Nat) : Nat :=
  match r.ctx with
  | none => r.grid.warpsPerBlock
  | some c => match c.blocks.find? fun b => b.rank = rank with
    | some b => b.warps.length
    | none => 0

/-- The rectangle on which an entry can be placed now (R263, R340). -/
def rectFor (s : State) (die : Nat) (r : Ready) : Option (List Nat) := findRect s die r.grid r.hood.idx r.warps

/-- Place an entry on a rectangle. -/
def placeOn (s : State) (die : Nat) (r : Ready) (ps : List Nat) : State :=
  match r.ctx with
  | none => placeHood s die r.grid r.hood ps
  | some c => restoreHood s die r.grid r.hood c ps

/-- Place an entry where it fits. -/
def placeReady (s : State) (die : Nat) (r : Ready) : Option State := (rectFor s die r).map (placeOn s die r)

/-- Every neighbourhood of a cooperative grid that is not at its end can be placed by the die, or is placed (R323, R342):
only the die of its dispatch places a new one. -/
def coopReady (s : State) (die : Nat) (g : Grid) : Bool :=
  g.hoods.all fun h => match h.st with
    | .saving => false
    | .flushing => false
    | .ready => die = g.die
    | .saved c => s.contexts.any fun x => x.id = c && x.st = 2 && !(contextMalformed s x)
    | _ => true

/-- Place all the entries of a grid, or none (R323, R328): the first rectangles on which all of them fit. -/
def placeAll (s : State) (die : Nat) : List Ready → Option State
  | [] => some s
  | r :: t => (rectsFit s die r.grid r.hood.idx r.warps).findSome? fun ps => placeAll (placeOn s die r ps) die t

/-- The dispatcher of a die skipped the entry (R328): the first time counts. -/
def skip (s : State) (die : Nat) (r : Ready) : State :=
  modHood s r.grid.id r.hood.idx fun h =>
    { h with skipSince := if (h.skipSince.lookup die).isSome then h.skipSince else (die, (dieOf s die).cycles) :: h.skipSince }

/-! ### The estimator (R329, R331) -/

/-- The neighbourhoods resident on a rectangle. -/
def residentHoods (s : State) (die : Nat) (ps : List Nat) : List (Grid × Hood) :=
  (ps.flatMap fun p => (residents s die p).map fun x => (x.1, x.2.1)).foldl
    (fun acc x => if acc.any fun y => y.1.id = x.1.id && y.2.idx = x.2.idx then acc else acc ++ [x]) []

/-- A rectangle that would be accepted if its cores were free, with what freeing it takes and the state in which the
choices are committed (R331). -/
structure Plan where
  cores : List Nat
  time : Frac
  cost : Frac
  after : State

/-- What freeing a neighbourhood takes when some choices of a plan are made already: for one that was committed before,
its remaining time; for one that goes with another of the plan, what the same choice takes (R323, R331). -/
def planChoice (s st : State) (die : Nat) (v : Grid × Hood) (budget : Int) : Option1 :=
  match committed s die v.1 v.2 with
  | some x => x
  | none =>
    let h := ((gridAt st v.1.id).bind fun y => y.hoods.find? fun z => z.idx = v.2.idx).getD v.2
    match committed st die v.1 h with
    | some x => ((legalChoices s v.1 v.2).find? fun o => o.choice = x.choice).getD x
    | none => chooseFor st v.1 h budget

/-- Add a neighbourhood of the rectangle to a plan: the room that its save takes is taken by no other of the plan
(R337). -/
def Plan.add (s : State) (die : Nat) (budget : Int) (target : Nat × Nat) (p : Plan) (v : Grid × Hood) : Plan :=
  let x := planChoice s p.after die v budget
  { p with time := p.time.max x.time, cost := p.cost.add x.cost, after := commit p.after die v.1 v.2 x (some target) }

/-- The plan for a rectangle, none where it is no candidate. -/
def planFor (s : State) (die : Nat) (r : Ready) (budget : Int) (ps : List Nat) : Option Plan :=
  let vs := residentHoods s die ps
  if (ps.all fun p => coreOpen s die p r.grid.kind && !(reservedFor s die p r.grid.id r.hood.idx)) &&
      vs.all fun v => decide (v.1.prio < r.grid.prio) then
    some (vs.foldl (Plan.add s die budget (r.grid.id, r.hood.idx)) ⟨ps, Frac.ofNat 0, Frac.ofNat 0, s⟩)
  else none

/-- The plan picked: fitting ones by cost, else by time, the first of equals (R331). -/
def pickPlan (budget : Int) (l : List Plan) : Option Plan :=
  let least := fun (lt : Plan → Plan → Bool) (l : List Plan) => l.foldl (fun best x => match best with
    | none => some x
    | some b => if lt x b then some x else some b) (none : Option Plan)
  match l.filter fun x => x.time.fits budget with
  | [] => least (fun x y => x.time.lt y.time) l
  | fits => least (fun x y => x.cost.lt y.cost) fits

/-- The estimator has reserved a rectangle for the neighbourhood (R331, R332). -/
def rectReserved (s : State) (die : Nat) (r : Ready) : Bool :=
  (dieOf s die).resvFor.any fun x => x.isFor r.grid.id r.hood.idx && x.whole

/-- Reserve positions for a neighbourhood in place of those it had. -/
def reserveCores (s : State) (die : Nat) (r : Ready) (whole : Bool) (ps : List Nat) : State :=
  modDie (unreserve s die r.grid.id r.hood.idx) die fun d =>
    { d with resvFor := d.resvFor ++ [⟨r.grid.id, r.hood.idx, whole, ps⟩] }

/-- The estimator for a skipped neighbourhood with a latency bound (R329, R331). -/
def estimate (s : State) (die : Nat) (r : Ready) : State :=
  let lat := lrecBits r.grid.lrec 479 448
  if lat = 0 || rectReserved s die r then s
  else
    let home := (dieOf s r.grid.die).cycles
    let budget : Int := (lat * 2100 : Nat) - ((home - r.grid.start : Nat) : Int)
    match pickPlan budget ((allRects r.grid.kind r.grid.cols r.grid.rows).filterMap (planFor s die r budget)) with
    | none => s
    | some p => reserveCores p.after die r true p.cores

/-! ### Starvation (R328) -/

/-- The cores of a rectangle that admit the member of an entry which would run there (R173, R263). -/
def freeCores (s : State) (die : Nat) (r : Ready) (ps : List Nat) : List Nat :=
  ((ps.mapIdx fun rank p => (rank, p)).filter fun x => admits s die x.2 r.grid (r.warps x.1)).map (·.2)

/-- The rectangle nearest to free: most cores that admit their member of the entry, the first of equals (log 34). -/
def nearestRect (s : State) (die : Nat) (r : Ready) : Option (List Nat) :=
  let g := r.grid
  let ok := (allRects g.kind g.cols g.rows).filter fun ps =>
    ps.all fun p => coreOpen s die p g.kind && !(reservedFor s die p g.id r.hood.idx)
  let busy := fun (ps : List Nat) => ps.length - (freeCores s die r ps).length
  ok.foldl (fun best ps => match best with
    | none => some ps
    | some b => if busy ps < busy b then some ps else some b) none

/-- A starving neighbourhood reserves the cores of its rectangle that are free (R328), unless the estimator has reserved
one for it (R332). -/
def reserveStarving (s : State) (die : Nat) (r : Ready) : State :=
  if r.hood.starving.contains die && !(rectReserved s die r) then
    match nearestRect s die r with
    | none => s
    | some ps => reserveCores s die r false (freeCores s die r ps)
  else s

/-- The starving neighbourhoods of a list reserve in its order, each anew (R328): an earlier one before a later one. -/
def starvingReserve (s : State) (die : Nat) (list : List Ready) : State :=
  list.foldl (fun st r => reserveStarving st die r)
    (modDie s die fun d => { d with resvFor := d.resvFor.filter (·.whole) })

/-- A reservation still serves its neighbourhood: it waits, and no core of the reservation has failed or changes its kind
(R161, R346). -/
def Resv.stands (s : State) (die : Nat) (x : Resv) : Bool :=
  match gridAt s x.grid with
  | some g => (g.hoods.any fun h => h.idx = x.hood && match h.st with
      | .ready => true
      | .saved _ => true
      | _ => false) &&
      x.cores.all fun p => (coreAt s die p).kind = g.kind && !(clusterChanging s die (clusterOf p))
  | none => false

/-- Reservations that serve no more are gone. -/
def pruneReservations (s : State) (die : Nat) : State :=
  modDie s die fun d => { d with resvFor := d.resvFor.filter (Resv.stands s die) }

/-! ### A placement round (R327) -/

/-- What a round has met: grids of which a new neighbourhood was skipped, or that were settled as a whole. -/
structure Round where
  st : State
  blocked : List Nat

/-- One entry of the list. -/
def placeOne (die : Nat) (list : List Ready) (acc : Round) (r : Ready) : Round :=
  let s := acc.st
  let missed := fun (st : State) =>
    ⟨estimate (skip st die r) die r, if r.ctx.isNone then r.grid.id :: acc.blocked else acc.blocked⟩
  if r.grid.coop then
    (if acc.blocked.contains r.grid.id then acc
     else
       let mine := list.filter fun x => x.grid.id = r.grid.id
       match if coopReady s die r.grid then placeAll s die mine else none with
       | some s' => ⟨s', r.grid.id :: acc.blocked⟩
       | none => ⟨mine.foldl (fun st x => estimate st die x) (mine.foldl (fun st x => skip st die x) s),
           r.grid.id :: acc.blocked⟩)
  else if r.ctx.isNone && acc.blocked.contains r.grid.id then missed s
  else
    match placeReady s die r with
    | some s' => ⟨s', acc.blocked⟩
    | none => missed s

/-- PLACEMENT_ROUND (R327). -/
def execPlacementRound (die : Nat) (s : State) : Host.Outcome State Fault Refusal :=
  let s := pruneReservations s die
  let list := readyList s die
  let s := starvingReserve s die list
  .next (list.foldl (placeOne die list) ⟨s, []⟩).st

/-- NEIGHBOURHOOD_STARVING (R328): 21,000,000 core cycles after the die's dispatcher first skipped it. -/
def execNeighbourhoodStarving (die grid hood : Nat) (s : State) : Host.Outcome State Fault Refusal :=
  match (readyList s die).find? fun r => r.grid.id = grid && r.hood.idx = hood with
  | none => .next s
  | some r =>
    match r.hood.skipSince.lookup die with
    | some t =>
      if decide (t + 21000000 ≤ (dieOf s die).cycles) && !(r.hood.starving.contains die) then
        let s := modHood s grid hood fun h => { h with starving := die :: h.starving }
        .next (starvingReserve s die (readyList s die))
      else .next s
    | none => .next s

/-! ### BLOCK_FLUSH (R250, R332) -/

/-- BLOCK_FLUSH (R250): issue stops in every warp, then the bits are read; a bit at 0 makes it a save from the same
stop, due when a save of this commitment would be (R331, R332). -/
def execBlockFlush (grid hood : Nat) (s : State) : Host.Outcome State Fault Refusal :=
  match gridAt s grid, (gridAt s grid).bind fun g => g.hoods.find? fun h => h.idx = hood with
  | some g, some h =>
    if h.st ≠ .flushing || !(windowQuiet s g h) then .next s
    else if flushLegal s g h then
      let s := h.placed.foldl (fun st b => flushBlock st grid b) s
      .next (modHood s grid hood fun h => { h with
        st := .ready, resumed := false, freeFor := none, skipSince := [], starving := [],
        blocks := h.blocks.map fun b => if b.st = .waiting then { b with r := 0, iss := [] } else b })
    else
      let bw := max 1 s.heapbw.toNat
      let due := Frac.add ⟨h.due.1, h.due.2⟩ ⟨saveVolume s g h, bw⟩
      .next (beginSave (modHood s grid hood fun h => { h with due := (due.num, due.den) }) g h (rawVolume s g h))
  | _, _ => .next s

/-! ### World switch (R384) -/

/-- The function that comes in next: the next one, in cyclic order, with a running queue (log 33). -/
def nextVf (s : State) : Nat :=
  let runs := fun v => (List.range 4).any fun d => (dieOf s d).qdescWritten && (List.range 4096).any fun q =>
    let x := readN s .phys (baseAddr (dieOf s d).qdescBase + 64 * q) 64
    bits x 239 238 = 1 && bits x 231 228 = v
  let cur := s.activeVf % 16
  let first := if s.activeVf = 16 then 0 else 1
  (((List.range 16).map fun k => (cur + first + k) % 16).find? runs).getD s.activeVf

/-- WORLD_SWITCH (R384): at the end of a slice, the outgoing function's neighbourhoods are freed as R331 chooses
under the grace. Each function keeps its own counters. -/
def execWorldSwitch (s : State) : Host.Outcome State Fault Refusal :=
  let slice := bits s.vfslice.toNat 16 0
  let grace := min (bits s.vfslice.toNat 31 17) slice
  if s.ns < s.sliceNs + slice * 1000 then .next s
  else
    let out := s.activeVf
    let next := nextVf s
    let s := { s with sliceNs := s.ns, activeVf := next }
    if next = out then .next s
    else
      let vs := s.grids.flatMap fun g => if g.vf = next then [] else (g.hoods.filter fun h => h.st = .placed).map fun h => (g, h)
      .next (vs.foldl (fun st v =>
        let die := (v.2.placed.head?.map (·.die)).getD v.1.die
        commit st die v.1 v.2 (chooseFor st v.1 v.2 ((grace * 2100 : Nat) : Int)) none) s)

end Sys2Proof.Machine
end

