-- ==== Sys2Proof/Machine/Coppice.lean ====
section
/-! DEFINITION. The coppice rotation, confirmation and shadows, suspect reports, poison, and the partial-completion
record (R342 to R349, R390). -/

namespace Sys2Proof.Machine

/-! ### The rotation (R342, R343) -/

/-- The kind of a cluster that is in force (R160, R161). -/
def clusterKind (s : State) (die cl : Nat) : Nat :=
  let d := dieOf s die
  bits (if bit d.clkind.toNat 31 then d.kindsNow.toNat else d.clkind.toNat) (2 * cl + 1) (2 * cl)

/-- The enabled cores of a cluster's lattice, by cluster-local position (R260, R342). -/
def rotation (s : State) (die cl : Nat) : List Nat :=
  (List.range 24).filter fun k => (coreAt s die (posOfLocal cl k)).kind = clusterKind s die cl

/-- A neighbourhood may be saved: it runs, or it drains because an earlier save of it could not be made (R342). -/
def Hood.savable (h : Hood) : Bool := h.st = .placed || (h.st = .draining && h.freeFor = none)

/-- Coppice asks for the saves of a core's neighbourhoods, a cooperative grid's all together (R323); one that cannot be
made leaves its work running (R342). -/
def coppiceSaves (s : State) (die pos : Nat) : State :=
  let vs := (residentHoods s die [pos]).filter fun v => v.2.savable
  vs.foldl (fun st v =>
    let hs := (if v.1.coop then ((gridAt st v.1.id).map (·.hoods)).getD [] else [v.2]).filter Hood.savable
    let t := hs.foldl (fun t h => beginSave t v.1 h (rawVolume t v.1 h)) st
    if hs.all fun h => (contextOf t v.1.id h.idx).isSome then
      hs.foldl (fun t h => modHood t v.1.id h.idx fun h => { h with coppice := true }) t
    else st) s

/-- Add to COPSTAT.late, which saturates (R343, R391). -/
def countLate (s : State) (die : Nat) : State :=
  modDie s die fun d => { d with copLate := if d.copLate = 0xFFFF#16 then d.copLate else d.copLate + 1 }

/-- The core holds no user work (R251, R342). -/
def coreFree (s : State) (die pos : Nat) : Bool :=
  let c := coreAt s die pos
  residents s die pos = [] && c.warps = [] && c.beds = [] && c.restore = []

/-- A core whose turn has begun and which is not free (R343). -/
def turnHeld (s : State) (die pos : Nat) : Bool :=
  let c := coreAt s die pos
  c.closed && c.scanning.isNone && !(coreFree s die pos)

/-- COPPICE_SLOT (R342, R343): a slot of 1 ms begins. A turn whose core is not free repeats, late, with its saves tried
again. Else the next enabled core is closed to placement, and after the last one comes a slot in which the cluster's spare
halves are scanned; a turn whose core is free goes on beside it (log 57). -/
def execCoppiceSlot (die cl : Nat) (s : State) : Host.Outcome State Fault Refusal :=
  let c := clusterAt s die cl
  if s.ns / 1000000 ≤ c.slotNs / 1000000 then .next s
  else
    let s := modCluster s die cl fun c => { c with slotNs := s.ns, spare := false }
    match (rotation s die cl).find? fun k => turnHeld s die (posOfLocal cl k) with
    | some k =>
      .next (coppiceSaves (countLate (modCluster s die cl fun c => { c with deferred := true }) die) die (posOfLocal cl k))
    | none =>
      match (rotation s die cl).find? fun k => decide (c.turn ≤ k) with
      | none => .next (modCluster s die cl fun c => { c with turn := 0, deferred := false, spare := true })
      | some k =>
        let s := modCluster s die cl fun c => { c with turn := k + 1, deferred := false }
        let s := modCore s die (posOfLocal cl k) fun c => { c with closed := true }
        .next (coppiceSaves s die (posOfLocal cl k))

/-- COPPICE_SCAN_START (R342 steps 3 and 4): the closed core is free and enters service mode, one core of its cluster at a
time (R251, log 57). -/
def execCoppiceScanStart (die pos : Nat) (s : State) : Host.Outcome State Fault Refusal :=
  let c := coreAt s die pos
  let busy := (rotation s die (clusterOf pos)).any fun k => (coreAt s die (posOfLocal (clusterOf pos) k)).scanning.isSome
  if c.closed && !c.service && c.kind ≠ 3 && coreFree s die pos && !busy then
    .next (modCore s die pos fun c =>
      { c with service := true, scanning := some (dieOf s die).cycles, passBegan := some s.ns })
  else .next s

/-! ### Confirmation (R344) -/

/-- A pass of a core confirms, as far as that core goes, the work of the blocks that had left it (R344). -/
def confirmRuns (s : State) (die pos : Nat) (runs : List Run) : State :=
  runs.foldl (fun st r => modBlock st r.grid r.blk fun b =>
    { b with unconfirmed := b.unconfirmed.filter (· ≠ (die, pos)) }) s

/-- The block's work is confirmed (R344, R346). -/
def Block.confirmed (b : Block) : Bool := b.ran && b.st ≠ .placed && b.unconfirmed = [] && !b.suspect

/-- The work of a block of a grid is confirmed; a grid that is forgotten was. -/
def workConfirmed (s : State) (g b : Nat) : Bool :=
  match (gridAt s g).bind fun x => x.block b with
  | some x => x.confirmed
  | none => true

/-! ### Failures (R346) -/

/-- The blocks that ran on a core since its last pass, each once: a block that came back, from when it first came until
it last left (R346, log 80). -/
def ranSince (l : List Run) : List Run :=
  l.foldl (fun acc r => if acc.any fun x => x.grid = r.grid && x.blk = r.blk then
      acc.map fun x => if x.grid = r.grid ∧ x.blk = r.blk then { x with left := r.left } else x
    else acc ++ [r]) []

/-- The header entry of a suspect report (R346 Table 2), with the number of its block entries. -/
def suspectHeader (s : State) (die pos half since n : Nat) : Nat :=
  1 + half % 2 * 2 ^ 12 + half / 2 * 2 ^ 13 + die * 2 ^ 22 + pos * 2 ^ 24 + n * 2 ^ 96 +
    since % 2 ^ 64 * 2 ^ 128 + s.ns * 2 ^ 192

/-- A block entry of a suspect report. -/
def suspectBlock (s : State) (r : Run) : Nat :=
  2 + r.asid * 2 ^ 32 + r.lrec / 2 ^ 32 * 2 ^ 44 + r.lrec % 2 ^ 32 * 2 ^ 64 + r.blk * 2 ^ 96 + r.start * 2 ^ 128 +
    r.left.getD s.ns * 2 ^ 192

/-- A held value of the watch depends on named work (R345). -/
def Watch.dependsOn (w : Watch) (named : Nat × Nat → Bool) : Bool := w.held.any fun h => h.needs.any named

/-- Watches whose held values depend on named work set suspect (R345). -/
def markSuspect (s : State) (runs : List Run) : State :=
  let named := fun (x : Nat × Nat) => runs.any fun r => r.grid = x.1 && r.blk = x.2
  let s := runs.foldl (fun st r => modBlock st r.grid r.blk fun b => { b with suspect := true }) s
  let mark := fun (w : Nat × Watch) => if w.2.dependsOn named then
    (w.1, { w.2 with reg := w.2.reg ||| 0x40000000000000000000000000000000#128 }) else w
  { s with dies := s.dies.map fun d => { d with watches := d.watches.map mark } }

/-- Halves that fail are marked and counted, the topology record and the measurement change (R346, R380), and a report
for each of them, with the blocks of `runs`, waits for the suspect ring. A core without a pass has no time of the last one:
that field is free (log 13). -/
def halvesFail (s : State) (die pos : Nat) (bad : List Nat) (pass : Option Nat) (runs : List Run) : State :=
  let s := modDie s die fun d => { d with
    repair := bad.foldl (fun r h => r ||| BitVec.ofNat 512 (2 ^ h)) d.repair,
    copFails := BitVec.ofNat 8 (min 255 (d.copFails.toNat + bad.length)) }
  let s := measure (updateTopo s die)
  let s := markSuspect s runs
  let since := pass.getD (Config.freeWord s.fresh).toNat
  let s := if pass.isSome then s else { s with fresh := s.fresh + 1 }
  bad.foldl (fun st h =>
    let st := ringWait st die .suspect (toBytes 32 (suspectHeader s die pos h since runs.length))
    runs.foldl (fun st r => ringWait st die .suspect (toBytes 32 (suspectBlock s r))) st) s

/-- The halves of a core fail: its position is disabled (R346). -/
def coreFails (s : State) (die pos : Nat) (bad : List Nat) : State :=
  let c := coreAt s die pos
  let s := modCore s die pos fun c =>
    { c with entry := bindEntry pos 3 [], service := false, scanning := none, closed := false, runs := [] }
  halvesFail s die pos bad c.lastPass (ranSince c.runs)

/-- Spare halves fail: no position held them, so the report's position and the time of the last pass are free (log 13). -/
def sparesFail (s : State) (die : Nat) (bad : List Nat) : State :=
  halvesFail { s with fresh := s.fresh + 1 } die ((Config.freeWord s.fresh).toNat % 256) bad none []

/-- The good halves of a cluster's sites that no front end has bound (R342). -/
def spareHalves (s : State) (die cl : Nat) : List Nat :=
  let held := (List.range Config.positions).flatMap fun p => (coreAt s die p).held
  (List.range 312).filter fun h =>
    let row := min 11 (h / 24)
    decide (clusterOf (12 * row + h / 2 % 12) = cl) && !(held.contains h) && !(bit (dieOf s die).repair.toNat h)

/-- COPPICE_SCAN_DONE (R342, R344, R346): after 210,000 core cycles, with the halves whose scan failed. A position of
144 plus a cluster names the scan of that cluster's spare halves by the base-layer controller, in the extra slot. -/
def execCoppiceScanDone (die pos : Nat) (bad : List Nat) (s : State) : Host.Outcome State Fault Refusal :=
  let c := coreAt s die pos
  if Config.positions ≤ pos then
    let cl := pos - Config.positions
    if !(clusterAt s die cl).spare then .next s
    else
      let bad := (distinct bad).filter (spareHalves s die cl).contains
      let s := modCluster s die cl fun c => { c with spare := false }
      .next (if bad = [] then s else sparesFail s die bad)
  else match c.scanning with
    | none => .next s
    | some t =>
      if (dieOf s die).cycles < t + 210000 then .next s
      else
        let bad := (distinct bad).filter c.held.contains
        if bad ≠ [] then .next (coreFails s die pos bad)
        else
          let s := confirmRuns s die pos (c.runs.filter fun r => r.left.isSome)
          .next (modCore s die pos fun c =>
            { c with service := false, scanning := none, closed := false, lastPass := some s.ns,
                     runs := c.runs.filter fun r => r.left.isNone })

/-- SUSPECT_REPORT (R346, R390): the report goes out unit by unit as room appears. -/
def execSuspectReport (die : Nat) (s : State) : Host.Outcome State Fault Refusal := .next (ringFlush s die .suspect)

/-! ### Confirmed shadows (R345) -/

/-- The held value that may be copied now, with the rest: one that is copied at once, else the oldest when its work is
confirmed. -/
def nextHeld (s : State) (w : Watch) : Option (Held × List Held) :=
  match w.held.findIdx? (·.at_once) with
  | some i => (w.held[i]?).map fun h => (h, w.held.eraseIdx i)
  | none =>
    match w.held with
    | [] => none
    | h :: t => if h.needs.all fun x => workConfirmed s x.1 x.2 then some (h, t) else none

/-- CONFIRMED_SHADOW_COPY (R345). -/
def execConfirmedShadowCopy (die i : Nat) (s : State) : Host.Outcome State Fault Refusal :=
  match (dieOf s die).watches.lookup i with
  | none => .next s
  | some w =>
    let r := w.reg.toNat
    match nextHeld s w with
    | none => .next s
    | some (h, rest) =>
      if !(bit r 127) || bit r 126 then .next s
      else
        let put := fun (st : State) (w : Watch) => modDie st die fun d => { d with watches := assign d.watches i w }
        let bad := put s ⟨w.reg ||| 0x20000000000000000000000000000000#128, rest⟩
        if bits r 115 64 % 8 ≠ 0 then .next bad
        else match translate s (bits r 63 52) (bits r 115 64) true false (some false) with
          | .ok t => .next (writeSignal (put s { w with held := rest }) t.pa t.kd t.mir h.value false 0 0 h.at_once h.needs)
          | .error d =>
            if d.cls = 7 then .next (startMove s die (bits r 63 52) (bits r 115 64 / 65536) d.code)
            else .next (noteDenial bad die d)

/-! ### Poison (R347, R375) -/

/-- UNCORRECTABLE_ERROR (R347, R374, R375): a memory returns an uncorrectable error to an access, and the sector is
poisoned. `what` is the address below, and above it what R375 numbers: which access met it (src), whether its metadata fetch
failed, and the ASID of the access. HBM posts a memory error record; where the read of a partial write finds it, or the
fetch of a unit's metadata fails, the whole unit is poisoned and the write is not stored. -/
def execUncorrectableError (sp : Space) (what : Nat) (s : State) : Host.Outcome State Fault Refusal :=
  let addr := bits what 51 0
  let src := bits what 55 52
  let metadata := bit what 56
  if !(sp = .phys && inHbm addr) then .next (addPoison s sp (addr / 32))
  else
    let u := addr / 64
    let rmw := src = 1 || src = 2
    let s := if rmw || metadata then poisonUnit s u else addPoison s .phys (addr / 32)
    let s := if rmw then { s with rmwBad := u :: s.rmwBad } else s
    .next (memErrorRecord s (dieOfPa addr) (bits what 68 57) addr src (if metadata then 3 else 1))

/-! ### The partial-completion record (R348, R390) -/

/-- A block's state code (R348 Table 4). -/
def Block.code (b : Block) : Nat :=
  match b.st with
  | .waiting => if b.ran then 3 else 0
  | .placed => 3
  | .saved => 1
  | .retired => 2
  | .killed => 3

/-- A block entry. -/
def Block.entry (b : Block) : Nat :=
  b.code + (if b.confirmed then 4 else 0) + (if b.suspect then 8 else 0) + b.frontier * 2 ^ 8

/-- The header (R348 Table 3). -/
def pcrHeader (g : Grid) (cause : Nat) (seq : Word) (trunc : Bool) : Nat :=
  g.lrecVa + g.asid * 2 ^ 52 + g.blockCount * 2 ^ 64 + cause * 2 ^ 96 + g.die * 2 ^ 104 +
    (if trunc then 2 ^ 112 else 0) + seq.toNat * 2 ^ 128

/-- The whole record, padded to units of 64 bytes. -/
def pcrBytes (g : Grid) (cause : Nat) (seq : Word) : List Byte :=
  let l := toBytes 64 (pcrHeader g cause seq false) ++ (g.hoods.flatMap (·.blocks)).flatMap fun b => toBytes 8 b.entry
  l ++ List.replicate ((64 - l.length % 64) % 64) 0

/-- Every access that a grid's frontiers count is performed or discarded (R349). -/
def countedDone (s : State) (g : Nat) : Bool :=
  !(s.ops.any fun o => o.grid = g && match o.kind with
    | .signal .. => true
    | _ => o.pending.any fun a => match a.kind with
      | .load .. => false
      | _ => true)

/-- PARTIAL_COMPLETION_RECORD (R348, R349, R390): the oldest owed record: whole, its header alone, or not yet. -/
def execPartialCompletionRecord (die : Nat) (s : State) : Host.Outcome State Fault Refusal :=
  let d := dieOf s die
  match d.pcrs.find? fun r => !r.written with
  | none => .next s
  | some r =>
    match gridAt s r.grid with
    | none => .next s
    | some g =>
      let whole := pcrBytes g r.cause d.partialSeq
      let bytes := if ringRoom d.partialR .partialR (whole.length / 64) then whole
        else toBytes 64 (pcrHeader g r.cause d.partialSeq true)
      if !(ringRoom d.partialR .partialR 1) || !(countedDone s r.grid) then .next s
      else
        let s := ringWrite s die .partialR bytes
        .next (modDie s die fun d => { d with
          partialSeq := d.partialSeq + 1,
          pcrs := updWhere (fun x => x.grid = r.grid) (fun x => { x with written := true }) d.pcrs })

end Sys2Proof.Machine
end

