-- ==== Sys2Proof/Machine/Fabric.lean ====
section
/-! DEFINITION. The fabric: flits, one-sided operations, collective steps and mirroring (R394 to R409). -/

namespace Sys2Proof.Machine

/-! ### Flits (R394, R395) -/

/-- One bit of CRC-32 (reflected polynomial 0xEDB88320; log 40). -/
def crcBit (c : Nat) : Nat := if c % 2 = 1 then Nat.xor (c / 2) 0xEDB88320 else c / 2

/-- One byte of CRC-32. -/
def crcByte (c : Nat) (b : Byte) : Nat := (List.range 8).foldl (fun c _ => crcBit c) (Nat.xor c b.toNat)

/-- CRC-32 of some bytes. -/
def crc32 (bs : List Byte) : Nat := Nat.xor (bs.foldl crcByte 0xFFFFFFFF) 0xFFFFFFFF

/-- The crc of a flit: header bits [223:0] and the valid payload sectors (R394). -/
def flitCrc (hdr : Nat) (pay : List (BitVec 8 × BitVec 256)) : Nat :=
  crc32 (toBytes 28 (hdr % 2 ^ 224) ++ pay.flatMap fun x => toBytes 32 x.2.toNat)

/-- The header of an outgoing flit (R394 Table 1). -/
def flitHeader (rasid addr smask arg seq dst src kind : Nat) (pay : List (BitVec 8 × BitVec 256)) : BitVec 256 :=
  let h := rasid * 2 ^ 212 + addr % 2 ^ 52 * 2 ^ 160 + smask * 2 ^ 152 + arg * 2 ^ 128 + seq * 2 ^ 96 + dst * 2 ^ 84 +
    src * 2 ^ 72 + kind * 2 ^ 68
  BitVec.ofNat 256 (h + flitCrc h pay * 2 ^ 224)

def portOf (s : State) (p : Nat) : Port := s.ports.getD p ⟨false, 0, []⟩

/-- Send a flit over a port; the port's sequence number advances and event 7 counts (R385, R394). -/
def sendFlit (s : State) (port rasid addr smask arg dst kind : Nat) (pay : List (BitVec 8 × BitVec 256)) : State :=
  let h := flitHeader rasid addr smask arg (portOf s port).seq.toNat dst s.fabnode.toNat kind pay
  countEvent { s with out := s.out ++ [.flit port h pay],
                      ports := updAt port (fun p => { p with seq := p.seq + 1 }) s.ports } 16 7 1

/-- The port can carry traffic (R395). -/
def portUsable (s : State) (port : Nat) : Bool := decide (port < s.ports.length) && (portOf s port).up

def hdrAsid (h : Nat) : Nat := bits h 223 212
def hdrAddr (h : Nat) : Nat := bits h 211 160
def hdrMask (h : Nat) : Nat := bits h 158 152
def hdrArg (h : Nat) : Nat := bits h 151 128
def hdrSrc (h : Nat) : Nat := bits h 83 72
def hdrKind (h : Nat) : Nat := bits h 71 68

/-- A flit of a kind arrives whole, for this node, for the first time (R395). -/
def flitArrives (s : State) (port : Nat) (hdr : BitVec 256) (pay : List (BitVec 8 × BitVec 256)) (kind : Nat) : Bool :=
  let h := hdr.toNat
  portUsable s port && hdrKind h = kind && bits h 95 84 = bits s.fabnode.toNat 11 0 &&
    bits h 255 224 = flitCrc h pay && !((portOf s port).accepted.contains (bits h 127 96))

/-- The flit's sequence number is accepted: a duplicate has no effect (R395). -/
def acceptFlit (s : State) (port : Nat) (hdr : BitVec 256) : State :=
  { s with ports := updAt port (fun p => { p with accepted := bits hdr.toNat 127 96 :: p.accepted }) s.ports }

/-- The sectors of a flit: their target addresses with the payload, if the kind has any. -/
def flitSectors (hdr : BitVec 256) (pay : List (BitVec 8 × BitVec 256)) : List (Nat × BitVec 8 × BitVec 256) :=
  let idx := (List.range 7).filter fun i => bit (hdrMask hdr.toNat) i
  idx.mapIdx fun j i => let x := pay.getD j (0xFF#8, 0); (hdrAddr hdr.toNat + 32 * i, x.1, x.2)

/-- The bytes of a payload sector whose words are valid. -/
def flitBytes (words : BitVec 8) (d : BitVec 256) : List (Option Byte) :=
  (toBytes 32 d.toNat).mapIdx fun i b => if words.getLsbD (i / 4) then some b else none

/-- A free value for a field that the spec leaves open, below a bound (log 13). -/
def freeField (s : State) (bound : Nat) : Nat × State :=
  ((Config.freeWord s.fresh).toNat % bound, { s with fresh := s.fresh + 1 })

/-- The acknowledgement of a flit for the sectors of a mask; how it carries an error is not in the spec, so its arg
is free. -/
def acknowledge (s : State) (port : Nat) (hdr : BitVec 256) (mask : Nat) : State :=
  let h := hdr.toNat
  let (arg, s) := freeField s (2 ^ 24)
  sendFlit s port (hdrAsid h) (hdrAddr h) mask arg (hdrSrc h) 4 []

/-! ### The target's side (R397, R400, R404) -/

/-- The target serves the request of a node (R397). -/
def servesNode (s : State) (hdr : BitVec 256) : Bool :=
  s.peermap.contains (hdrSrc hdr.toNat) && bit (asidEntry s (hdrAsid hdr.toNat)) 392

/-- The translation of each sector at the target, device domain only (R397). -/
def targetSectors (s : State) (hdr : BitVec 256) (pay : List (BitVec 8 × BitVec 256)) (write : Bool) :
    List (Nat × BitVec 8 × BitVec 256 × Except Denial Tr) :=
  (flitSectors hdr pay).map fun x =>
    (x.1, x.2.1, x.2.2, translate s (hdrAsid hdr.toNat) x.1 write false (some false))

/-- The sectors that meet a class 7 condition start their resolutions, and the flit waits (R397). -/
def targetWaits (s : State) (hdr : BitVec 256) (l : List (Nat × BitVec 8 × BitVec 256 × Except Denial Tr)) :
    Option State :=
  let w := l.filterMap fun x => match x.2.2.2 with
    | .error d => if d.cls = 7 then some (x.1, d) else none
    | .ok _ => none
  if w = [] then none
  else some (w.foldl (fun st x => startMove st 0 (hdrAsid hdr.toNat) (x.1 / 65536) x.2.code) s)

/-- What the walks of the sectors met counts (R358, R377). -/
def targetBad (s : State) (l : List (Nat × BitVec 8 × BitVec 256 × Except Denial Tr)) : State :=
  l.foldl (fun st x => match x.2.2.2 with
    | .error d => noteDenial st 0 d
    | .ok _ => st) s

/-- NGUROTH_PUT_FLIT (R397, R400): the sectors are written at their homes and the flit is acknowledged. -/
def execNgurothPutFlit (port : Nat) (hdr : BitVec 256) (pay : List (BitVec 8 × BitVec 256)) (s : State) :
    Host.Outcome State Fault Refusal :=
  if !(flitArrives s port hdr pay 1) then .next s
  else
    let secs := targetSectors s hdr pay true
    if !(servesNode s hdr) then .next (acknowledge (acceptFlit s port hdr) port hdr (hdrMask hdr.toNat))
    else match targetWaits s hdr secs with
    | some s' => .next s'
    | none =>
      let s := secs.foldl (fun st x => match x.2.2.2 with
        | .ok t => performWrite st .phys t.pa t.kd (flitBytes x.2.1 x.2.2.1) t.mir 0 0 []
        | .error _ => st) (targetBad s secs)
      .next (acknowledge (acceptFlit s port hdr) port hdr (hdrMask hdr.toNat))

/-- The read of a sector at the target: its data, or code 47 with its record (R375, R402). -/
def targetRead (s : State) (asid : Nat) (t : Tr) : Option (List Byte) × State :=
  match readError s .phys t.pa 32 t.kd asid with
  | some (code, s') => (none, if code = 1 then memErrorRecord s' (dieOfPa t.pa) asid t.pa 0 1 else s')
  | none => (some (agentBytes s .phys t.pa 32 t.kd), noteRead s .phys t.pa 32)

/-- Answer one sector of a get: with its data, or without where it ends in error (log 44). -/
def answerGet (s : State) (port : Nat) (hdr : BitVec 256) (a : Nat) (data : Option (List Byte)) : State :=
  let h := hdr.toNat
  let (arg, s) := freeField s (2 ^ 24)
  match data with
  | some d => sendFlit s port (hdrAsid h) a 1 arg (hdrSrc h) 3 [(0xFF#8, BitVec.ofNat 256 (ofBytes d))]
  | none => sendFlit s port (hdrAsid h) a 0 arg (hdrSrc h) 3 []

/-- GET_REQUEST (R397, R400, R402): each sector is read at its home and its data returned; a refused or failed
sector is answered without data. -/
def execGetRequest (port : Nat) (hdr : BitVec 256) (pay : List (BitVec 8 × BitVec 256)) (s : State) :
    Host.Outcome State Fault Refusal :=
  if !(flitArrives s port hdr pay 2) then .next s
  else
    let secs := targetSectors s hdr [] false
    if !(servesNode s hdr) then
      .next (secs.foldl (fun st x => answerGet st port hdr x.1 none) (acceptFlit s port hdr))
    else match targetWaits s hdr secs with
    | some s' => .next s'
    | none =>
      .next (secs.foldl (fun st x => match x.2.2.2 with
        | .ok t => let (d, st) := targetRead st (hdrAsid hdr.toNat) t
                   answerGet st port hdr x.1 d
        | .error _ => answerGet st port hdr x.1 none) (acceptFlit (targetBad s secs) port hdr))

/-- Max-magnitude of two BF16 elements (R404). -/
def maxMag (a b : Nat) : Nat :=
  if (bf16.decode a).isNan || (bf16.decode b).isNan then 0x7FC0 else max (a % 2 ^ 15) (b % 2 ^ 15)

/-- The marker of `nsum` (R405). -/
def nsumMarker : Nat := 0x80000000

/-- The new value of a target word (R404 Table 5): `step` 0 `ncoll`, 1 `nscmax`, 2 `nsum`. -/
def combineWord (step op old x : Nat) : Nat :=
  match step with
  | 1 => maxMag (bits old 15 0) (bits x 15 0) + maxMag (bits old 31 16) (bits x 31 16) * 2 ^ 16
  | 2 => if old = nsumMarker || x = nsumMarker then nsumMarker else (old + x) % 2 ^ 32
  | _ => match op with
    | 0 => (old + x) % 2 ^ 32
    | 1 => if sintN 32 old ≤ sintN 32 x then x else old
    | 2 => atomNew 11 4 old x 0
    | 3 => (minmaxF fp32 true old x).1
    | _ => atomNew 12 4 old x 0

/-- Combine the valid words of a sector at their home. -/
def combineSector (s : State) (arg : Nat) (t : Tr) (words : BitVec 8) (d : BitVec 256) : State :=
  let old := agentBytes s .phys t.pa 32 t.kd
  let new := (List.range 8).flatMap fun i =>
    toBytes 4 (combineWord (bits arg 9 8) (bits arg 3 0) (ofBytes ((old.drop (4 * i)).take 4)) (bits d.toNat (32 * i + 31) (32 * i)))
  performWrite (noteRead s .phys t.pa 32) .phys t.pa t.kd
    (new.mapIdx fun i b => if words.getLsbD (i / 4) then some b else none) t.mir 0 0 []

/-- COMBINE (R397, R402, R404): each word is one read-modify-write at its home. -/
def execCombine (port : Nat) (hdr : BitVec 256) (pay : List (BitVec 8 × BitVec 256)) (s : State) :
    Host.Outcome State Fault Refusal :=
  if !(flitArrives s port hdr pay 5) then .next s
  else
    let secs := targetSectors s hdr pay true
    if !(servesNode s hdr) then .next (acknowledge (acceptFlit s port hdr) port hdr (hdrMask hdr.toNat))
    else match targetWaits s hdr secs with
    | some s' => .next s'
    | none =>
      let h := hdr.toNat
      let s := secs.foldl (fun st x => match x.2.2.2 with
        | .ok t =>
          match targetRead st (hdrAsid h) t with
          | (some _, _) => combineSector st (hdrArg h) t x.2.1 x.2.2.1
          | (none, st) => st
        | .error _ => st) (targetBad s secs)
      .next (acknowledge (acceptFlit s port hdr) port hdr (hdrMask h))

/-- REMOTE_SIGNAL_FLIT (R314, R315, R400): the named signal falls by 1, and the command processors are notified. -/
def execRemoteSignalFlit (port : Nat) (hdr : BitVec 256) (s : State) : Host.Outcome State Fault Refusal :=
  let h := hdr.toNat
  if !(flitArrives s port hdr [] 6) then .next s
  else if !(servesNode s hdr) then .next (acceptFlit s port hdr)
  else match translate s (hdrAsid h) (hdrAddr h) true false (some false) with
    | .ok t =>
      .next (writeSignal (acceptFlit s port hdr) t.pa t.kd t.mir (BitVec.ofNat 64 (2 ^ 64 - 1)) true 0 0 false [])
    | .error d =>
      if d.cls = 7 then .next (startMove s 0 (hdrAsid h) (hdrAddr h / 65536) d.code)
      else .next (acceptFlit (noteDenial s 0 d) port hdr)

/-! ### Issue (R396, R398 to R400, R403) -/

def fabWindow (s : State) (w : Nat) : Nat := (lookupD s.fabwin w 0).toNat

/-- A window may be used by a grid (R399). -/
def windowOpen (s : State) (p : Path) (w : Nat) (write : Bool) : Bool :=
  let x := fabWindow s w
  bit x 127 && bits x 123 112 = p.grid.asid && (if write then bit x 126 else bit x 125)

/-- The bytes of a window. -/
def windowBytesOf (s : State) (w : Nat) : Nat := bits (fabWindow s w) 99 64 * 65536

/-- No remote signal: all ones (R398). -/
def noSignal : Nat := 2 ^ 64 - 1

/-- The local runs of a range that may cross pages. -/
def localRuns (asid va n : Nat) (load : Bool) : List Seg :=
  let m := min n (65536 - va % 65536)
  let one := fun (v k : Nat) => if load then (⟨some (.virt asid v), none, k⟩ : Seg) else ⟨none, some (.virt asid v), k⟩
  one va m :: (if m < n then [one (va + m) (n - m)] else [])

/-- The blocks whose words lie in the byte range `[lo, hi)` of an `nsum`'s target array. -/
def nsumBlocks (lo hi : Nat) : List Nat := rangeFrom (lo / 256) ((hi + 255) / 256)

/-- The units of a Nguroth operation (R400): the aligned 32-byte sectors of its remote range. -/
def Ngu.units (n : Ngu) (asid : Nat) : List Unit :=
  (sectorsOf n.remote n.n).mapIdx fun i k =>
    let lo := max n.remote (32 * k) - n.remote
    let hi := min (n.remote + n.n) (32 * k + 32) - n.remote
    { tag := i, recv := 0,
      segs := if n.kind = 5 then (nsumBlocks lo hi).flatMap fun b =>
          [⟨some (.virt asid (n.va + 32 * b)), none, 32⟩, ⟨some (.virt asid (n.scl + 2 * b)), none, 2⟩,
           ⟨some (.virt asid (n.agr + 2 * b)), none, 2⟩]
        else localRuns asid (n.va + lo) (hi - lo) (n.kind ≠ 2),
      secs := if n.kind = 2 then sectorsOf (n.va + lo) (hi - lo) else [k],
      page := none, seq := none, err := none }

/-- The operation forks at issue (R400). -/
def Path.startNgu (p : Path) (s t : State) (n : Ngu) (bar : Nat) : State :=
  let us := n.units p.grid.asid
  addOp t { p.newOp t (.ngu n us [] n.signal.isNone) p.act p.l0 with
    after := p.forkAfter s p.act, bar := some bar, secs := distinct (us.flatMap fun u => u.secs) }

/-- The checks of R399, in its order: the window, alignment and count, the local range, the remote range and the
signal, the barrier. `open_` is the window's check, `bad` the alignment's, `past` the local range's. -/
def nguFaults (s : State) (p : Path) (w : Nat) (open_ bad past : Bool) (write : Bool) (va off n sig bar : Nat) :
    List (Bool × Flt) :=
  let size := windowBytesOf s w
  [p.pathCheck (!open_) 9 44 5 false 0, p.pathCheck bad 5 1 0 write va, p.pathCheck past 5 2 0 write va,
   p.pathCheck (decide (size < off + n) || (sig ≠ noSignal && decide (size < sig + 8))) 9 44 5 false 0] ++
    p.tbFaults s bar true

/-- `nput` or `nget` (R398 to R400). -/
def oneSided (i : Instr) (kind : Nat) (a b : BitVec 7) (w : Nat) (s : State) : Host.Outcome State Fault Refusal :=
  perPath i s fun p t =>
    let va := (p.pair0 a.toNat).toNat
    let n := (p.reg0 (a.toNat + 2)).toNat
    let bar := (p.reg0 (a.toNat + 3)).toNat
    let off := (p.pair0 b.toNat).toNat
    let sig := (p.pair0 (b.toNat + 2)).toNat
    let x := fabWindow s w
    match firstFault (nguFaults s p w (windowOpen s p w (kind = 1))
        (va % 4 ≠ 0 || off % 4 ≠ 0 || n % 4 ≠ 0 || decide (n < 4) || decide (2 ^ 30 < n) ||
          (sig ≠ noSignal && sig % 8 ≠ 0)) (decide (2 ^ 52 < va + n)) (kind = 2) va off n sig bar) with
    | some f => .fault f
    | none =>
      let base := bits x 51 0
      .done (p.startNgu s t
        { kind := kind, op := 0, h := 0, va := va, scl := 0, agr := 0, n := n, remote := base + off,
          signal := if sig = noSignal then none else some (base + sig), node := bits x 111 100,
          rasid := bits x 63 52 } bar)

/-- `nput` (R398 to R401). -/
def execNput (a b : BitVec 7) (w : BitVec 6) (s : State) : Host.Outcome State Fault Refusal :=
  oneSided (.nput a b w) 1 a b w.toNat s

/-- `nget` (R398 to R401). -/
def execNget (a b : BitVec 7) (w : BitVec 6) (s : State) : Host.Outcome State Fault Refusal :=
  oneSided (.nget a b w) 2 a b w.toNat s

/-- A malformed collective descriptor (R403 Table 4, R404 Table 5). -/
def collBad (kind d : Nat) : Bool :=
  let count := bits d 287 256
  let op := bits d 291 288
  let h := bits d 295 292
  let agr := bits d 255 192
  let scl := bits d 191 128
  bits d 511 384 ≠ 0 || bits d 319 296 ≠ 0 || bits d 127 64 % 4 ≠ 0 || bits d 63 0 % (if kind = 5 then 32 else 4) ≠ 0 ||
  (if kind = 5 then decide (12 < h) || agr % 2 ≠ 0 || scl % 2 ≠ 0 else h ≠ 0 || agr ≠ 0 || scl ≠ 0) ||
  (if kind = 3 then decide (4 < op) else op ≠ 0) || count = 0 ||
  (match kind with
   | 3 => decide (2 ^ 28 < count)
   | 4 => count % 2 = 1 || decide (2 ^ 29 < count)
   | _ => decide (2 ^ 24 < count))

/-- A collective step (R403). -/
def collective (i : Instr) (kind : Nat) (a b : BitVec 7) (w : Nat) (s : State) : Host.Outcome State Fault Refusal :=
  perPath i s fun p t =>
    let va := (p.pair0 a.toNat).toNat
    let bar := (p.reg0 b.toNat).toNat
    match p.checkAll s .global false 64 fun _ => va with
    | some f => .fault f
    | none =>
      match checkLane s p .global false 64 p.l0 va with
      | .error _ => .done t
      | .ok g =>
        let d := ofBytes (agentBytes s .phys g.addr 64 g.kd)
        let count := bits d 287 256
        let src := bits d 63 0
        let off := bits d 127 64
        let scl := bits d 191 128
        let agr := bits d 255 192
        let sig := bits d 383 320
        let here := match kind with | 3 => 4 * count | 4 => 2 * count | _ => 32 * count
        let n := if kind = 5 then 256 * count else here
        let x := fabWindow s w
        match faultThen (p.recordFault s va g)
          ([p.pathCheck (collBad kind d) 9 48 5 false 0] ++
           nguFaults s p w (windowOpen s p w true) (sig ≠ noSignal && sig % 8 ≠ 0)
             (decide (2 ^ 52 < src + here) ||
               (kind = 5 && (decide (2 ^ 52 < scl + 2 * count) || decide (2 ^ 52 < agr + 2 * count))))
             false src off n sig bar) with
        | some f => .fault f
        | none =>
          let base := bits x 51 0
          .done (p.startNgu s (p.noteRecord t va g)
            { kind := kind, op := bits d 291 288, h := bits d 295 292, va := src, scl := scl, agr := agr, n := n,
              remote := base + off, signal := if sig = noSignal then none else some (base + sig),
              node := bits x 111 100, rasid := bits x 63 52 } bar)

/-- `ncoll` (R403, R404). -/
def execNcoll (a b : BitVec 7) (w : BitVec 6) (s : State) : Host.Outcome State Fault Refusal :=
  collective (.ncoll a b w) 3 a b w.toNat s

/-- `nscmax` (R403, R404). -/
def execNscmax (a b : BitVec 7) (w : BitVec 6) (s : State) : Host.Outcome State Fault Refusal :=
  collective (.nscmax a b w) 4 a b w.toNat s

/-- `nsum` (R403 to R405). -/
def execNsum (a b : BitVec 7) (w : BitVec 6) (s : State) : Host.Outcome State Fault Refusal :=
  collective (.nsum a b w) 5 a b w.toNat s

/-! ### Sending (R394, R395, R400, R405) -/

/-- The word that `nsum` sends for element k of a block (R405). -/
def nsumWord (block : List Byte) (scale agr h k : Nat) : Nat :=
  let finite := fun (c : Nat) => match bf16.decode c with
    | .fin .. => true
    | _ => false
  if !(finite agr) || !(finite scale) then nsumMarker
  else match n4xValues block scale with
    | none => nsumMarker
    | some vs =>
      let top : Int := 2 ^ (31 - h) - 1
      let e : Int := max (bits agr 14 7) 1
      match vs.getD k (.nan false) with
      | .nan _ => nsumMarker
      | .inf neg => wrapN 32 (if neg then -top else top)
      | .fin neg m x =>
        let v := if m = 0 then 0 else (roundToInt 0 neg m 1 (x - (e - 127 - (21 - (h : Int))))).1
        wrapN 32 (max (-top) (min top v))

/-- The bytes that an `nsum` unit sends, from the bytes of its blocks, scales and agreed scales. -/
def nsumBytes (h lo hi : Nat) (data : List (List Byte)) : List Byte :=
  let first := lo / 256
  (rangeFrom (lo / 4) (hi / 4)).flatMap fun w =>
    let b := w / 64 - first
    toBytes 4 (nsumWord (data.getD (3 * b) []) (ofBytes (data.getD (3 * b + 1) [])) (ofBytes (data.getD (3 * b + 2) []))
      h (w % 64))

/-- A payload sector: the bytes of a unit at their places in the sector, with the words that are valid. -/
def paySector (lo n : Nat) (bs : List Byte) : BitVec 8 × BitVec 256 :=
  (BitVec.ofNat 8 (sumNat (((List.range 8).filter fun i => decide (lo ≤ 4 * i) && decide (4 * i < lo + n)).map (2 ^ ·))),
   BitVec.ofNat 256 (ofBytes bs * 2 ^ (8 * lo)))

/-- The local data of a unit: its runs are read, or it waits, fails or is poisoned (R204, R402). -/
def readUnit (s : State) (o : Op) (u : Unit) : Attempt × List (List Byte) :=
  match tryUnit s o u with
  | .moved s' => match resolveSegs s o u.segs with
    | .ok rs => (.moved s', rs.map fun r => match r.src with
        | some (sp, a, kd, _) => agentBytes s sp a r.n kd
        | none => [])
    | .error _ => (.moved s', [])
  | x => (x, [])

/-- A unit that could not be read: it waits for its page, ends in error at the barrier, or takes the kill path. -/
def unitStops (s : State) (o : Op) (u : Unit) (x : Attempt) : State :=
  match x with
  | .wait s' => unitWaits s' s o u
  | .fail s' cls code _ _ => unitDone (errorAtBarrier s' o cls code) o u true
  | .poisoned e => memoryError e.state o e.code e.space false (BitVec.ofNat 32 (2 ^ o.l0)) e.addr
  | .moved s' => s'

/-- A sector is in flight since now. -/
def markSent (s : State) (op tag : Nat) : State :=
  modOp s op fun o => { o with kind := match o.kind with
    | .ngu n l t sg => .ngu n l ((tag, s.ns) :: t) sg
    | k => k }

/-- The arg of a combine flit: the model's own layout, [3:0] op, [7:4] h, [9:8] the step (log 41). -/
def combineArg (n : Ngu) : Nat := n.op + n.h * 2 ^ 4 + (n.kind - 3) * 2 ^ 8

/-- A sector ends in error: it lands and sets the barrier's fault fields (R189, R402). -/
def sectorError (s : State) (o : Op) (u : Unit) (code : Nat) : State := unitDone (errorAtBarrier s o 9 code) o u true

/-- Send one sector of a Nguroth operation. One beyond 2^52, which no flit can name, ends as its class 5 check at the
target would end it (R397, log 85). -/
def sendSector (s : State) (o : Op) (n : Ngu) (u : Unit) (port : Nat) : State :=
  let k := n.remote / 32 + u.tag
  let lo := max n.remote (32 * k)
  let len := min (n.remote + n.n) (32 * k + 32) - lo
  if 2 ^ 52 ≤ 32 * k then sectorError s o u 45
  else if n.kind = 2 then
    markSent (sendFlit s port n.rasid (32 * k) 1 0 n.node 2 []) o.id u.tag
  else match readUnit s o u with
    | (.moved s', data) =>
      let bs := if n.kind = 5 then nsumBytes n.h (lo - n.remote) (lo + len - n.remote) data else data.flatMap id
      markSent (sendFlit s' port n.rasid (32 * k) 1 (if n.kind = 1 then 0 else combineArg n) n.node
        (if n.kind = 1 then 1 else 5) [paySector (lo - 32 * k) len bs]) o.id u.tag
    | (x, _) => unitStops s o u x

/-- The sending of one sector over a port that is up (R395): a sector of a Nguroth operation not yet sent, its remote
signal when every unit is performed (R400), or the duplicate of a mirrored write, which waits until no other duplicate of
its sector is in flight, so that the partner applies them in order (R408). -/
def transmit (s : State) (op sector port : Nat) : State :=
  if !(portUsable s port) then s
  else match opAt s op with
  | some o =>
    match o.kind with
    | .ngu n left sent sg =>
      if left = [] then
        match n.signal, sg with
        | some a, false => endOp (if a < 2 ^ 52 then sendFlit s port n.rasid a 0 (2 ^ 23) n.node 6 [] else s) op
        | _, _ => s
      else if (sent.lookup sector).isSome || !(afterDone s o.after) then s
      else match left.find? fun u => u.tag = sector with
        | some u => sendSector s o n u port
        | none => s
    | _ => s
  | none =>
    match s.mirrors.find? fun m => m.id = op with
    | some m =>
      let c := s.mircfg.toNat
      if s.mirrors.any fun x => x.pa = m.pa && x.sent.isSome then s
      else
      let s := { s with mirrors := updWhere (fun x => x.id = op) (fun x => { x with sent := some port }) s.mirrors }
      let there := m.pa + bits c 35 0 * 65536
      if there < 2 ^ 52 then sendFlit s port 0 there 1 0 (bits c 59 48) 7 [(0xFF#8, BitVec.ofNat 256 (readN s .phys m.pa 32))]
      else s
    | none => s

/-! ### Answers (R395, R400, R402, R409) -/

/-- The operation and the unit of a sector in flight. -/
def sectorInFlight (s : State) (op sector : Nat) : Option (Op × Ngu × Unit) :=
  (opAt s op).bind fun o => match o.kind with
    | .ngu n left sent _ =>
      if (sent.lookup sector).isSome then (left.find? fun u => u.tag = sector).map fun u => (o, n, u) else none
    | _ => none

/-- ACKNOWLEDGEMENT (R400, R402): the writes of a sector are performed at the target, or it ended in error there. -/
def execAcknowledgement (port : Nat) (hdr : BitVec 256) (op sector err : Nat) (s : State) :
    Host.Outcome State Fault Refusal :=
  if !(flitArrives s port hdr [] 4) then .next s
  else match sectorInFlight s op sector with
    | some (o, n, u) =>
      let s := acceptFlit s port hdr
      if n.kind = 2 then .next s
      else .next (if err = 0 then unitDone s o u false else sectorError s o u err)
    | none => .next (acceptFlit s port hdr)

/-- The bytes of a get's sector are written locally (R400). -/
def landData (s : State) (o : Op) (n : Ngu) (u : Unit) (d : BitVec 256) : Attempt :=
  match u.err with
  | some (cls, code) => let x := unitFails s o u
                        .fail s cls code x.1 x.2
  | none =>
    if u.seq.isSome then .wait s
    else match resolveSegs s o u.segs with
      | .error e =>
        let s := noteDenial s o.die e.d
        if e.d.cls = 7 then .wait (startMove s o.die o.asid (e.va / 65536) e.d.code)
        else .fail s e.d.cls e.d.code e.va e.write
      | .ok rs =>
        let k := n.remote / 32 + u.tag
        let bs := (toBytes 32 d.toNat).drop (max n.remote (32 * k) - 32 * k)
        .moved (rs.foldl (fun (st, bs) r => match r.dst with
          | some (sp, a, kd, mir, va) => (engineWrite st o sp va a kd mir (bs.take r.n), bs.drop r.n)
          | none => (st, bs)) (s, bs)).1

/-- GET_DATA (R400, R402): data is written locally and its sectors land; a sector that waits for a local page is
delivered again. -/
def execGetData (port : Nat) (hdr : BitVec 256) (pay : List (BitVec 8 × BitVec 256)) (op sector err : Nat)
    (s : State) : Host.Outcome State Fault Refusal :=
  if !(flitArrives s port hdr pay 3) then .next s
  else match sectorInFlight s op sector with
    | some (o, n, u) =>
      if n.kind ≠ 2 then .next (acceptFlit s port hdr)
      else if err ≠ 0 then .next (sectorError (acceptFlit s port hdr) o u err)
      else match landData s o n u (pay.headD (0, 0)).2 with
        | .moved s' => .next (unitDone (acceptFlit s' port hdr) o u false)
        | .wait s' => .next (unitStops s o u (.wait s'))
        | x => .next (acceptFlit (unitStops s o u x) port hdr)
    | none => .next (acceptFlit s port hdr)

/-- SECTOR_ACK_TIMEOUT (R409): 5 ms after it was sent. -/
def execSectorAckTimeout (op sector : Nat) (s : State) : Host.Outcome State Fault Refusal :=
  match sectorInFlight s op sector with
  | some (o, _, u) =>
    match o.kind with
    | .ngu _ _ sent _ =>
      if s.ns < lookupD sent sector 0 + 5000000 then .next s else .next (sectorError s o u 46)
    | _ => .next s
  | none => .next s

/-! ### Mirroring (R295, R407 to R409) -/

/-- MIRROR_FLIT (R408): duplicates inside an enabled MIRIN from its source are applied and acknowledged; others are
refused and never acknowledged. -/
def execMirrorFlit (port : Nat) (hdr : BitVec 256) (pay : List (BitVec 8 × BitVec 256)) (s : State) :
    Host.Outcome State Fault Refusal :=
  if !(flitArrives s port hdr pay 7) then .next s
  else
    let m := s.mirin.toNat
    let lo := bits m 35 0 * 65536
    let hi := lo + bits m 99 64 * 65536
    let secs := flitSectors hdr pay
    let s := acceptFlit s port hdr
    if bit m 127 && hdrSrc hdr.toNat = bits m 123 112 && secs.all fun x => decide (lo ≤ x.1) && decide (x.1 + 32 ≤ hi) then
      .next (acknowledge (secs.foldl (fun st x => performWrite st .phys x.1 (keyId s 0) (flitBytes x.2.1 x.2.2) false 0 0 []) s)
        port hdr (hdrMask hdr.toNat))
    else .next s

/-- MIRROR_ACK (R295, R408): the partner acknowledges a duplicate that was sent, and the mirrored write becomes durable,
unless the partner is lost (R409). The others wait from now on for the next acknowledgement. -/
def execMirrorAck (id : Nat) (s : State) : Host.Outcome State Fault Refusal :=
  .next (if s.mirBroken || !(s.mirrors.any fun m => m.id = id && m.sent.isSome) then s
    else { s with mirrors := (s.mirrors.filter fun m => m.id ≠ id).map fun m => { m with since := s.ns } })

/-- MIRROR_ACK_TIMEOUT (R409): acknowledgements have stopped for 10 ms. -/
def execMirrorAckTimeout (s : State) : Host.Outcome State Fault Refusal :=
  .next (if !s.mirBroken && s.mirrors.any fun m => decide (m.since + 10000000 ≤ s.ns) then
    hostIrq { s with mirBroken := true, justSet := .broken :: s.justSet } 0 else s)

/-! ### Ports (R395, R409) -/

/-- PORT_DOWN (R409): the duplicates in flight over it go again over another port. -/
def execPortDown (port : Nat) (s : State) : Host.Outcome State Fault Refusal :=
  .next { s with
    ports := updAt port (fun p => { p with up := false }) s.ports,
    mirrors := updWhere (fun m => m.sent = some port) (fun m => { m with sent := none }) s.mirrors }

/-- PORT_UP (R395). -/
def execPortUp (port : Nat) (s : State) : Host.Outcome State Fault Refusal :=
  .next { s with ports := updAt port (fun p => { p with up := true }) s.ports }

end Sys2Proof.Machine
end

