-- ==== Sys2Proof/Machine/Frames.lean ====
section
/-! DEFINITION. The frame instructions: sharing and releasing pages, and page status (R364 to R367). -/

namespace Sys2Proof.Machine

/-- A page that `pshare` may share and `prel` release (R365 check 4). -/
def frameShared (s : State) (asid va : Nat) : Bool :=
  let a := asidEntry s asid
  match walk s asid va with
  | .leaf 0 e _ =>
    bits e 61 60 = 0 && !(bit e 5) && decide (bits a 191 128 ≤ leafFrame e) && decide (leafFrame e < bits a 255 192)
  | _ => false

/-- The pages of a range. -/
def pagesOf (va n : Nat) : List Nat := (List.range n).map fun i => va + 65536 * i

/-- A range is misaligned, of a bad length, or passes the top of virtual space (R365 check 2). -/
def rangeBad (va n : Nat) : Bool :=
  va % 65536 ≠ 0 || n = 0 || decide (4096 < n) || decide (2 ^ 52 < va + 65536 * n)

/-- The fault of the read check of a range of pages (R139, R365 check 3): the lowest class, its lowest code,
the first page of it. -/
def sourceFault (s : State) (p : Path) (pages : List Nat) : Option Flt :=
  let fails := pages.filterMap fun va => (match translate s p.grid.asid va false false (some false) with
    | .error d => some (va, d)
    | .ok _ => none)
  match fails with
  | [] => none
  | f :: _ =>
    let cls := fails.foldl (fun m x => min m x.2.cls) f.2.cls
    let mine := fails.filter fun x => x.2.cls = cls
    let code := mine.foldl (fun m x => min m x.2.code) 255
    some { cls := cls, code := code, space := 0, write := false, lanes := p.act,
           addr := (mine.headD f).1,
           pages := if cls = 7 then mine.map fun x => (x.1 / 65536, x.2.code) else [],
           bad := (fails.filter fun x => x.2.malformed).length, locked := (fails.filter fun x => x.2.locked).length,
           unit := none }

/-- The malformed and the locked entries that the walks of a list of pages meet (R358, R377). -/
def walksMet (s : State) (asid : Nat) (pages : List Nat) : Nat × Nat :=
  pages.foldl (fun n va => match walk s asid va with
    | .unmapped m l => (n.1 + (if m then 1 else 0), n.2 + (if l then 1 else 0))
    | .leaf .. => n) (0, 0)

/-- Start a frame instruction: the path waits until its effect is complete. -/
def Path.startFrames (p : Path) (t : State) (share ro : Bool) (src dst n : Nat) : State :=
  let o := p.newOp t (.frames share ro src dst 0 n none) p.act p.l0
  let t := p.setThreads (addOp t o) p.lanes fun _ th => { th with wait := .signal o.id }
  framesTurn t o.id

/-- `pshare` and `pshare.ro` (R364 to R366); codes 40 to 42 record space 5 and address 0 (R149; log 62). -/
def shareFrames (i : Instr) (ro : Bool) (a b : BitVec 7) (s : State) : Host.Outcome State Fault Refusal :=
  perPath i s fun p t =>
    let asid := p.grid.asid
    let src := (p.pair0 a.toNat).toNat
    let dst := (p.pair0 b.toNat).toNat
    let n := (p.reg0 (b.toNat + 2)).toNat
    match firstFault
      [p.pathCheck (!(bit (asidEntry s asid) 393)) 9 40 5 false 0,
       p.pathCheck (rangeBad src n || rangeBad dst n ||
         (decide (src < dst + 65536 * n) && decide (dst < src + 65536 * n))) 9 42 5 false 0] with
    | some f => .fault f
    | none =>
      match sourceFault s p (pagesOf src n) with
      | some f => .fault f
      | none =>
        match firstFault
          [p.pathCheck ((pagesOf src n).any fun va => !(frameShared s asid va)) 9 41 5 false 0,
           p.pathCheck ((pagesOf dst n).any fun va => match entryOf s asid va with
             | some e => bit (devRead s e 8) 0
             | none => true) 9 42 5 false 0] with
        | some f => .fault (f.met (walksMet s asid ((pagesOf dst n).filter fun va => (entryOf s asid va).isNone)))
        | none => .done (p.startFrames t true ro src dst n)

/-- `pshare` (R366). -/
def execPshare (a b : BitVec 7) (s : State) : Host.Outcome State Fault Refusal :=
  shareFrames (.pshare a b) false a b s

/-- `pshare.ro` (R366). -/
def execPshareRo (a b : BitVec 7) (s : State) : Host.Outcome State Fault Refusal :=
  shareFrames (.pshareRo a b) true a b s

/-- `prel` (R364 to R366); codes 40 to 43 record space 5 and address 0 (R149; log 62). -/
def execPrel (a b : BitVec 7) (s : State) : Host.Outcome State Fault Refusal :=
  perPath (.prel a b) s fun p t =>
    let asid := p.grid.asid
    let va := (p.pair0 a.toNat).toNat
    let n := (p.reg0 b.toNat).toNat
    let gone := fun va => match walk s asid va with
      | .unmapped .. => true
      | _ => false
    match firstFault
      [p.pathCheck (!(bit (asidEntry s asid) 393)) 9 40 5 false 0,
       p.pathCheck (rangeBad va n) 9 42 5 false 0] with
    | some f => .fault f
    | none =>
      match firstFault
        [p.pathCheck ((pagesOf va (min n 4096)).any gone) 9 43 5 false 0,
         p.pathCheck ((pagesOf va (min n 4096)).any fun va => !(frameShared s asid va)) 9 41 5 false 0] with
      | some f => .fault (f.met (walksMet s asid (pagesOf va (min n 4096))))
      | none => .done (p.startFrames t false false va 0 n)

/-- The status words of the page that holds an address (R367): d, then d+1. -/
def pageStatus (s : State) (asid va : Nat) : Nat × Nat :=
  match walk s asid va with
  | .unmapped .. => (0, 0)
  | .leaf level e _ =>
    let tier := bits e 61 60
    let dom := bit e 5
    let pa := if tier = 2 then leafFrame e else leafFrame e + va % 2 ^ pageLog level
    let cnt := if tier = 0 && !dom then (countOf s pa).toNat else 0
    let b := fun (i k : Nat) => if bit e i then 2 ^ k else 0
    (cnt + level * 2 ^ 16 + b 0 18 + b 2 19 + b 3 20 + b 4 21 + b 5 22 + b 6 23 + b 7 24 + tier * 2 ^ 25 +
      bits pa 51 48 * 2 ^ 28, bits pa 47 16)

/-- `pq` (R367). -/
def execPq (a d : BitVec 7) (s : State) : Host.Outcome State Fault Refusal :=
  perPath (.pq a d) s fun p t =>
    let va := fun k => ((p.th k).pair a.toNat).toNat
    match firstFault [p.laneCheck 5 2 0 false va fun k => decide (2 ^ 52 ≤ va k)] with
    | some f => .fault f
    | none =>
      let met := walksMet s p.grid.asid (distinct ((laneList p.act).map fun k => va k / 65536 * 65536))
      .done (p.setThreads (countLocked (addBadpte t p.die met.1) met.2) p.act fun k th =>
        let r := pageStatus s p.grid.asid (va k)
        th.setPair d.toNat (BitVec.ofNat 64 (r.1 + r.2 * 2 ^ 32)))

end Sys2Proof.Machine
end

