-- ==== Sys2Proof/Machine/Integer.lean ====
section
/-! DEFINITION. Integer, address, predicate and uniform instructions (R81 to R97, R105 to R107). -/

namespace Sys2Proof.Machine

/-! ### The operations of R83 Table 1 -/

def opShl (a b : Word) : Word := if b.toNat < 32 then a <<< b.toNat else 0
def opShr (a b : Word) : Word := if b.toNat < 32 then a >>> b.toNat else 0
def opSra (a b : Word) : Word := a.sshiftRight (min b.toNat 31)
def opRotl (a b : Word) : Word := a.rotateLeft (b.toNat % 32)
def opMin (a b : Word) : Word := if a.toInt ≤ b.toInt then a else b
def opMax (a b : Word) : Word := if a.toInt ≤ b.toInt then b else a
def opMinu (a b : Word) : Word := if a.toNat ≤ b.toNat then a else b
def opMaxu (a b : Word) : Word := if a.toNat ≤ b.toNat then b else a

/-- Clamp an exact int to the signed 32-bit range (`Sat`, R14); no flag (R81). -/
def satInt (x : Int) : Word := BitVec.ofInt 32 (max (-(2 ^ 31)) (min x (2 ^ 31 - 1)))
def opAddsat (a b : Word) : Word := satInt (a.toInt + b.toInt)
def opSubsat (a b : Word) : Word := satInt (a.toInt - b.toInt)

/-! ### The operations of R84 Table 2 -/

def opMulhi (a b : Word) : Word := (BitVec.ofInt 64 (a.toInt * b.toInt)).extractLsb' 32 32
def opMulhu (a b : Word) : Word := BitVec.ofNat 32 (a.toNat * b.toNat / 2 ^ 32)

/-- Byte i of a word (R40, R84). -/
def byteOf (a : Word) (i : Nat) : BitVec 8 := a.extractLsb' (8 * i) 8
def opDot4s (d a b : Word) : Word :=
  d + BitVec.ofInt 32 ((byteOf a 0).toInt * (byteOf b 0).toInt + (byteOf a 1).toInt * (byteOf b 1).toInt +
    (byteOf a 2).toInt * (byteOf b 2).toInt + (byteOf a 3).toInt * (byteOf b 3).toInt)
def opDot4u (d a b : Word) : Word :=
  d + BitVec.ofNat 32 ((byteOf a 0).toNat * (byteOf b 0).toNat + (byteOf a 1).toNat * (byteOf b 1).toNat +
    (byteOf a 2).toNat * (byteOf b 2).toNat + (byteOf a 3).toNat * (byteOf b 3).toNat)
def opPopc (a : Word) : Word := BitVec.ofNat 32 (laneList a).length
def opClz (a : Word) : Word := BitVec.ofNat 32 (if a = 0#32 then 32 else 31 - Nat.log2 a.toNat)
def opCtz (a : Word) : Word := BitVec.ofNat 32 (lowLane a)
def opBrev (a : Word) : Word := a.reverse
def opAbs (a : Word) : Word := if a.toInt < 0 then -a else a

/-- The 64-bit address of R85. -/
def opLea (signed : Bool) (k : Nat) (base : BitVec 64) (b : Word) : BitVec 64 :=
  base + (if signed then b.signExtend 64 else b.zeroExtend 64) * BitVec.ofNat 64 (2 ^ k)

/-- The bit field of R89. -/
def opBfx (signed : Bool) (pos len : Nat) (a : Word) : Word :=
  let f : BitVec len := a.extractLsb' pos len
  if signed then f.signExtend 32 else f.zeroExtend 32
def opBfi (pos len : Nat) (d a : Word) : Word :=
  let m : Word := BitVec.ofNat 32 ((2 ^ len - 1) * 2 ^ pos)
  (d &&& ~~~m) ||| ((a <<< pos) &&& m)

/-- Quotient and remainder of R92. -/
def opDiv (signed rem : Bool) (a b : Word) : Word :=
  let x : Int := if signed then a.toInt else a.toNat
  let y : Int := if signed then b.toInt else b.toNat
  BitVec.ofInt 32 (if y = 0 then (if rem then x else -1) else if rem then x.tmod y else x.tdiv y)

/-- The comparisons of R94. -/
def opCmp (c : Nat) (a b : Word) : Bool :=
  match c with
  | 0 => a = b
  | 1 => a ≠ b
  | 2 => decide (a.toInt < b.toInt)
  | 3 => decide (a.toInt ≤ b.toInt)
  | 4 => decide (b.toInt < a.toInt)
  | 5 => decide (b.toInt ≤ a.toInt)
  | 6 => decide (a.toNat < b.toNat)
  | 7 => decide (a.toNat ≤ b.toNat)
  | 8 => decide (b.toNat < a.toNat)
  | _ => decide (b.toNat ≤ a.toNat)

/-! ### Meanings -/


/-- `add` (R83). -/
def execAdd (d a b : BitVec 7) (s : State) : Host.Outcome State Fault Refusal := perLane2 (.add d a b) d a b (fun a b => a + b) s

/-- `sub` (R83). -/
def execSub (d a b : BitVec 7) (s : State) : Host.Outcome State Fault Refusal := perLane2 (.sub d a b) d a b (fun a b => a - b) s

/-- `and` (R83). -/
def execAnd (d a b : BitVec 7) (s : State) : Host.Outcome State Fault Refusal := perLane2 (.and d a b) d a b (fun a b => a &&& b) s

/-- `or` (R83). -/
def execOr (d a b : BitVec 7) (s : State) : Host.Outcome State Fault Refusal := perLane2 (.or d a b) d a b (fun a b => a ||| b) s

/-- `xor` (R83). -/
def execXor (d a b : BitVec 7) (s : State) : Host.Outcome State Fault Refusal := perLane2 (.xor d a b) d a b (fun a b => a ^^^ b) s

/-- `andn` (R83). -/
def execAndn (d a b : BitVec 7) (s : State) : Host.Outcome State Fault Refusal := perLane2 (.andn d a b) d a b (fun a b => a &&& ~~~b) s

/-- `shl` (R83). -/
def execShl (d a b : BitVec 7) (s : State) : Host.Outcome State Fault Refusal := perLane2 (.shl d a b) d a b opShl s

/-- `shr` (R83). -/
def execShr (d a b : BitVec 7) (s : State) : Host.Outcome State Fault Refusal := perLane2 (.shr d a b) d a b opShr s

/-- `sra` (R83). -/
def execSra (d a b : BitVec 7) (s : State) : Host.Outcome State Fault Refusal := perLane2 (.sra d a b) d a b opSra s

/-- `rotl` (R83). -/
def execRotl (d a b : BitVec 7) (s : State) : Host.Outcome State Fault Refusal := perLane2 (.rotl d a b) d a b opRotl s

/-- `min` (R83). -/
def execMin (d a b : BitVec 7) (s : State) : Host.Outcome State Fault Refusal := perLane2 (.min d a b) d a b opMin s

/-- `max` (R83). -/
def execMax (d a b : BitVec 7) (s : State) : Host.Outcome State Fault Refusal := perLane2 (.max d a b) d a b opMax s

/-- `minu` (R83). -/
def execMinu (d a b : BitVec 7) (s : State) : Host.Outcome State Fault Refusal := perLane2 (.minu d a b) d a b opMinu s

/-- `maxu` (R83). -/
def execMaxu (d a b : BitVec 7) (s : State) : Host.Outcome State Fault Refusal := perLane2 (.maxu d a b) d a b opMaxu s

/-- `addsat` (R83). -/
def execAddsat (d a b : BitVec 7) (s : State) : Host.Outcome State Fault Refusal := perLane2 (.addsat d a b) d a b opAddsat s

/-- `subsat` (R83). -/
def execSubsat (d a b : BitVec 7) (s : State) : Host.Outcome State Fault Refusal := perLane2 (.subsat d a b) d a b opSubsat s

/-- `uadd` (R82, R83). -/
def execUadd (d a b : BitVec 7) (s : State) : Host.Outcome State Fault Refusal := uniform2 (.uadd d a b) d a b (fun a b => a + b) s

/-- `usub` (R82, R83). -/
def execUsub (d a b : BitVec 7) (s : State) : Host.Outcome State Fault Refusal := uniform2 (.usub d a b) d a b (fun a b => a - b) s

/-- `uand` (R82, R83). -/
def execUand (d a b : BitVec 7) (s : State) : Host.Outcome State Fault Refusal := uniform2 (.uand d a b) d a b (fun a b => a &&& b) s

/-- `uor` (R82, R83). -/
def execUor (d a b : BitVec 7) (s : State) : Host.Outcome State Fault Refusal := uniform2 (.uor d a b) d a b (fun a b => a ||| b) s

/-- `uxor` (R82, R83). -/
def execUxor (d a b : BitVec 7) (s : State) : Host.Outcome State Fault Refusal := uniform2 (.uxor d a b) d a b (fun a b => a ^^^ b) s

/-- `uandn` (R82, R83). -/
def execUandn (d a b : BitVec 7) (s : State) : Host.Outcome State Fault Refusal := uniform2 (.uandn d a b) d a b (fun a b => a &&& ~~~b) s

/-- `ushl` (R82, R83). -/
def execUshl (d a b : BitVec 7) (s : State) : Host.Outcome State Fault Refusal := uniform2 (.ushl d a b) d a b opShl s

/-- `ushr` (R82, R83). -/
def execUshr (d a b : BitVec 7) (s : State) : Host.Outcome State Fault Refusal := uniform2 (.ushr d a b) d a b opShr s

/-- `usra` (R82, R83). -/
def execUsra (d a b : BitVec 7) (s : State) : Host.Outcome State Fault Refusal := uniform2 (.usra d a b) d a b opSra s

/-- `urotl` (R82, R83). -/
def execUrotl (d a b : BitVec 7) (s : State) : Host.Outcome State Fault Refusal := uniform2 (.urotl d a b) d a b opRotl s

/-- `umin` (R82, R83). -/
def execUmin (d a b : BitVec 7) (s : State) : Host.Outcome State Fault Refusal := uniform2 (.umin d a b) d a b opMin s

/-- `umax` (R82, R83). -/
def execUmax (d a b : BitVec 7) (s : State) : Host.Outcome State Fault Refusal := uniform2 (.umax d a b) d a b opMax s

/-- `uminu` (R82, R83). -/
def execUminu (d a b : BitVec 7) (s : State) : Host.Outcome State Fault Refusal := uniform2 (.uminu d a b) d a b opMinu s

/-- `umaxu` (R82, R83). -/
def execUmaxu (d a b : BitVec 7) (s : State) : Host.Outcome State Fault Refusal := uniform2 (.umaxu d a b) d a b opMaxu s

/-- `uaddsat` (R82, R83). -/
def execUaddsat (d a b : BitVec 7) (s : State) : Host.Outcome State Fault Refusal := uniform2 (.uaddsat d a b) d a b opAddsat s

/-- `usubsat` (R82, R83). -/
def execUsubsat (d a b : BitVec 7) (s : State) : Host.Outcome State Fault Refusal := uniform2 (.usubsat d a b) d a b opSubsat s

/-- `mul` (R84). -/
def execMul (d a b : BitVec 7) (s : State) : Host.Outcome State Fault Refusal := perLane2 (.mul d a b) d a b (fun a b => a * b) s

/-- `mulhi` (R84). -/
def execMulhi (d a b : BitVec 7) (s : State) : Host.Outcome State Fault Refusal := perLane2 (.mulhi d a b) d a b opMulhi s

/-- `mulhu` (R84). -/
def execMulhu (d a b : BitVec 7) (s : State) : Host.Outcome State Fault Refusal := perLane2 (.mulhu d a b) d a b opMulhu s

/-- `dot4s` (R84). -/
def execDot4s (d a b : BitVec 7) (s : State) : Host.Outcome State Fault Refusal := perLane3 (.dot4s d a b) d a b opDot4s s

/-- `dot4u` (R84). -/
def execDot4u (d a b : BitVec 7) (s : State) : Host.Outcome State Fault Refusal := perLane3 (.dot4u d a b) d a b opDot4u s

/-- `popc` (R84). -/
def execPopc (d a : BitVec 7) (s : State) : Host.Outcome State Fault Refusal := perLane1 (.popc d a) d a opPopc s

/-- `clz` (R84). -/
def execClz (d a : BitVec 7) (s : State) : Host.Outcome State Fault Refusal := perLane1 (.clz d a) d a opClz s

/-- `ctz` (R84). -/
def execCtz (d a : BitVec 7) (s : State) : Host.Outcome State Fault Refusal := perLane1 (.ctz d a) d a opCtz s

/-- `brev` (R84). -/
def execBrev (d a : BitVec 7) (s : State) : Host.Outcome State Fault Refusal := perLane1 (.brev d a) d a opBrev s

/-- `abs` (R84). -/
def execAbs (d a : BitVec 7) (s : State) : Host.Outcome State Fault Refusal := perLane1 (.abs d a) d a opAbs s

/-- `lea` (R85). -/
def execLea (d a b : BitVec 7) (k : BitVec 3) (s : State) : Host.Outcome State Fault Refusal :=
  perThreadPair (.lea d a b k) d (fun t => opLea false k.toNat (t.pair a.toNat) (t.reg b.toNat)) s

/-- `leas` (R85). -/
def execLeas (d a b : BitVec 7) (k : BitVec 3) (s : State) : Host.Outcome State Fault Refusal :=
  perThreadPair (.leas d a b k) d (fun t => opLea true k.toNat (t.pair a.toNat) (t.reg b.toNat)) s

/-- The carry chain of R86: the sum or difference with the carry in, and the carry or borrow out. -/
def opCarry (sub cin : Bool) (a b : Word) : Word × Bool :=
  let c : Int := if cin then 1 else 0
  let x : Int := if sub then a.toNat - b.toNat - c else a.toNat + b.toNat + c
  (BitVec.ofInt 32 x, if sub then decide (x < 0) else decide (2 ^ 32 ≤ x))

/-- Register d and predicate q of every active lane receive the carry chain's results (R86). -/
def carryLanes (i : Instr) (sub : Bool) (d a b : BitVec 7) (q : BitVec 4) (s : State) : Host.Outcome State Fault Refusal :=
  issue i s fun p t => .done (p.setThreads t p.act fun k th =>
    let r := opCarry sub ((p.th k).pred q.toNat) ((p.th k).reg a.toNat) ((p.th k).reg b.toNat)
    (th.setReg d.toNat r.1).setPred q.toNat r.2)


/-- `addc` (R86). -/
def execAddc (d a b : BitVec 7) (q : BitVec 4) (s : State) : Host.Outcome State Fault Refusal := carryLanes (.addc d a b q) false d a b q s

/-- `subc` (R86). -/
def execSubc (d a b : BitVec 7) (q : BitVec 4) (s : State) : Host.Outcome State Fault Refusal := carryLanes (.subc d a b q) true d a b q s

/-- `cmp` (R94). -/
def execCmp (p a b : BitVec 7) (c : BitVec 5) (s : State) : Host.Outcome State Fault Refusal :=
  perPred (.cmp p a b c) p (fun t => opCmp c.toNat (t.reg a.toNat) (t.reg b.toNat)) s

/-- `pand` (R95). -/
def execPand (d a b : BitVec 7) (s : State) : Host.Outcome State Fault Refusal := perPred (.pand d a b) d (fun t => t.pred a.toNat && t.pred b.toNat) s

/-- `por` (R95). -/
def execPor (d a b : BitVec 7) (s : State) : Host.Outcome State Fault Refusal := perPred (.por d a b) d (fun t => t.pred a.toNat || t.pred b.toNat) s

/-- `pxor` (R95). -/
def execPxor (d a b : BitVec 7) (s : State) : Host.Outcome State Fault Refusal := perPred (.pxor d a b) d (fun t => t.pred a.toNat != t.pred b.toNat) s

/-- `pandn` (R95). -/
def execPandn (d a b : BitVec 7) (s : State) : Host.Outcome State Fault Refusal := perPred (.pandn d a b) d (fun t => t.pred a.toNat && !(t.pred b.toNat)) s

/-- `pnot` (R95). -/
def execPnot (d a : BitVec 7) (s : State) : Host.Outcome State Fault Refusal := perPred (.pnot d a) d (fun t => !(t.pred a.toNat)) s

/-- `pmov` (R95). -/
def execPmov (d a : BitVec 7) (s : State) : Host.Outcome State Fault Refusal := perPred (.pmov d a) d (fun t => t.pred a.toNat) s

/-- `pset` (R95). -/
def execPset (d : BitVec 7) (s : State) : Host.Outcome State Fault Refusal := perPred (.pset d) d (fun _ => true) s

/-- `pclr` (R95). -/
def execPclr (d : BitVec 7) (s : State) : Host.Outcome State Fault Refusal := perPred (.pclr d) d (fun _ => false) s

/-- `sel` (R96). -/
def execSel (d a b : BitVec 7) (p : BitVec 4) (s : State) : Host.Outcome State Fault Refusal :=
  perThread (.sel d a b p) d (fun t => if t.pred p.toNat then t.reg a.toNat else t.reg b.toNat) s

/-- `seln` (R96). -/
def execSeln (d a b : BitVec 7) (p : BitVec 4) (s : State) : Host.Outcome State Fault Refusal :=
  perThread (.seln d a b p) d (fun t => if t.pred p.toNat then t.reg b.toNat else t.reg a.toNat) s

/-- Divide and remainder (R91 to R93): a and b are read at issue, and d is written when the result
comes (DIVIDE_RESULT). -/
def divideLanes (i : Instr) (signed rem : Bool) (la : BitVec 4) (d a b : BitVec 7) (s : State) : Host.Outcome State Fault Refusal :=
  issue i s fun p t =>
    if p.any then
      let res := (laneList p.act).filterMap fun k =>
        (fieldLoc (p.th k).wb.toNat d.toNat).map fun l =>
          (k, l, opDiv signed rem ((p.th k).reg a.toNat) ((p.th k).reg b.toNat))
      let o := p.newOp t (.divide res) p.act p.l0
      .done (addOp (p.setThreads t p.act fun k th =>
        owe th o.id la.toNat false ([fieldLoc (p.th k).wb.toNat d.toNat].filterMap id) []) o)
    else .done t


/-- `div` (R91, R92). -/
def execDiv (la : BitVec 4) (d a b : BitVec 7) (s : State) : Host.Outcome State Fault Refusal := divideLanes (.div la d a b) true false la d a b s

/-- `divu` (R91, R92). -/
def execDivu (la : BitVec 4) (d a b : BitVec 7) (s : State) : Host.Outcome State Fault Refusal := divideLanes (.divu la d a b) false false la d a b s

/-- `rem` (R91, R92). -/
def execRem (la : BitVec 4) (d a b : BitVec 7) (s : State) : Host.Outcome State Fault Refusal := divideLanes (.rem la d a b) true true la d a b s

/-- `remu` (R91, R92). -/
def execRemu (la : BitVec 4) (d a b : BitVec 7) (s : State) : Host.Outcome State Fault Refusal := divideLanes (.remu la d a b) false true la d a b s

/-- `addi` (R62, R87). -/
def execAddi (d a : BitVec 7) (i : BitVec 12) (s : State) : Host.Outcome State Fault Refusal := perLane1 (.addi d a i) d a (fun a => a + imm12 i) s

/-- `andi` (R62, R87). -/
def execAndi (d a : BitVec 7) (i : BitVec 12) (s : State) : Host.Outcome State Fault Refusal := perLane1 (.andi d a i) d a (fun a => a &&& imm12 i) s

/-- `ori` (R62, R87). -/
def execOri (d a : BitVec 7) (i : BitVec 12) (s : State) : Host.Outcome State Fault Refusal := perLane1 (.ori d a i) d a (fun a => a ||| imm12 i) s

/-- `xori` (R62, R87). -/
def execXori (d a : BitVec 7) (i : BitVec 12) (s : State) : Host.Outcome State Fault Refusal := perLane1 (.xori d a i) d a (fun a => a ^^^ imm12 i) s

/-- `shli` (R88). -/
def execShli (d a : BitVec 7) (n : BitVec 5) (s : State) : Host.Outcome State Fault Refusal := perLane1 (.shli d a n) d a (fun a => opShl a (n.zeroExtend 32)) s

/-- `shri` (R88). -/
def execShri (d a : BitVec 7) (n : BitVec 5) (s : State) : Host.Outcome State Fault Refusal := perLane1 (.shri d a n) d a (fun a => opShr a (n.zeroExtend 32)) s

/-- `srai` (R88). -/
def execSrai (d a : BitVec 7) (n : BitVec 5) (s : State) : Host.Outcome State Fault Refusal := perLane1 (.srai d a n) d a (fun a => opSra a (n.zeroExtend 32)) s

/-- `rotli` (R88). -/
def execRotli (d a : BitVec 7) (n : BitVec 5) (s : State) : Host.Outcome State Fault Refusal := perLane1 (.rotli d a n) d a (fun a => opRotl a (n.zeroExtend 32)) s

/-- `bfx` (R89). -/
def execBfx (d a : BitVec 7) (len1 pos : BitVec 5) (s : State) : Host.Outcome State Fault Refusal := perLane1 (.bfx d a len1 pos) d a (opBfx false pos.toNat (len1.toNat + 1)) s

/-- `bfxs` (R89). -/
def execBfxs (d a : BitVec 7) (len1 pos : BitVec 5) (s : State) : Host.Outcome State Fault Refusal := perLane1 (.bfxs d a len1 pos) d a (opBfx true pos.toNat (len1.toNat + 1)) s

/-- `bfi` (R89). -/
def execBfi (d a : BitVec 7) (len1 pos : BitVec 5) (s : State) : Host.Outcome State Fault Refusal :=
  perLane3 (.bfi d a len1 pos) d a a (fun d a _ => opBfi pos.toNat (len1.toNat + 1) d a) s

/-- `movi` (R90). -/
def execMovi (d : BitVec 7) (i : BitVec 19) (s : State) : Host.Outcome State Fault Refusal := perThread (.movi d i) d (fun _ => imm19 i) s

/-- `movhi` (R90). -/
def execMovhi (d : BitVec 7) (i : BitVec 19) (s : State) : Host.Outcome State Fault Refusal :=
  perThread (.movhi d i) d (fun t => i ++ (t.reg d.toNat).extractLsb' 0 13) s

/-- `uaddi` (R82, R87). -/
def execUaddi (d a : BitVec 7) (i : BitVec 12) (s : State) : Host.Outcome State Fault Refusal := uniform1 (.uaddi d a i) d a (fun a => a + imm12 i) s

/-- `umovi` (R82, R90). -/
def execUmovi (d : BitVec 7) (i : BitVec 19) (s : State) : Host.Outcome State Fault Refusal := uniform1 (.umovi d i) d d (fun _ => imm19 i) s

/-- `bcast` (R97). -/
def execBcast (d a : BitVec 7) (s : State) : Host.Outcome State Fault Refusal :=
  issue (.bcast d a) s fun p t => .done (p.write t d.toNat fun _ => p.w.old.u a.toNat)

/-- `rdfirst` (R82, R97). -/
def execRdfirst (d a : BitVec 7) (s : State) : Host.Outcome State Fault Refusal :=
  issue (.rdfirst d a) s fun p t => .done (p.writeU t d.toNat (p.reg0 a.toNat))

/-- `wbase` (R21, R105): it waits for every owed result, and ends all lookahead counts. -/
def execWbase (n : BitVec 7) (s : State) : Host.Outcome State Fault Refusal :=
  issue (.wbase n) s fun p t =>
    let bad := p.failing fun k => (p.th k).v.length ≤ 16 * n.toNat
    if bad ≠ 0#32 then .fault (Flt.plain 2 2 bad)
    else .done (p.setThreads t p.act fun _ th => { th with wb := n.extractLsb' 0 4, owed := [] })

/-- The system value of a selector in a thread (R24, R25). -/
def sysValue (s : State) (p : Path) (k : Nat) (sel : Nat) : Word :=
  let t := p.th k
  let g := p.grid
  let n (x : Nat) : Word := BitVec.ofNat 32 x
  let gx := lrecBits g.lrec 287 256
  let gy := lrecBits g.lrec 319 288
  match sel with
  | 0 => n k
  | 1 => n (k / 4)
  | 2 => n p.slot
  | 3 => n ((if p.grp < 8 then 1 else 0) + (if t.cutting then 2 else 0))
  | 4 => t.thx
  | 5 => t.thy
  | 6 => t.thz
  | 7 => n (lrecBits g.lrec 367 352)
  | 8 => n (lrecBits g.lrec 383 368)
  | 9 => n (lrecBits g.lrec 399 384)
  | 10 => n (t.blk % gx)
  | 11 => n (t.blk / gx % gy)
  | 12 => n (t.blk / gx / gy)
  | 13 => n gx
  | 14 => n gy
  | 15 => n (lrecBits g.lrec 351 320)
  | 16 => n (t.blk % g.hoodSize / (g.hoodSize / (lrecBits g.lrec 408 406 + 1)))
  | 17 => n (t.blk % g.hoodSize)
  | 18 => n (corepos p.pos)
  | 19 => n p.core.kind
  | 20 => n (clusterOf p.pos)
  | 21 => n p.die
  | 22 => n ((dieOf s p.die).cycles % 2 ^ 32)
  | 23 => t.clkHi
  | 24 => n (s.ns % 2 ^ 32)
  | 25 => t.nsHi
  | _ => n g.regs

/-- `movs` (R24, R106): `clklo` and `nslo` also latch the high half. -/
def execMovs (d m : BitVec 7) (s : State) : Host.Outcome State Fault Refusal :=
  issue (.movs d m) s fun p t => .done (p.setThreads t p.act fun k th =>
    let th := th.setReg d.toNat (sysValue s p k m.toNat)
    if m = 22#7 then { th with clkHi := BitVec.ofNat 32 ((dieOf s p.die).cycles / 2 ^ 32) }
    else if m = 24#7 then { th with nsHi := BitVec.ofNat 32 (s.ns / 2 ^ 32) }
    else th)

/-- `nop` (R107). -/
def execNop (s : State) : Host.Outcome State Fault Refusal := issue .nop s fun _ t => .done t

end Sys2Proof.Machine
end

