-- ==== Sys2Proof/Machine/Lanes.lean ====
section
/-! DEFINITION. Exchanges between the lanes of a path (R215 to R218). -/

namespace Sys2Proof.Machine

/-- `xlane`: lane k receives register a of lane j, or its own when j is outside 0 to 31 or not active
(R216). -/
def xlane (i : Instr) (d a b : BitVec 7) (src : Nat → Word → Int) (s : State) :
    Host.Outcome State Fault Refusal :=
  issue i s fun p t => .done (p.write t d.toNat fun k =>
    let j := src k ((p.th k).reg b.toNat)
    if 0 ≤ j ∧ j < 32 ∧ p.act.getLsbD j.toNat then (p.th j.toNat).reg a.toNat else (p.th k).reg a.toNat)

/-- `xlane.at` (R216). -/
def execXlaneAt (d a b : BitVec 7) (s : State) : Host.Outcome State Fault Refusal :=
  xlane (.xlaneAt d a b) d a b (fun _ x => ((x.toNat % 32 : Nat) : Int)) s

/-- `xlane.back` (R216). -/
def execXlaneBack (d a b : BitVec 7) (s : State) : Host.Outcome State Fault Refusal :=
  xlane (.xlaneBack d a b) d a b (fun k x => (k : Int) - x.toNat) s

/-- `xlane.fwd` (R216). -/
def execXlaneFwd (d a b : BitVec 7) (s : State) : Host.Outcome State Fault Refusal :=
  xlane (.xlaneFwd d a b) d a b (fun k x => (k : Int) + x.toNat) s

/-- `xlane.swz` (R216). -/
def execXlaneSwz (d a b : BitVec 7) (s : State) : Host.Outcome State Fault Refusal :=
  xlane (.xlaneSwz d a b) d a b (fun k x => ((k ^^^ x.toNat % 32 : Nat) : Int)) s

/-- `push` (R217): the highest source lane that names a destination wins; others keep their d. -/
def execPush (d a b : BitVec 7) (s : State) : Host.Outcome State Fault Refusal :=
  issue (.push d a b) s fun p t =>
    let src := fun k => ((laneList p.act).filter fun j => ((p.th j).reg b.toNat).toNat = k).getLast?
    .done (p.write t d.toNat fun k => match src k with
      | some j => (p.th j).reg a.toNat
      | none => (p.th k).reg d.toNat)

/-- The active lanes up to lane k; without k itself when `strict` (R218). -/
def Path.upTo (p : Path) (k : Nat) (strict : Bool) : List Nat :=
  (laneList p.act).filter fun j => decide (j < k) || (!strict && j = k)

/-- Register d of each active lane k receives a function of the register a of some active lanes (R218). -/
def foldLanes (i : Instr) (d a : BitVec 7) (lanes : Path → Nat → List Nat) (f : List Word → Word) (s : State) :
    Host.Outcome State Fault Refusal :=
  issue i s fun p t => .done (p.write t d.toNat fun k => f ((lanes p k).map fun j => (p.th j).reg a.toNat))

def sumWords (l : List Word) : Word := l.foldl (· + ·) 0
def minWords : List Word → Word
  | [] => 0
  | x :: t => t.foldl (fun m y => if m.toInt ≤ y.toInt then m else y) x
def maxWords : List Word → Word
  | [] => 0
  | x :: t => t.foldl (fun m y => if y.toInt ≤ m.toInt then m else y) x
def andWords (l : List Word) : Word := l.foldl (· &&& ·) (~~~0)
def orWords (l : List Word) : Word := l.foldl (· ||| ·) 0
def xorWords (l : List Word) : Word := l.foldl (· ^^^ ·) 0

/-- All active lanes. -/
def Path.everyLane (p : Path) (_ : Nat) : List Nat := laneList p.act

/-- `scan.add` (R218). -/
def execScanAdd (d a : BitVec 7) (s : State) : Host.Outcome State Fault Refusal :=
  foldLanes (.scanAdd d a) d a (fun p k => p.upTo k false) sumWords s

/-- `scan.addx` (R218). -/
def execScanAddx (d a : BitVec 7) (s : State) : Host.Outcome State Fault Refusal :=
  foldLanes (.scanAddx d a) d a (fun p k => p.upTo k true) sumWords s

/-- `scan.min` (R218). -/
def execScanMin (d a : BitVec 7) (s : State) : Host.Outcome State Fault Refusal :=
  foldLanes (.scanMin d a) d a (fun p k => p.upTo k false) minWords s

/-- `scan.max` (R218). -/
def execScanMax (d a : BitVec 7) (s : State) : Host.Outcome State Fault Refusal :=
  foldLanes (.scanMax d a) d a (fun p k => p.upTo k false) maxWords s

/-- `pgath` (R218). -/
def execPgath (d a : BitVec 7) (s : State) : Host.Outcome State Fault Refusal :=
  issue (.pgath d a) s fun p t => .done (p.write t d.toNat fun _ => p.failing fun j => (p.th j).pred a.toNat)

/-- `pall` (R218). -/
def execPall (d a : BitVec 7) (s : State) : Host.Outcome State Fault Refusal :=
  issue (.pall d a) s fun p t =>
    let r := (laneList p.act).all fun j => (p.th j).pred a.toNat
    .done (p.setThreads t p.act fun _ th => th.setPred d.toNat r)

/-- `pany` (R218). -/
def execPany (d a : BitVec 7) (s : State) : Host.Outcome State Fault Refusal :=
  issue (.pany d a) s fun p t =>
    let r := (laneList p.act).any fun j => (p.th j).pred a.toNat
    .done (p.setThreads t p.act fun _ th => th.setPred d.toNat r)

/-- `lsame` (R218). -/
def execLsame (d a : BitVec 7) (s : State) : Host.Outcome State Fault Refusal :=
  issue (.lsame d a) s fun p t => .done (p.write t d.toNat fun k =>
    p.failing fun j => (p.th j).reg a.toNat = (p.th k).reg a.toNat)

/-- `lsame.all` (R218). -/
def execLsameAll (d a : BitVec 7) (s : State) : Host.Outcome State Fault Refusal :=
  issue (.lsameAll d a) s fun p t =>
    let same := (laneList p.act).all fun j => (p.th j).reg a.toNat = p.reg0 a.toNat
    .done (p.write t d.toNat fun _ => if same then p.act else 0)

/-- `lfold.add` (R218). -/
def execLfoldAdd (d a : BitVec 7) (s : State) : Host.Outcome State Fault Refusal :=
  foldLanes (.lfoldAdd d a) d a Path.everyLane sumWords s

/-- `lfold.min` (R218). -/
def execLfoldMin (d a : BitVec 7) (s : State) : Host.Outcome State Fault Refusal :=
  foldLanes (.lfoldMin d a) d a Path.everyLane minWords s

/-- `lfold.max` (R218). -/
def execLfoldMax (d a : BitVec 7) (s : State) : Host.Outcome State Fault Refusal :=
  foldLanes (.lfoldMax d a) d a Path.everyLane maxWords s

/-- `lfold.and` (R218). -/
def execLfoldAnd (d a : BitVec 7) (s : State) : Host.Outcome State Fault Refusal :=
  foldLanes (.lfoldAnd d a) d a Path.everyLane andWords s

/-- `lfold.or` (R218). -/
def execLfoldOr (d a : BitVec 7) (s : State) : Host.Outcome State Fault Refusal :=
  foldLanes (.lfoldOr d a) d a Path.everyLane orWords s

/-- `lfold.xor` (R218). -/
def execLfoldXor (d a : BitVec 7) (s : State) : Host.Outcome State Fault Refusal :=
  foldLanes (.lfoldXor d a) d a Path.everyLane xorWords s

end Sys2Proof.Machine
end

