-- ==== Sys2Proof/Machine/Spdm.lean ====
section
/-! DEFINITION. Attestation and key release (R380 to R382): the bytes that the published standard lays out, and that
the spec does not restate, are free (log 13, log 43). -/

namespace Sys2Proof.Machine

/-- Send a response. -/
def respond (s : State) (bytes : List Byte) : State := { s with out := s.out ++ [.spdm bytes] }

/-- A response whose bytes only the standard gives: bytes and length are free. -/
def respondFree (s : State) : State :=
  respond { s with fresh := s.fresh + 1 }
    ((List.range ((Config.freeWord s.fresh).toNat % 65536)).map (Config.spdmByte s.fresh))

/-- A request out of its place in the exchange is answered by an error of the standard and changes nothing. -/
def inPlace (s : State) (ok : Bool) (f : Spdm → Spdm) : Host.Outcome State Fault Refusal :=
  .next (if ok then { respondFree s with spdm := f s.spdm } else respondFree s)

/-- GET_VERSION (R380): the exchange starts anew. -/
def execGetVersion (s : State) : Host.Outcome State Fault Refusal :=
  inPlace s true fun _ => ⟨true, false, false, false, false, none⟩

/-- GET_CAPABILITIES (R380). -/
def execGetCapabilities (s : State) : Host.Outcome State Fault Refusal :=
  inPlace s s.spdm.version fun x => { x with caps := true }

/-- NEGOTIATE_ALGORITHMS (R380). -/
def execNegotiateAlgorithms (s : State) : Host.Outcome State Fault Refusal :=
  inPlace s s.spdm.caps fun x => { x with algs := true }

/-- GET_DIGESTS (R380). -/
def execGetDigests (s : State) : Host.Outcome State Fault Refusal := inPlace s s.spdm.algs id

/-- GET_CERTIFICATE (R380). -/
def execGetCertificate (s : State) : Host.Outcome State Fault Refusal := inPlace s s.spdm.algs id

/-- CHALLENGE (R380). -/
def execChallenge (s : State) : Host.Outcome State Fault Refusal := inPlace s s.spdm.algs id

/-- KEY_EXCHANGE (R380): ECDHE on secp384r1 begins a session. -/
def execKeyExchange (s : State) : Host.Outcome State Fault Refusal :=
  inPlace s s.spdm.algs fun x => { x with keyEx := true, session := false, signedGen := none }

/-- FINISH (R380): the session stands. -/
def execFinish (s : State) : Host.Outcome State Fault Refusal :=
  inPlace s s.spdm.keyEx fun x => { x with keyEx := false, session := true, signedGen := none }

/-- The canonical bytes of measurement blocks 3 to 6 (R380 Table 3). -/
def measuredBytes (s : State) (k : Nat) : List Byte :=
  match k with
  | 3 => toBytes 4 s.memcfg.toNat ++ toBytes 8 s.ctxBase.toNat ++ toBytes 8 s.ctxSize.toNat
  | 4 => (List.range 4).flatMap fun d => toBytes 64 (dieOf s d).repair.toNat ++
      (List.range Config.positions).flatMap fun p => toBytes 16 (coreAt s d p).entry.toNat
  | 5 => toBytes 4 s.keypol.toNat
  | _ => s.featacc.flatMap fun w => toBytes 4 w.toNat

/-- The canonical bytes of block 1 (R380 Table 3): the ROM's version, four bytes that are free since the spec gives none,
and the fused minimum svn (log 43). -/
def romBytes (s : State) : List Byte := (List.range 4).map (Config.spdmByte 0) ++ toBytes 2 s.fuseSvn.toNat

/-- The six blocks (R380 Table 3), each a digest; block 2 is the one that the boot ROM recorded (R379). -/
def measurementBlocks (s : State) : List Byte :=
  sha256 (romBytes s) ++ (toBytes 32 s.measFw.toNat).reverse ++
    [3, 4, 5, 6].flatMap fun k => sha256 (measuredBytes s k)

/-- GET_MEASUREMENTS (R380, R381): the blocks and MEASGEN of one instant, signed if asked; a signed response in a
session is what KEYREL asks for (R382). -/
def execGetMeasurements (signed inSession : Bool) (s : State) : Host.Outcome State Fault Refusal :=
  if !s.spdm.algs || (inSession && !s.spdm.session) then .next (respondFree s)
  else
    let m := measurementBlocks s ++ toBytes 4 s.measgen.toNat
    let m := if signed then m ++ (List.range 384).map (Config.identitySignature m) else m
    .next { respond s m with
      spdm := if signed && inSession then { s.spdm with signedGen := some s.measgen } else s.spdm }

/-- Load the key of a domain (R382): accesses checked from now on meet the new key, and units written under another one
read as other bytes to them; those checked before keep the key that they met. -/
def loadKey (s : State) (kd : Nat) (key : BitVec 256) : State :=
  { s with
    keys := assign s.keys kd key,
    keyGen := if (s.keys.lookup kd).all (· = key) then s.keyGen else assign s.keyGen kd (lookupD s.keyGen kd 0 + 1) }

/-- A KEYREL that the device accepts (R382), once firmware runs (R386). -/
def keyrelAccepted (s : State) (inSession : Bool) (gen : Word) (pairs : List (BitVec 16 × BitVec 256)) : Bool :=
  s.passed && inSession && s.spdm.session && s.spdm.signedGen = some gen && s.measgen = gen && decide (pairs.length ≤ 16) &&
    pairs.all fun x => x.1 ≠ 0#16 && decide (x.1.toNat ≤ bits s.keypol.toNat 7 0) &&
      !(bit s.keypol.toNat 31 && (s.keys.lookup x.1.toNat).isSome)

/-- KEYREL (R382): all keys of the request are loaded, or none and the answer is error code 0x80. -/
def execKeyrel (inSession : Bool) (gen : BitVec 32) (pairs : List (BitVec 16 × BitVec 256)) (s : State) :
    Host.Outcome State Fault Refusal :=
  if keyrelAccepted s inSession gen pairs then
    .next (respondFree (pairs.foldl (fun st x => loadKey st x.1.toNat x.2) s))
  else .next (respond s [0x80#8])

/-- UNSUPPORTED_REQUEST (R380): the request's code comes back with the error. -/
def execUnsupportedRequest (code : BitVec 8) (s : State) : Host.Outcome State Fault Refusal :=
  .next (respond s [0x07#8, code])

end Sys2Proof.Machine
end

