-- ==== Sys2Proof/Machine/Sync.lean ====
section
/-! DEFINITION. Barriers, transaction-barrier instructions, fences and waits (R188 to R190, R209, R210, R213, R214,
R269, R296 to R301, R322). -/

namespace Sys2Proof.Machine

/-! ### Barriers of threads (R213, R214, R269, R322) -/

/-- The active lanes arrive at a barrier and wait there, at its address (R213, R243); the lanes a guard disables count
as arrived and go on (R214). -/
def Path.arriveAt (p : Path) (t : State) (bar : Bar) : State :=
  p.setThreads t p.lanes fun k th =>
    let arrived := if th.arrived.contains bar then th.arrived else bar :: th.arrived
    if p.act.getLsbD k then { p.th k with arrived := arrived, wait := .bar bar, stopIssues := th.stopIssues }
    else { th with arrived := arrived }

/-- The cuttings among the active lanes (R37, R214). -/
def Path.cuttings (p : Path) : BitVec 32 := p.failing fun k => (p.th k).cutting

/-- The blocks of the path's lanes. -/
def Path.blocks (p : Path) : List Nat := distinct ((laneList p.lanes).map fun k => (p.th k).blk)

/-- `barw` (R213). -/
def execBarw (la : BitVec 4) (s : State) : Host.Outcome State Fault Refusal :=
  issue (.barw la) s fun p t => .done (settleBarw (p.arriveAt t .w) p.die p.pos p.slot)

/-- Settle the block and cluster barriers of some blocks. -/
def settleBlockList (s : State) (g : Nat) (blks : List Nat) : State :=
  blks.foldl (fun st b => match gridAt st g with
    | some x => settleHood st x b
    | none => st) s

/-- `barb` (R213, R214). -/
def execBarb (la : BitVec 4) (s : State) : Host.Outcome State Fault Refusal :=
  issue (.barb la) s fun p t =>
    if p.cuttings ≠ 0#32 then .fault (Flt.plain 9 27 p.cuttings)
    else .done (settleBlockList (p.arriveAt t .b) p.grid.id p.blocks)

/-- `barc` (R269). -/
def execBarc (la : BitVec 4) (k : BitVec 3) (s : State) : Host.Outcome State Fault Refusal :=
  issue (.barc la k) s fun p t =>
    if p.cuttings ≠ 0#32 then .fault (Flt.plain 9 27 p.cuttings)
    else .done (settleBlockList (p.arriveAt t (.c k.toNat)) p.grid.id p.blocks)

/-- `barg` (R322): the block's arrival at the counter is GRID_BARRIER_BLOCK_ARRIVAL. -/
def execBarg (la : BitVec 4) (k : BitVec 2) (s : State) : Host.Outcome State Fault Refusal :=
  issue (.barg la k) s fun p t =>
    if p.any && !(bit p.grid.lrec.toNat 419) then .fault (Flt.plain 9 38 p.act)
    else if p.cuttings ≠ 0#32 then .fault (Flt.plain 9 27 p.cuttings)
    else .done (p.arriveAt t (.g k.toNat))

/-- GRID_BARRIER_BLOCK_ARRIVAL (R322): due when every thread of the block has arrived or exited and the
block has not sent its arrival; the last arrival releases. -/
def execGridBarrierBlockArrival (grid blk k : Nat) (s : State) : Host.Outcome State Fault Refusal :=
  match gridAt s grid with
  | none => .next s
  | some g =>
    match g.block blk with
    | none => .next s
    | some b =>
      if k < 4 && bit g.lrec.toNat 419 && b.st = .placed && blockArrived s g blk k &&
          !(g.barg.contains (k, blk)) then
        .next (settleGrid (modGrid s grid fun g => { g with barg := (k, blk) :: g.barg }) grid k)
      else .next s

/-! ### Transaction barriers (R188 to R190, R209, R210) -/

/-- Write the barrier at an address of the issuing core's scratch (R190). -/
def Path.tbPut (p : Path) (t : State) (ad b : Nat) : State := tbWrite t (p.src p.l0 5) p.die p.pos ad b

/-- `tbinit` (R189, R209). -/
def execTbinit (la : BitVec 4) (a b : BitVec 7) (s : State) : Host.Outcome State Fault Refusal :=
  perPath (.tbinit la a b) s fun p t =>
    let ad := (p.reg0 a.toNat).toNat
    let n := (p.reg0 b.toNat).toNat
    match firstFault (p.tbFaults s ad false ++ [p.pathCheck (n = 0 || decide (2 ^ 20 ≤ n)) 9 21 1 true ad]) with
    | some f => .fault f
    | none => .done (p.tbPut t ad (tbInit n))

/-- `tbarr` (R189, R209): the lanes that name one barrier make one update of their count. -/
def execTbarr (la : BitVec 4) (a : BitVec 7) (s : State) : Host.Outcome State Fault Refusal :=
  perPath (.tbarr la a) s fun p t =>
    let ad := fun k => ((p.th k).reg a.toNat).toNat
    let same := fun x => (laneList p.act).filter fun k => ad k = x
    let v := fun k => tbRead s p.die p.pos (ad k)
    match firstFault
      [p.laneCheck 5 1 1 true ad fun k => ad k % 16 ≠ 0,
       p.laneCheck 5 3 1 true ad fun k => decide (p.scratchBytes < ad k + 16),
       p.laneCheck 9 20 1 true ad fun k => tbReserved (v k),
       p.laneCheck 9 21 1 true ad fun k => decide (tbArrivals (v k) < (same (ad k)).length)] with
    | some f => .fault f
    | none => .done ((distinct ((laneList p.act).map ad)).foldl (fun st x =>
        let b := tbRead st p.die p.pos x
        p.tbPut st x (tbUpdate b (tbArrivals b - (same x).length) (tbSectors b))) t)

/-- `tbarr.one` (R189, R209). -/
def execTbarrOne (la : BitVec 4) (a : BitVec 7) (s : State) : Host.Outcome State Fault Refusal :=
  perPath (.tbarrOne la a) s fun p t =>
    let ad := (p.reg0 a.toNat).toNat
    let b := tbRead s p.die p.pos ad
    match firstFault (p.tbFaults s ad true ++ [p.pathCheck (tbArrivals b = 0) 9 21 1 true ad]) with
    | some f => .fault f
    | none => .done (p.tbPut t ad (tbUpdate b (tbArrivals b - 1) (tbSectors b)))

/-- `tbexp` (R189, R209). -/
def execTbexp (la : BitVec 4) (a b : BitVec 7) (s : State) : Host.Outcome State Fault Refusal :=
  perPath (.tbexp la a b) s fun p t =>
    let ad := (p.reg0 a.toNat).toNat
    let k := (p.reg0 b.toNat).toNat
    let v := tbRead s p.die p.pos ad
    match firstFault (p.tbFaults s ad true ++
        [p.pathCheck (decide (2 ^ 31 ≤ k) || decide ((2 : Int) ^ 31 ≤ tbSectors v + k)) 9 21 1 true ad]) with
    | some f => .fault f
    | none => .done (p.tbPut t ad (tbUpdate v (tbArrivals v) (tbSectors v + k)))

/-- `tbwait` (R210): it returns once it reads another phase (R28). -/
def execTbwait (la : BitVec 4) (a b : BitVec 7) (s : State) : Host.Outcome State Fault Refusal :=
  perPath (.tbwait la a b) s fun p t =>
    let ad := (p.reg0 a.toNat).toNat
    match firstFault (p.tbFaults s ad true) with
    | some f => .fault f
    | none => .done (watchScratch t (p.src p.l0 0) true false p.die p.pos ad 16)

/-! ### Fences and counter waits (R296 to R301) -/

/-- A fence (R296): the counter advances, the token goes to S[d]. Operations that the other path issued in
the same cycle are first covered by the next fence (R297). -/
def fence (i : Instr) (kinds : Nat) (d : BitVec 7) (s : State) : Host.Outcome State Fault Refusal :=
  perPath i s fun p t =>
    let c := p.w.sh.fence + 1
    let now := fun (o : Op) => o.uid = p.w.uid && p.w.lastSel ≠ 0 && o.stamp = p.w.lastSel && o.cov = c
    let t := { t with ops := updWhere now (fun o => { o with cov := c + 1 }) t.ops }
    let t := p.share t fun h => { h with fence := c }
    .done (p.writeU t d.toNat (BitVec.ofNat 32 (c.toNat * 256 + kinds)))

/-- `fence.eng` (R296). -/
def execFenceEng (d : BitVec 7) (s : State) : Host.Outcome State Fault Refusal := fence (.fenceEng d) 1 d s

/-- `fence.sys` (R296). -/
def execFenceSys (d : BitVec 7) (s : State) : Host.Outcome State Fault Refusal := fence (.fenceSys d) 2 d s

/-- `fence.mir` (R296). -/
def execFenceMir (d : BitVec 7) (s : State) : Host.Outcome State Fault Refusal := fence (.fenceMir d) 4 d s

/-- `fence.all` (R296). -/
def execFenceAll (d : BitVec 7) (s : State) : Host.Outcome State Fault Refusal := fence (.fenceAll d) 7 d s

/-- `fwait` (R298, R409): the wait itself is R28's. -/
def execFwait (a : BitVec 7) (s : State) : Host.Outcome State Fault Refusal :=
  perPath (.fwait a) s fun p t =>
    if tokenBad (p.w.old.u a.toNat) then .fault (Flt.plain 9 37 p.act)
    else if mirLost s p.w (p.w.old.u a.toNat) then .fault (Flt.plain 9 49 p.act)
    else .done t

/-- `waitc.ld` (R301). -/
def execWaitcLd (n : BitVec 6) (s : State) : Host.Outcome State Fault Refusal :=
  perPath (.waitcLd n) s fun _ t => .done t

/-- `waitc.st` (R301). -/
def execWaitcSt (n : BitVec 6) (s : State) : Host.Outcome State Fault Refusal :=
  perPath (.waitcSt n) s fun _ t => .done t

end Sys2Proof.Machine
end

