-- ==== Sys2Proof/Machine/Scheduler.lean ====
section
/-! DEFINITION. The scheduler cores of a command processor: registers and traps (R304, R306). -/

namespace Sys2Proof.Machine

/-- The scheduler core whose turn it is. -/
def schedOf (s : State) : Sched := (dieOf s s.cur.die).scheds.getD s.cur.core Sched.reset

/-- Change a scheduler core. -/
def modSched (s : State) (die core : Nat) (f : Sched → Sched) : State :=
  modDie s die fun d => { d with scheds := updAt core f d.scheds }

/-- Read an x register: x0 reads 0. -/
def Sched.reg (c : Sched) (n : Nat) : BitVec 64 := if n = 0 then 0 else c.x.getD n 0

/-- Write an x register: a write to x0 is discarded. -/
def Sched.setReg (c : Sched) (n : Nat) (v : BitVec 64) : Sched :=
  if n = 0 then c else { c with x := c.x.set n v }

/-- A trap of a scheduler core (R304, R306): mcause and mtval as given; the rest of a machine-mode trap
entry is the standard's (log 8). -/
def Sched.trap (c : Sched) (cause : Nat) (tval : BitVec 64) : Sched :=
  let st := c.mstatus.toNat
  let mie := bits st 3 3
  { c with
    mcause := BitVec.ofNat 64 cause, mtval := tval, mepc := c.pc,
    mstatus := BitVec.ofNat 64 (putBits (putBits (putBits st 7 7 mie) 3 3 0) 12 11 3),
    pc := BitVec.ofNat 64 (c.mtvec.toNat / 4 * 4) }

/-- The core of the turn traps. -/
def schedTrap (s : State) (cause : Nat) (tval : BitVec 64) : State :=
  modSched s s.cur.die s.cur.core fun c => c.trap cause tval

end Sys2Proof.Machine
end

