-- ==== Sys2Proof/Machine/Xlorekq.lean ====
section
/-! DEFINITION. The Xlorekq instructions of the scheduler cores, and the warm standby (R304 to R307). -/

namespace Sys2Proof.Machine

/-- Read a register of the scheduler core of the turn. -/
def schedReg (s : State) (n : BitVec 5) : BitVec 64 := (schedOf s).reg n.toNat

/-- Write rd and go on to the next instruction. -/
def schedDone (s : State) (d : BitVec 5) (v : BitVec 64) : State :=
  modSched s s.cur.die s.cur.core fun c => { (c.setReg d.toNat v) with pc := c.pc + 4, instret := c.instret + 1 }

/-- An Xlorekq exception with its code (R306). -/
def xFault (s : State) (code : Nat) : State := schedTrap s 24 (BitVec.ofNat 64 code)

/-- `xrf` (R305): the next packet of a ring is copied into the core's buffer; a slot whose page is being
resolved is read after that, and one that cannot be read stops the queue (R310). -/
def execXrf (rs rd : BitVec 5) (s : State) : Host.Outcome State Fault Refusal :=
  let v := (schedReg s rs).toNat
  let die := s.cur.die
  let x := qdesc s die v
  if 4096 ≤ v then .next (xFault s 1)
  else if qState x ≠ 1 then .next (xFault s 2)
  else if qRead x = qWrite x then .next (schedDone s rd (BitVec.ofNat 64 (2 ^ 64 - 1)))
  else
    let idx := qRead x
    match translate s (qAsid x) (slotVa x idx) false false none with
    | .error d =>
      .next (if d.cls = 7 then startMove s die (qAsid x) (slotVa x idx / 65536) d.code
        else xFault (queueError (noteDenial s die d) die v 8) 2)
    | .ok t =>
      match cpRead s t 64 with
      | none => .next (xFault (queueError (readNotes s die (qAsid x) (slotVa x idx) 64) die v 8) 2)
      | some p =>
        let s := modSched s die s.cur.core fun c => { c with buf := toBytes 64 p, bufq := (v, idx) }
        .next (schedDone s rd (BitVec.ofNat 64 idx))

/-- `xbfx` (R305). -/
def execXbfx (i : BitVec 12) (rs rd : BitVec 5) (s : State) : Host.Outcome State Fault Refusal :=
  let pos := bits i.toNat 5 0
  let len := bits i.toNat 11 6 + 1
  if 64 < pos + len then .next (xFault s 3)
  else .next (schedDone s rd (BitVec.ofNat 64 (bits (schedReg s rs).toNat (pos + len - 1) pos)))

/-- `xsw` (R305): it ends when the word is small enough or 4,096 cycles at 1.2 GHz have passed; until then the
core waits at it. -/
def execXsw (rt rs rd : BitVec 5) (s : State) : Host.Outcome State Fault Refusal :=
  let a := (schedReg s rs).toNat
  let bound := schedReg s rt
  if a % 8 ≠ 0 then .next (xFault s 4)
  else if !(rangeInHbm a 8) then .next (xFault s 5)
  else
    let v := BitVec.ofNat 64 (readN s .phys a 8)
    let c := schedOf s
    let ended := match c.wait with
      | some (_, _, _, since) => decide (since * 6 + 4096 * 5 ≤ s.ns * 6)
      | none => false
    let set := fun (st : State) w => modSched st s.cur.die s.cur.core fun c => { c with wait := w }
    if v.toInt ≤ bound.toInt || ended then .next (schedDone (set s none) rd v)
    else .next (if c.wait.isSome then s else set s (some (rd.toNat, a, bound, s.ns)))

/-- XSW_WAIT_TIMEOUT (R305): the wait of an `xsw` ends after 4,096 cycles. -/
def execXswWaitTimeout (die core : Nat) (s : State) : Host.Outcome State Fault Refusal :=
  let s := { s with cur := { s.cur with die := die, core := core } }
  match (schedOf s).wait with
  | some (rd, a, _, since) =>
    if since * 6 + 4096 * 5 ≤ s.ns * 6 then
      let v := BitVec.ofNat 64 (readN s .phys a 8)
      .next (schedDone (modSched s die core fun c => { c with wait := none }) (BitVec.ofNat 5 rd) v)
    else .next s
  | none => .next s

/-- `xdisp` (R305, R321): the grid belongs to the packet in the core's buffer (log 21). -/
def execXdisp (rs rd : BitVec 5) (s : State) : Host.Outcome State Fault Refusal :=
  let a := (schedReg s rs).toNat
  let die := s.cur.die
  if a % 256 ≠ 0 then .next (xFault s 6)
  else
    let c := schedOf s
    let x := qdesc s die c.bufq.1
    let p := ofBytes c.buf
    let r := BitVec.ofNat 2048 (readN s (.cpLocal die) a 256)
    let n := launchCheck s die (qAsid x) r
    match launchPending s die (qAsid x) r with
    | some (at_, d) => .next (startMove s die (qAsid x) (at_ / 65536) d.code)
    | none =>
      if n ≠ 0 then .next (schedDone (launchNotes s die (qAsid x) r) rd (BitVec.ofNat 64 n))
      else
        let s := startGrid s die c.bufq.1 c.bufq.2 (qAsid x) (qVf x) r (bits p 127 64) (packetCsig p)
        .next (schedDone s rd 0)

/-- `xjr` (R305, R306). -/
def execXjr (rt rs rd : BitVec 5) (s : State) : Host.Outcome State Fault Refusal :=
  let d := dieOf s s.cur.die
  if 4096 ≤ d.journal.length then .next (xFault s 7)
  else
    let n := d.journalSeq
    let e := (n, schedReg s rs, schedReg s rt)
    let s := modDie s s.cur.die fun d => { d with journal := d.journal ++ [e], journalSeq := n + 1 }
    .next (schedDone s rd (BitVec.ofNat 64 n))

/-- Firmware frees the oldest entries of its journal, in order (R306); how it does so the manual does not say
(log 78). -/
def freeJournal (s : State) (die n : Nat) : State := modDie s die fun d => { d with journal := d.journal.drop n }

/-! ### Warm standby (R307, R308, R391) -/

/-- Every running queue of a die stops with err 7 (R307, R308). -/
def stopQueues (s : State) (die : Nat) : State :=
  if (dieOf s die).qdescWritten then
    (List.range 4096).foldl (fun st q => if qState (qdesc st die q) = 1 then queueError st die q 7 else st) s
  else s

/-- SCHEDULER_CORE_FAILED (R307): the slot no longer runs; on a second failure, before or after the takeover for the
first, every queue of the die stops and the die error is posted as CPSTAT.lost with the host interrupt. The event is the
detection itself, of any of the three causes: an ECC error can strike at any time. -/
def execSchedulerCoreFailed (die core : Nat) (s : State) : Host.Outcome State Fault Refusal :=
  let c := (dieOf s die).scheds.getD core Sched.reset
  if 4 ≤ core || c.failed then .next s
  else
    let st := (dieOf s die).cpstat
    let first := (List.range 4).all fun i => !((dieOf s die).scheds.getD i Sched.reset).failed
    let s := modSched s die core fun c => { c with failed := true }
    let s := modDie s die fun d => { d with cpstat := d.cpstat &&& ~~~(BitVec.ofNat 32 (2 ^ core)) }
    if bit st.toNat 30 && first then .next s
    else
      let s := modDie s die fun d => { d with cpstat := d.cpstat ||| 0x20000000#32 }
      .next (hostIrq (stopQueues s die) die)

/-- STANDBY_TAKEOVER (R307): the standby takes the failed slot and no standby remains. What the journal holds is what
the die's state here already shows, so its replay does nothing twice. -/
def execStandbyTakeover (die : Nat) (s : State) : Host.Outcome State Fault Refusal :=
  let d := dieOf s die
  match (List.range 4).find? fun i => (d.scheds.getD i Sched.reset).failed with
  | some i =>
    if bit d.cpstat.toNat 30 then
      let s := modSched s die i fun _ => d.scheds.getD 4 Sched.reset
      let s := modSched s die 4 fun c => { c with failed := true }
      let s := modDie s die fun d => { d with
        cpstat := ((d.cpstat &&& ~~~0x40000000#32) ||| 0x80000000#32) ||| BitVec.ofNat 32 (2 ^ i) }
      .next (hostIrq { s with justSet := .takeover die :: s.justSet } die)
    else .next s
  | none => .next s

end Sys2Proof.Machine
end

