-- ==== Sys2Proof/Machine/Dispatch.lean ====
section
/-! DEFINITION. The dispatch: one arm per constructor of `Instr`, each one call of its meaning. -/

namespace Sys2Proof.Machine

def exec (i : Instr) (s : State) : Host.Outcome State Fault Refusal :=
  match i with
  | .add d a b => Sys2Proof.Machine.execAdd d a b s
  | .sub d a b => Sys2Proof.Machine.execSub d a b s
  | .and d a b => Sys2Proof.Machine.execAnd d a b s
  | .or d a b => Sys2Proof.Machine.execOr d a b s
  | .xor d a b => Sys2Proof.Machine.execXor d a b s
  | .andn d a b => Sys2Proof.Machine.execAndn d a b s
  | .shl d a b => Sys2Proof.Machine.execShl d a b s
  | .shr d a b => Sys2Proof.Machine.execShr d a b s
  | .sra d a b => Sys2Proof.Machine.execSra d a b s
  | .rotl d a b => Sys2Proof.Machine.execRotl d a b s
  | .min d a b => Sys2Proof.Machine.execMin d a b s
  | .max d a b => Sys2Proof.Machine.execMax d a b s
  | .minu d a b => Sys2Proof.Machine.execMinu d a b s
  | .maxu d a b => Sys2Proof.Machine.execMaxu d a b s
  | .addsat d a b => Sys2Proof.Machine.execAddsat d a b s
  | .subsat d a b => Sys2Proof.Machine.execSubsat d a b s
  | .uadd d a b => Sys2Proof.Machine.execUadd d a b s
  | .usub d a b => Sys2Proof.Machine.execUsub d a b s
  | .uand d a b => Sys2Proof.Machine.execUand d a b s
  | .uor d a b => Sys2Proof.Machine.execUor d a b s
  | .uxor d a b => Sys2Proof.Machine.execUxor d a b s
  | .uandn d a b => Sys2Proof.Machine.execUandn d a b s
  | .ushl d a b => Sys2Proof.Machine.execUshl d a b s
  | .ushr d a b => Sys2Proof.Machine.execUshr d a b s
  | .usra d a b => Sys2Proof.Machine.execUsra d a b s
  | .urotl d a b => Sys2Proof.Machine.execUrotl d a b s
  | .umin d a b => Sys2Proof.Machine.execUmin d a b s
  | .umax d a b => Sys2Proof.Machine.execUmax d a b s
  | .uminu d a b => Sys2Proof.Machine.execUminu d a b s
  | .umaxu d a b => Sys2Proof.Machine.execUmaxu d a b s
  | .uaddsat d a b => Sys2Proof.Machine.execUaddsat d a b s
  | .usubsat d a b => Sys2Proof.Machine.execUsubsat d a b s
  | .mul d a b => Sys2Proof.Machine.execMul d a b s
  | .mulhi d a b => Sys2Proof.Machine.execMulhi d a b s
  | .mulhu d a b => Sys2Proof.Machine.execMulhu d a b s
  | .dot4s d a b => Sys2Proof.Machine.execDot4s d a b s
  | .dot4u d a b => Sys2Proof.Machine.execDot4u d a b s
  | .popc d a => Sys2Proof.Machine.execPopc d a s
  | .clz d a => Sys2Proof.Machine.execClz d a s
  | .ctz d a => Sys2Proof.Machine.execCtz d a s
  | .brev d a => Sys2Proof.Machine.execBrev d a s
  | .abs d a => Sys2Proof.Machine.execAbs d a s
  | .lea d a b k => Sys2Proof.Machine.execLea d a b k s
  | .leas d a b k => Sys2Proof.Machine.execLeas d a b k s
  | .addc d a b q => Sys2Proof.Machine.execAddc d a b q s
  | .subc d a b q => Sys2Proof.Machine.execSubc d a b q s
  | .cmp p a b c => Sys2Proof.Machine.execCmp p a b c s
  | .pand d a b => Sys2Proof.Machine.execPand d a b s
  | .por d a b => Sys2Proof.Machine.execPor d a b s
  | .pxor d a b => Sys2Proof.Machine.execPxor d a b s
  | .pandn d a b => Sys2Proof.Machine.execPandn d a b s
  | .pnot d a => Sys2Proof.Machine.execPnot d a s
  | .pmov d a => Sys2Proof.Machine.execPmov d a s
  | .pset d => Sys2Proof.Machine.execPset d s
  | .pclr d => Sys2Proof.Machine.execPclr d s
  | .sel d a b p => Sys2Proof.Machine.execSel d a b p s
  | .seln d a b p => Sys2Proof.Machine.execSeln d a b p s
  | .div la d a b => Sys2Proof.Machine.execDiv la d a b s
  | .divu la d a b => Sys2Proof.Machine.execDivu la d a b s
  | .rem la d a b => Sys2Proof.Machine.execRem la d a b s
  | .remu la d a b => Sys2Proof.Machine.execRemu la d a b s
  | .addi d a imm => Sys2Proof.Machine.execAddi d a imm s
  | .andi d a imm => Sys2Proof.Machine.execAndi d a imm s
  | .ori d a imm => Sys2Proof.Machine.execOri d a imm s
  | .xori d a imm => Sys2Proof.Machine.execXori d a imm s
  | .shli d a n => Sys2Proof.Machine.execShli d a n s
  | .shri d a n => Sys2Proof.Machine.execShri d a n s
  | .srai d a n => Sys2Proof.Machine.execSrai d a n s
  | .rotli d a n => Sys2Proof.Machine.execRotli d a n s
  | .bfx d a len1 pos => Sys2Proof.Machine.execBfx d a len1 pos s
  | .bfxs d a len1 pos => Sys2Proof.Machine.execBfxs d a len1 pos s
  | .bfi d a len1 pos => Sys2Proof.Machine.execBfi d a len1 pos s
  | .movi d imm => Sys2Proof.Machine.execMovi d imm s
  | .movhi d imm => Sys2Proof.Machine.execMovhi d imm s
  | .uaddi d a imm => Sys2Proof.Machine.execUaddi d a imm s
  | .umovi d imm => Sys2Proof.Machine.execUmovi d imm s
  | .bcast d a => Sys2Proof.Machine.execBcast d a s
  | .rdfirst d a => Sys2Proof.Machine.execRdfirst d a s
  | .fadd d a b m => Sys2Proof.Machine.execFadd d a b m s
  | .fsub d a b m => Sys2Proof.Machine.execFsub d a b m s
  | .fmul d a b m => Sys2Proof.Machine.execFmul d a b m s
  | .fmin d a b => Sys2Proof.Machine.execFmin d a b s
  | .fmax d a b => Sys2Proof.Machine.execFmax d a b s
  | .ffma d a b m => Sys2Proof.Machine.execFfma d a b m s
  | .ffms d a b m => Sys2Proof.Machine.execFfms d a b m s
  | .ffnma d a b m => Sys2Proof.Machine.execFfnma d a b m s
  | .bfadd2 d a b m => Sys2Proof.Machine.execBfadd2 d a b m s
  | .bfsub2 d a b m => Sys2Proof.Machine.execBfsub2 d a b m s
  | .bfmul2 d a b m => Sys2Proof.Machine.execBfmul2 d a b m s
  | .bfmin2 d a b => Sys2Proof.Machine.execBfmin2 d a b s
  | .bfmax2 d a b => Sys2Proof.Machine.execBfmax2 d a b s
  | .bffma2 d a b m => Sys2Proof.Machine.execBffma2 d a b m s
  | .bffms2 d a b m => Sys2Proof.Machine.execBffms2 d a b m s
  | .bffnma2 d a b m => Sys2Proof.Machine.execBffnma2 d a b m s
  | .fcmp p a b c => Sys2Proof.Machine.execFcmp p a b c s
  | .fabs d a => Sys2Proof.Machine.execFabs d a s
  | .fneg d a => Sys2Proof.Machine.execFneg d a s
  | .fclass d a => Sys2Proof.Machine.execFclass d a s
  | .bfabs2 d a => Sys2Proof.Machine.execBfabs2 d a s
  | .bfneg2 d a => Sys2Proof.Machine.execBfneg2 d a s
  | .rcp d a => Sys2Proof.Machine.execRcp d a s
  | .rsqrt d a => Sys2Proof.Machine.execRsqrt d a s
  | .sqrt d a => Sys2Proof.Machine.execSqrt d a s
  | .exp2 d a => Sys2Proof.Machine.execExp2 d a s
  | .log2 d a => Sys2Proof.Machine.execLog2 d a s
  | .sin d a => Sys2Proof.Machine.execSin d a s
  | .cos d a => Sys2Proof.Machine.execCos d a s
  | .sfe d a => Sys2Proof.Machine.execSfe d a s
  | .sfe2 d a => Sys2Proof.Machine.execSfe2 d a s
  | .tblld a => Sys2Proof.Machine.execTblld a s
  | .tblsw => Sys2Proof.Machine.execTblsw s
  | .cvt d a m r x_s t => Sys2Proof.Machine.execCvt d a m r x_s t s
  | .cvto d a b x_s q => Sys2Proof.Machine.execCvto d a b x_s q s
  | .flrd d => Sys2Proof.Machine.execFlrd d s
  | .flclr m => Sys2Proof.Machine.execFlclr m s
  | .ldg la d a o x_s => Sys2Proof.Machine.execLdg la d a o x_s s
  | .lds la d a o x_s => Sys2Proof.Machine.execLds la d a o x_s s
  | .ldh la d a o x_s => Sys2Proof.Machine.execLdh la d a o x_s s
  | .stg la d a imm o x_s => Sys2Proof.Machine.execStg la d a imm o x_s s
  | .sts la d a imm o x_s => Sys2Proof.Machine.execSts la d a imm o x_s s
  | .sth la d a imm o x_s => Sys2Proof.Machine.execSth la d a imm o x_s s
  | .ldsys la d a o x_s => Sys2Proof.Machine.execLdsys la d a o x_s s
  | .stsys la d a o x_s => Sys2Proof.Machine.execStsys la d a o x_s s
  | .pfl1 la a => Sys2Proof.Machine.execPfl1 la a s
  | .pfl2 la a => Sys2Proof.Machine.execPfl2 la a s
  | .evl1 la a => Sys2Proof.Machine.execEvl1 la a s
  | .atomg la d a r x_s w o => Sys2Proof.Machine.execAtomg la d a r x_s w o s
  | .atoms la d a r w o => Sys2Proof.Machine.execAtoms la d a r w o s
  | .atomh la d a r w o => Sys2Proof.Machine.execAtomh la d a r w o s
  | .barw la => Sys2Proof.Machine.execBarw la s
  | .barb la => Sys2Proof.Machine.execBarb la s
  | .barc la k => Sys2Proof.Machine.execBarc la k s
  | .barg la k => Sys2Proof.Machine.execBarg la k s
  | .tbinit la a b => Sys2Proof.Machine.execTbinit la a b s
  | .tbarr la a => Sys2Proof.Machine.execTbarr la a s
  | .tbarrOne la a => Sys2Proof.Machine.execTbarrOne la a s
  | .tbexp la a b => Sys2Proof.Machine.execTbexp la a b s
  | .tbwait la a b => Sys2Proof.Machine.execTbwait la a b s
  | .fenceEng d => Sys2Proof.Machine.execFenceEng d s
  | .fenceSys d => Sys2Proof.Machine.execFenceSys d s
  | .fenceMir d => Sys2Proof.Machine.execFenceMir d s
  | .fenceAll d => Sys2Proof.Machine.execFenceAll d s
  | .fwait a => Sys2Proof.Machine.execFwait a s
  | .waitcLd n => Sys2Proof.Machine.execWaitcLd n s
  | .waitcSt n => Sys2Proof.Machine.execWaitcSt n s
  | .xlaneAt d a b => Sys2Proof.Machine.execXlaneAt d a b s
  | .xlaneBack d a b => Sys2Proof.Machine.execXlaneBack d a b s
  | .xlaneFwd d a b => Sys2Proof.Machine.execXlaneFwd d a b s
  | .xlaneSwz d a b => Sys2Proof.Machine.execXlaneSwz d a b s
  | .push d a b => Sys2Proof.Machine.execPush d a b s
  | .scanAdd d a => Sys2Proof.Machine.execScanAdd d a s
  | .scanAddx d a => Sys2Proof.Machine.execScanAddx d a s
  | .scanMin d a => Sys2Proof.Machine.execScanMin d a s
  | .scanMax d a => Sys2Proof.Machine.execScanMax d a s
  | .pgath d a => Sys2Proof.Machine.execPgath d a s
  | .pall d a => Sys2Proof.Machine.execPall d a s
  | .pany d a => Sys2Proof.Machine.execPany d a s
  | .lsame d a => Sys2Proof.Machine.execLsame d a s
  | .lsameAll d a => Sys2Proof.Machine.execLsameAll d a s
  | .lfoldAdd d a => Sys2Proof.Machine.execLfoldAdd d a s
  | .lfoldMin d a => Sys2Proof.Machine.execLfoldMin d a s
  | .lfoldMax d a => Sys2Proof.Machine.execLfoldMax d a s
  | .lfoldAnd d a => Sys2Proof.Machine.execLfoldAnd d a s
  | .lfoldOr d a => Sys2Proof.Machine.execLfoldOr d a s
  | .lfoldXor d a => Sys2Proof.Machine.execLfoldXor d a s
  | .cpy la a b n r z => Sys2Proof.Machine.execCpy la a b n r z s
  | .tld la a b x => Sys2Proof.Machine.execTld la a b x s
  | .tst la a b x => Sys2Proof.Machine.execTst la a b x s
  | .mcast la a b => Sys2Proof.Machine.execMcast la a b s
  | .slotClaim la k => Sys2Proof.Machine.execSlotClaim la k s
  | .slotRel la k => Sys2Proof.Machine.execSlotRel la k s
  | .spawn a b => Sys2Proof.Machine.execSpawn a b s
  | .idem => Sys2Proof.Machine.execIdem s
  | .idemx => Sys2Proof.Machine.execIdemx s
  | .yield imm => Sys2Proof.Machine.execYield imm s
  | .lxbase d a => Sys2Proof.Machine.execLxbase d a s
  | .lxext0 d a => Sys2Proof.Machine.execLxext0 d a s
  | .lxext1 d a => Sys2Proof.Machine.execLxext1 d a s
  | .lxext2 d a => Sys2Proof.Machine.execLxext2 d a s
  | .lxext3 d a => Sys2Proof.Machine.execLxext3 d a s
  | .gkset a => Sys2Proof.Machine.execGkset a s
  | .gkrd d => Sys2Proof.Machine.execGkrd d s
  | .mma la a b f x_s => Sys2Proof.Machine.execMma la a b f x_s s
  | .accld la d a x_s => Sys2Proof.Machine.execAccld la d a x_s s
  | .accst la d a f => Sys2Proof.Machine.execAccst la d a f s
  | .mmack la d => Sys2Proof.Machine.execMmack la d s
  | .mmackCut la d => Sys2Proof.Machine.execMmackCut la d s
  | .tdec la a b f => Sys2Proof.Machine.execTdec la a b f s
  | .tdecQ la a f => Sys2Proof.Machine.execTdecQ la a f s
  | .venc la a b f => Sys2Proof.Machine.execVenc la a b f s
  | .twget la d a f => Sys2Proof.Machine.execTwget la d a f s
  | .bra c o => Sys2Proof.Machine.execBra c o s
  | .call c o => Sys2Proof.Machine.execCall c o s
  | .jmp a => Sys2Proof.Machine.execJmp a s
  | .callr a => Sys2Proof.Machine.execCallr a s
  | .ret => Sys2Proof.Machine.execRet s
  | .exit => Sys2Proof.Machine.execExit s
  | .fuse => Sys2Proof.Machine.execFuse s
  | .trap c => Sys2Proof.Machine.execTrap c s
  | .guard p n => Sys2Proof.Machine.execGuard p n s
  | .guardN p n => Sys2Proof.Machine.execGuardN p n s
  | .loop d a b => Sys2Proof.Machine.execLoop d a b s
  | .loopLong d a b => Sys2Proof.Machine.execLoopLong d a b s
  | .brk d => Sys2Proof.Machine.execBrk d s
  | .wbase n => Sys2Proof.Machine.execWbase n s
  | .movs d x_s => Sys2Proof.Machine.execMovs d x_s s
  | .nop => Sys2Proof.Machine.execNop s
  | .pshare a b => Sys2Proof.Machine.execPshare a b s
  | .pshareRo a b => Sys2Proof.Machine.execPshareRo a b s
  | .prel a b => Sys2Proof.Machine.execPrel a b s
  | .pq a d => Sys2Proof.Machine.execPq a d s
  | .nput a b w => Sys2Proof.Machine.execNput a b w s
  | .nget a b w => Sys2Proof.Machine.execNget a b w s
  | .ncoll a b w => Sys2Proof.Machine.execNcoll a b w s
  | .nscmax a b w => Sys2Proof.Machine.execNscmax a b w s
  | .nsum a b w => Sys2Proof.Machine.execNsum a b w s
  | .dxfer a => Sys2Proof.Machine.execDxfer a s
  | .sigst a b => Sys2Proof.Machine.execSigst a b s
  | .sigadd a b => Sys2Proof.Machine.execSigadd a b s
  | .xrf x_s d => Sys2Proof.Machine.execXrf x_s d s
  | .xbfx imm x_s d => Sys2Proof.Machine.execXbfx imm x_s d s
  | .xsw t x_s d => Sys2Proof.Machine.execXsw t x_s d s
  | .xdisp x_s d => Sys2Proof.Machine.execXdisp x_s d s
  | .xjr t x_s d => Sys2Proof.Machine.execXjr t x_s d s
  | .schedulingDecision die pos laneSet => Sys2Proof.Machine.execSchedulingDecision die pos laneSet s
  | .quadSplit die pos slot quad => Sys2Proof.Machine.execQuadSplit die pos slot quad s
  | .pathForced die pos slot grp pc => Sys2Proof.Machine.execPathForced die pos slot grp pc s
  | .fuseHoldExpiry die pos slot pc => Sys2Proof.Machine.execFuseHoldExpiry die pos slot pc s
  | .bedTimerExpiry die pos bed => Sys2Proof.Machine.execBedTimerExpiry die pos bed s
  | .bedLaunch die pos bed => Sys2Proof.Machine.execBedLaunch die pos bed s
  | .watchdogExpiry die pos slot => Sys2Proof.Machine.execWatchdogExpiry die pos slot s
  | .divideResult op => Sys2Proof.Machine.execDivideResult op s
  | .loadDataReturn op lane => Sys2Proof.Machine.execLoadDataReturn op lane s
  | .storePerformed op lane => Sys2Proof.Machine.execStorePerformed op lane s
  | .atomicElementApply op lane => Sys2Proof.Machine.execAtomicElementApply op lane s
  | .hoodAccessArrival op lane => Sys2Proof.Machine.execHoodAccessArrival op lane s
  | .signalInstructionUpdate op => Sys2Proof.Machine.execSignalInstructionUpdate op s
  | .clusterStopped die cl => Sys2Proof.Machine.execClusterStopped die cl s
  | .pathReplay die pos slot rec => Sys2Proof.Machine.execPathReplay die pos slot rec s
  | .faultRecordPost die => Sys2Proof.Machine.execFaultRecordPost die s
  | .copyUnitPerformed op lane => Sys2Proof.Machine.execCopyUnitPerformed op lane s
  | .tensorCopyPart op part => Sys2Proof.Machine.execTensorCopyPart op part s
  | .mcastChunk op recv chunk => Sys2Proof.Machine.execMcastChunk op recv chunk s
  | .mmaKstepComplete op => Sys2Proof.Machine.execMmaKstepComplete op s
  | .arrayHangReset op => Sys2Proof.Machine.execArrayHangReset op s
  | .tdecSector op sector => Sys2Proof.Machine.execTdecSector op sector s
  | .tdecQRow op => Sys2Proof.Machine.execTdecQRow op s
  | .vencBlock op => Sys2Proof.Machine.execVencBlock op s
  | .accstSector op sector => Sys2Proof.Machine.execAccstSector op sector s
  | .accldRead op lane => Sys2Proof.Machine.execAccldRead op lane s
  | .twgetResult op lane => Sys2Proof.Machine.execTwgetResult op lane s
  | .tblldCopy die pos entry => Sys2Proof.Machine.execTblldCopy die pos entry s
  | .packageReset => Sys2Proof.Machine.execPackageReset s
  | .bootRomReady => Sys2Proof.Machine.execBootRomReady s
  | .fwrangeWrite v => Sys2Proof.Machine.execFwrangeWrite v s
  | .firmwareVerify => Sys2Proof.Machine.execFirmwareVerify s
  | .feataccWrite k v => Sys2Proof.Machine.execFeataccWrite k v s
  | .memcfgWrite v => Sys2Proof.Machine.execMemcfgWrite v s
  | .keypolWrite v => Sys2Proof.Machine.execKeypolWrite v s
  | .ctxheapWrite size v => Sys2Proof.Machine.execCtxheapWrite size v s
  | .heapbwWrite v => Sys2Proof.Machine.execHeapbwWrite v s
  | .vfsliceWrite v => Sys2Proof.Machine.execVfsliceWrite v s
  | .pwrcapWrite v => Sys2Proof.Machine.execPwrcapWrite v s
  | .qdescBaseWrite die v => Sys2Proof.Machine.execQdescBaseWrite die v s
  | .mircfgWrite v => Sys2Proof.Machine.execMircfgWrite v s
  | .clkindWrite die v => Sys2Proof.Machine.execClkindWrite die v s
  | .clusterRebind die => Sys2Proof.Machine.execClusterRebind die s
  | .tlbinvWrite v => Sys2Proof.Machine.execTlbinvWrite v s
  | .tlbinvComplete => Sys2Proof.Machine.execTlbinvComplete s
  | .pooladdWrite v => Sys2Proof.Machine.execPooladdWrite v s
  | .rcwinWrite frame v => Sys2Proof.Machine.execRcwinWrite frame v s
  | .confwatchWrite die imm v => Sys2Proof.Machine.execConfwatchWrite die imm v s
  | .hooddropClear die cl => Sys2Proof.Machine.execHooddropClear die cl s
  | .ringBaseWrite die ring v => Sys2Proof.Machine.execRingBaseWrite die ring v s
  | .ringConsWrite die ring v => Sys2Proof.Machine.execRingConsWrite die ring v s
  | .migtailWrite die v => Sys2Proof.Machine.execMigtailWrite die v s
  | .registerWrite fn offset v => Sys2Proof.Machine.execRegisterWrite fn offset v s
  | .qtailWrite die q v => Sys2Proof.Machine.execQtailWrite die q v s
  | .queueStart die q => Sys2Proof.Machine.execQueueStart die q s
  | .queueReset die q => Sys2Proof.Machine.execQueueReset die q s
  | .queueResetReport die => Sys2Proof.Machine.execQueueResetReport die s
  | .faultreplyResume die seq => Sys2Proof.Machine.execFaultreplyResume die seq s
  | .faultreplyKill die seq => Sys2Proof.Machine.execFaultreplyKill die seq s
  | .signotifyWrite die v => Sys2Proof.Machine.execSignotifyWrite die v s
  | .debugGo die cl v => Sys2Proof.Machine.execDebugGo die cl v s
  | .debugStep die cl v => Sys2Proof.Machine.execDebugStep die cl v s
  | .dbgaccRead die cl v => Sys2Proof.Machine.execDbgaccRead die cl v s
  | .dbgaccWrite die cl v => Sys2Proof.Machine.execDbgaccWrite die cl v s
  | .checkpointSave cmd => Sys2Proof.Machine.execCheckpointSave cmd s
  | .checkpointRestore cmd => Sys2Proof.Machine.execCheckpointRestore cmd s
  | .checkpointComplete => Sys2Proof.Machine.execCheckpointComplete s
  | .getVersion => Sys2Proof.Machine.execGetVersion s
  | .getCapabilities => Sys2Proof.Machine.execGetCapabilities s
  | .negotiateAlgorithms => Sys2Proof.Machine.execNegotiateAlgorithms s
  | .getDigests => Sys2Proof.Machine.execGetDigests s
  | .getCertificate => Sys2Proof.Machine.execGetCertificate s
  | .challenge => Sys2Proof.Machine.execChallenge s
  | .getMeasurements signed inSession => Sys2Proof.Machine.execGetMeasurements signed inSession s
  | .keyExchange => Sys2Proof.Machine.execKeyExchange s
  | .finish => Sys2Proof.Machine.execFinish s
  | .keyrel inSession gen pairs => Sys2Proof.Machine.execKeyrel inSession gen pairs s
  | .unsupportedRequest code => Sys2Proof.Machine.execUnsupportedRequest code s
  | .worldSwitch => Sys2Proof.Machine.execWorldSwitch s
  | .functionLevelReset vf => Sys2Proof.Machine.execFunctionLevelReset vf s
  | .peerMemoryAccess write pa bytes => Sys2Proof.Machine.execPeerMemoryAccess write pa bytes s
  | .packetDispatch die q => Sys2Proof.Machine.execPacketDispatch die q s
  | .packetBarrier die q => Sys2Proof.Machine.execPacketBarrier die q s
  | .barrierReevaluate die q packet => Sys2Proof.Machine.execBarrierReevaluate die q packet s
  | .barrierRereadTimeout die q packet => Sys2Proof.Machine.execBarrierRereadTimeout die q packet s
  | .packetSignal die q => Sys2Proof.Machine.execPacketSignal die q s
  | .packetDieTransfer die q => Sys2Proof.Machine.execPacketDieTransfer die q s
  | .dieTransferPart op part => Sys2Proof.Machine.execDieTransferPart op part s
  | .completionSignalUpdate die upd => Sys2Proof.Machine.execCompletionSignalUpdate die upd s
  | .gridBarrierBlockArrival grid blk k => Sys2Proof.Machine.execGridBarrierBlockArrival grid blk k s
  | .schedulerCoreFailed die core => Sys2Proof.Machine.execSchedulerCoreFailed die core s
  | .standbyTakeover die => Sys2Proof.Machine.execStandbyTakeover die s
  | .placementRound die => Sys2Proof.Machine.execPlacementRound die s
  | .restoreListEntry die pos => Sys2Proof.Machine.execRestoreListEntry die pos s
  | .neighbourhoodStarving die grid hood => Sys2Proof.Machine.execNeighbourhoodStarving die grid hood s
  | .saveCapture grid hood => Sys2Proof.Machine.execSaveCapture grid hood s
  | .saveToDrain grid hood => Sys2Proof.Machine.execSaveToDrain grid hood s
  | .blockFlush grid hood => Sys2Proof.Machine.execBlockFlush grid hood s
  | .contextSaved ctx => Sys2Proof.Machine.execContextSaved ctx s
  | .contextDiscard ctx => Sys2Proof.Machine.execContextDiscard ctx s
  | .partialCompletionRecord die => Sys2Proof.Machine.execPartialCompletionRecord die s
  | .coppiceSlot die cl => Sys2Proof.Machine.execCoppiceSlot die cl s
  | .coppiceScanStart die pos => Sys2Proof.Machine.execCoppiceScanStart die pos s
  | .coppiceScanDone die pos bad => Sys2Proof.Machine.execCoppiceScanDone die pos bad s
  | .suspectReport die => Sys2Proof.Machine.execSuspectReport die s
  | .confirmedShadowCopy die imm => Sys2Proof.Machine.execConfirmedShadowCopy die imm s
  | .uncorrectableError sp addr => Sys2Proof.Machine.execUncorrectableError sp addr s
  | .copyOnWriteResolution die asid vpage => Sys2Proof.Machine.execCopyOnWriteResolution die asid vpage s
  | .tierMove die asid vpage readError => Sys2Proof.Machine.execTierMove die asid vpage readError s
  | .migrationCommand die => Sys2Proof.Machine.execMigrationCommand die s
  | .demotionCopyDone die => Sys2Proof.Machine.execDemotionCopyDone die s
  | .ngurothPutFlit port hdr pay => Sys2Proof.Machine.execNgurothPutFlit port hdr pay s
  | .getRequest port hdr pay => Sys2Proof.Machine.execGetRequest port hdr pay s
  | .getData port hdr pay op sector err => Sys2Proof.Machine.execGetData port hdr pay op sector err s
  | .acknowledgement port hdr op sector err => Sys2Proof.Machine.execAcknowledgement port hdr op sector err s
  | .combine port hdr pay => Sys2Proof.Machine.execCombine port hdr pay s
  | .remoteSignalFlit port hdr => Sys2Proof.Machine.execRemoteSignalFlit port hdr s
  | .mirrorFlit port hdr pay => Sys2Proof.Machine.execMirrorFlit port hdr pay s
  | .mirrorAck id => Sys2Proof.Machine.execMirrorAck id s
  | .mirrorAckTimeout => Sys2Proof.Machine.execMirrorAckTimeout s
  | .sectorAckTimeout op sector => Sys2Proof.Machine.execSectorAckTimeout op sector s
  | .portDown port => Sys2Proof.Machine.execPortDown port s
  | .systemStoreAcknowledged op lane err => Sys2Proof.Machine.execSystemStoreAcknowledged op lane err s
  | .xswWaitTimeout die core => Sys2Proof.Machine.execXswWaitTimeout die core s
  | .portUp port => Sys2Proof.Machine.execPortUp port s

end Sys2Proof.Machine
end

