-- ==== Sys2Proof/Machine/Riscv.lean ====
section
/-! DEFINITION. RV64IMAC on a scheduler core (R304). The manual names the standard and does not restate it:
what each instruction does is taken from the published standard (log 8), loads and stores included; the
manual gives no map of firmware addresses, so which store an address names is free (log 14). -/

namespace Sys2Proof.Machine

/-- What an instruction of the core comes to: it goes on with a value for rd at a new program counter, or traps
with a cause and a value. -/
inductive RvEnd where
  | go (rd : Nat) (v : BitVec 64) (pc : BitVec 64)
  | trap (cause : Nat) (tval : BitVec 64)
  deriving DecidableEq, Repr

/-- A field of an instruction, sign-extended from `n` bits. -/
def sx (n v : Nat) : BitVec 64 := (BitVec.ofNat n v).signExtend 64

/-- The immediate of the I format. -/
def immI (w : Nat) : BitVec 64 := sx 12 (bits w 31 20)
/-- The immediate of the S format. -/
def immS (w : Nat) : BitVec 64 := sx 12 (bits w 31 25 * 32 + bits w 11 7)
/-- The immediate of the B format. -/
def immB (w : Nat) : BitVec 64 :=
  sx 13 (bits w 31 31 * 4096 + bits w 7 7 * 2048 + bits w 30 25 * 32 + bits w 11 8 * 2)
/-- The immediate of the U format. -/
def immU (w : Nat) : BitVec 64 := sx 32 (bits w 31 12 * 4096)
/-- The immediate of the J format. -/
def immJ (w : Nat) : BitVec 64 :=
  sx 21 (bits w 31 31 * 1048576 + bits w 19 12 * 4096 + bits w 20 20 * 2048 + bits w 30 21 * 2)

/-- Sign-extend the low word of a value. -/
def lowWord (v : BitVec 64) : BitVec 64 := (v.setWidth 32).signExtend 64

/-- Signed division of the standard at a width: by zero all ones, the overflow wraps. -/
def rvDiv {n : Nat} (a b : BitVec n) : BitVec n := if b = 0 then -1 else a.sdiv b
/-- Signed remainder of the standard at a width: by zero the dividend. -/
def rvRem {n : Nat} (a b : BitVec n) : BitVec n := if b = 0 then a else a.srem b
/-- Unsigned division: by zero all ones. -/
def rvDivu {n : Nat} (a b : BitVec n) : BitVec n := if b = 0 then -1 else a.udiv b
/-- Unsigned remainder: by zero the dividend. -/
def rvRemu {n : Nat} (a b : BitVec n) : BitVec n := if b = 0 then a else a.umod b

/-- The 64-bit integer operations by funct3, `alt` the second of a pair. -/
def rvAlu (f3 : Nat) (alt : Bool) (a b : BitVec 64) : BitVec 64 :=
  let n := b.toNat % 64
  match f3 with
  | 0 => if alt then a - b else a + b
  | 1 => a <<< n
  | 2 => if a.slt b then 1 else 0
  | 3 => if a.ult b then 1 else 0
  | 4 => a ^^^ b
  | 5 => if alt then a.sshiftRight n else a >>> n
  | 6 => a ||| b
  | _ => a &&& b

/-- The 32-bit forms. -/
def rvAluW (f3 : Nat) (alt : Bool) (a b : BitVec 64) : Option (BitVec 64) :=
  let x := a.setWidth 32
  let n := b.toNat % 32
  match f3 with
  | 0 => some (lowWord (if alt then a - b else a + b))
  | 1 => some ((x <<< n).signExtend 64)
  | 5 => some ((if alt then x.sshiftRight n else x >>> n).signExtend 64)
  | _ => none

/-- The M extension. -/
def rvMul (f3 : Nat) (a b : BitVec 64) : BitVec 64 :=
  match f3 with
  | 0 => a * b
  | 1 => BitVec.ofInt 64 (a.toInt * b.toInt / 2 ^ 64)
  | 2 => BitVec.ofInt 64 (a.toInt * b.toNat / 2 ^ 64)
  | 3 => BitVec.ofNat 64 (a.toNat * b.toNat / 2 ^ 64)
  | 4 => rvDiv a b
  | 5 => rvDivu a b
  | 6 => rvRem a b
  | _ => rvRemu a b

/-- The 32-bit forms of the M extension. -/
def rvMulW (f3 : Nat) (a b : BitVec 64) : Option (BitVec 64) :=
  let x := a.setWidth 32
  let y := b.setWidth 32
  match f3 with
  | 0 => some ((x * y).signExtend 64)
  | 4 => some ((rvDiv x y).signExtend 64)
  | 5 => some ((rvDivu x y).signExtend 64)
  | 6 => some ((rvRem x y).signExtend 64)
  | 7 => some ((rvRemu x y).signExtend 64)
  | _ => none

/-- The condition of a branch. -/
def rvTakes (f3 : Nat) (a b : BitVec 64) : Option Bool :=
  match f3 with
  | 0 => some (a = b)
  | 1 => some (a ≠ b)
  | 4 => some (a.slt b)
  | 5 => some (!(a.slt b))
  | 6 => some (a.ult b)
  | 7 => some (!(a.ult b))
  | _ => none

/-- The value that an atomic memory operation stores. -/
def rvAmo (f5 : Nat) (m r : BitVec 64) : Option (BitVec 64) :=
  match f5 with
  | 0 => some (m + r)
  | 1 => some r
  | 4 => some (m ^^^ r)
  | 8 => some (m ||| r)
  | 12 => some (m &&& r)
  | 16 => some (if m.slt r then m else r)
  | 20 => some (if m.slt r then r else m)
  | 24 => some (if m.ult r then m else r)
  | 28 => some (if m.ult r then r else m)
  | _ => none

/-! ### The compressed forms, as the words they stand for -/

/-- A word of the I format. -/
def encI (op f3 rd rs1 imm : Nat) : Nat := op + rd * 128 + f3 * 4096 + rs1 * 32768 + imm % 4096 * 1048576
/-- A word of the R format. -/
def encR (op f3 f7 rd rs1 rs2 : Nat) : Nat :=
  op + rd * 128 + f3 * 4096 + rs1 * 32768 + rs2 * 1048576 + f7 * 33554432
/-- A word of the S format. -/
def encS (f3 rs1 rs2 imm : Nat) : Nat :=
  0x23 + imm % 32 * 128 + f3 * 4096 + rs1 * 32768 + rs2 * 1048576 + imm / 32 % 128 * 33554432
/-- A word of the B format; the offset is taken modulo 8192. -/
def encB (f3 rs1 rs2 imm : Nat) : Nat :=
  0x63 + bits imm 11 11 * 128 + bits imm 4 1 * 256 + f3 * 4096 + rs1 * 32768 + rs2 * 1048576 +
    bits imm 10 5 * 33554432 + bits imm 12 12 * 2147483648
/-- A word of the J format; the offset is taken modulo 2^21. -/
def encJ (rd imm : Nat) : Nat :=
  0x6F + rd * 128 + bits imm 19 12 * 4096 + bits imm 11 11 * 1048576 + bits imm 10 1 * 2097152 +
    bits imm 20 20 * 2147483648

/-- The low `n` bits of a sign-extended field of `k` bits. -/
def sxTo (n k v : Nat) : Nat := ((BitVec.ofNat k v).signExtend n).toNat

/-- The word that a compressed parcel of quadrant 0 stands for. -/
def expand0 (h : Nat) : Option Nat :=
  let rd := bits h 4 2 + 8
  let rs := bits h 9 7 + 8
  let u4 := bits h 12 10 * 8 + bits h 6 6 * 4 + bits h 5 5 * 64
  let u8 := bits h 12 10 * 8 + bits h 6 5 * 64
  match bits h 15 13 with
  | 0 =>
    let u := bits h 12 11 * 16 + bits h 10 7 * 64 + bits h 6 6 * 4 + bits h 5 5 * 8
    if u = 0 then none else some (encI 0x13 0 rd 2 u)
  | 2 => some (encI 0x03 2 rd rs u4)
  | 3 => some (encI 0x03 3 rd rs u8)
  | 6 => some (encS 2 rs rd u4)
  | 7 => some (encS 3 rs rd u8)
  | _ => none

/-- Quadrant 1. -/
def expand1 (h : Nat) : Option Nat :=
  let rd := bits h 11 7
  let rp := bits h 9 7 + 8
  let rq := bits h 4 2 + 8
  let u := bits h 12 12 * 32 + bits h 6 2
  let i := sxTo 12 6 u
  let j := sxTo 21 12 (bits h 12 12 * 2048 + bits h 11 11 * 16 + bits h 10 9 * 256 + bits h 8 8 * 1024 +
    bits h 7 7 * 64 + bits h 6 6 * 128 + bits h 5 3 * 2 + bits h 2 2 * 32)
  let b := sxTo 13 9 (bits h 12 12 * 256 + bits h 11 10 * 8 + bits h 6 5 * 64 + bits h 4 3 * 2 + bits h 2 2 * 32)
  match bits h 15 13 with
  | 0 => some (encI 0x13 0 rd rd i)
  | 1 => if rd = 0 then none else some (encI 0x1B 0 rd rd i)
  | 2 => some (encI 0x13 0 rd 0 i)
  | 3 =>
    if rd = 2 then
      let n := sxTo 12 10 (bits h 12 12 * 512 + bits h 6 6 * 16 + bits h 5 5 * 64 + bits h 4 3 * 128 +
        bits h 2 2 * 32)
      if n = 0 then none else some (encI 0x13 0 2 2 n)
    else if u = 0 then none else some (0x37 + rd * 128 + sxTo 20 6 u * 4096)
  | 4 =>
    match bits h 11 10 with
    | 0 => some (encI 0x13 5 rp rp u)
    | 1 => some (encI 0x13 5 rp rp (u + 1024))
    | 2 => some (encI 0x13 7 rp rp i)
    | _ =>
      match bits h 12 12, bits h 6 5 with
      | 0, 0 => some (encR 0x33 0 32 rp rp rq)
      | 0, 1 => some (encR 0x33 4 0 rp rp rq)
      | 0, 2 => some (encR 0x33 6 0 rp rp rq)
      | 0, 3 => some (encR 0x33 7 0 rp rp rq)
      | 1, 0 => some (encR 0x3B 0 32 rp rp rq)
      | 1, 1 => some (encR 0x3B 0 0 rp rp rq)
      | _, _ => none
  | 5 => some (encJ 0 j)
  | 6 => some (encB 0 rp 0 b)
  | _ => some (encB 1 rp 0 b)

/-- Quadrant 2. -/
def expand2 (h : Nat) : Option Nat :=
  let rd := bits h 11 7
  let rs := bits h 6 2
  match bits h 15 13 with
  | 0 => some (encI 0x13 1 rd rd (bits h 12 12 * 32 + rs))
  | 2 =>
    if rd = 0 then none
    else some (encI 0x03 2 rd 2 (bits h 12 12 * 32 + bits h 6 4 * 4 + bits h 3 2 * 64))
  | 3 =>
    if rd = 0 then none
    else some (encI 0x03 3 rd 2 (bits h 12 12 * 32 + bits h 6 5 * 8 + bits h 4 2 * 64))
  | 4 =>
    if bits h 12 12 = 0 then
      if rs = 0 then (if rd = 0 then none else some (encI 0x67 0 0 rd 0)) else some (encR 0x33 0 0 rd 0 rs)
    else if rs = 0 then (if rd = 0 then some 0x00100073 else some (encI 0x67 0 1 rd 0))
    else some (encR 0x33 0 0 rd rd rs)
  | 6 => some (encS 2 2 rs (bits h 12 9 * 4 + bits h 8 7 * 64))
  | 7 => some (encS 3 2 rs (bits h 12 10 * 8 + bits h 9 7 * 64))
  | _ => none

/-- The word a compressed parcel stands for, none where the standard reserves it. -/
def expandC (h : Nat) : Option Nat :=
  match h % 4 with
  | 0 => expand0 h
  | 1 => expand1 h
  | 2 => expand2 h
  | _ => none

/-! ### Memory and control registers -/

/-- The range `[a, a+n)` lies wholly in one region of the physical address map (R355). -/
def rangeMapped (a n : Nat) : Bool :=
  rangeInHbm a n || (inGfam a && inGfam (a + n - 1)) || (inHost a && inHost (a + n - 1))

/-- The store that the `n` bytes at a firmware address lie in: free between the core's local memory and package physical
memory (log 14); none at or above 2^52 and in no region of the physical map (R355). -/
def rvSpace (s : State) (a n : Nat) : Option Space :=
  if Config.physTop < a + n then none
  else if Config.firmwareLocal a then some (.cpLocal s.cur.die)
  else if rangeMapped a n then some .phys
  else none

/-- A load of `n` bytes, none where no memory is (log 8). -/
def rvLoad (s : State) (a : BitVec 64) (n : Nat) : Option Nat :=
  (rvSpace s a.toNat n).map fun sp => readN s sp a.toNat n

/-- The stores of `n` bytes that package memory keeps for later fetches and reservations (R169, log 8). -/
def rvLogged (s : State) (sp : Space) (a n : Nat) : State := if sp = .phys then logWords s a n else s

/-- A store of `n` bytes, none where no memory is; it ends the reservations of the die's cores on the doublewords it
touches (log 8). -/
def rvStore (s : State) (a : BitVec 64) (n v : Nat) : Option State :=
  (rvSpace s a.toNat n).map fun sp => modDie (rvLogged (writeN s sp a.toNat n v) sp a.toNat n) s.cur.die fun d => { d with
    scheds := d.scheds.map fun c => match c.resv with
      | some r => if a.toNat / 8 ≤ r.1 && r.1 ≤ (a.toNat + n - 1) / 8 then { c with resv := none } else c
      | none => c }

/-- The reservation of a doubleword still stands: no store of another core, a thread or an engine has reached it since
the load-reserved (log 8). -/
def reserved (s : State) (c : Sched) (dw : Nat) : Bool :=
  match c.resv with
  | some (r, seen) => r = dw && (Config.firmwareLocal (8 * dw) || !((s.codeLog.drop seen).any fun x => x.1 / 8 = dw))
  | none => false

/-- Cycles of the command processor's clock, 1.2 GHz, since reset (R304). -/
def cpCycles (s : State) : BitVec 64 := BitVec.ofNat 64 (s.ns * 6 / 5)

/-- The number is one of the performance counters and event selectors that the standard lets read as zero. -/
def zeroCounter (n : Nat) : Bool :=
  (decide (0xB03 ≤ n) && decide (n ≤ 0xB1F)) || (decide (0x323 ≤ n) && decide (n ≤ 0x33F)) || n = 0x320

/-- The machine-mode register of a number, none where the core has none; `now` is the clock. -/
def rvCsr (c : Sched) (now : BitVec 64) (core n : Nat) : Option (BitVec 64) :=
  match n with
  | 0x300 => some c.mstatus
  | 0x301 => some 0x8000000000001105#64
  | 0x304 => some c.mie
  | 0x305 => some c.mtvec
  | 0x340 => some c.mscratch
  | 0x341 => some c.mepc
  | 0x342 => some c.mcause
  | 0x343 => some c.mtval
  | 0x344 => some 0
  | 0xF11 => some 0
  | 0xF12 => some 0
  | 0xF13 => some 0
  | 0xF14 => some (BitVec.ofNat 64 core)
  | 0xF15 => some 0
  | 0xB00 => some (now + c.cycleOff)
  | 0xB02 => some c.instret
  | n => if zeroCounter n then some 0 else none

/-- Write a machine-mode register; misa and mip keep their value. minstret does not count the instruction that writes
it. -/
def rvSetCsr (c : Sched) (now : BitVec 64) (n : Nat) (v : BitVec 64) : Sched :=
  match n with
  | 0x300 => { c with mstatus := BitVec.ofNat 64 (0x1800 + bits v.toNat 7 7 * 128 + bits v.toNat 3 3 * 8) }
  | 0x304 => { c with mie := v }
  | 0x305 => { c with mtvec := v &&& ~~~2#64 }
  | 0x340 => { c with mscratch := v }
  | 0x341 => { c with mepc := v &&& ~~~1#64 }
  | 0x342 => { c with mcause := v }
  | 0x343 => { c with mtval := v }
  | 0xB00 => { c with cycleOff := v - now }
  | 0xB02 => { c with instret := v - 1 }
  | _ => c

/-- The end of one instruction: rd and the program counter, or the trap. -/
def rvEnd (s : State) (e : RvEnd) : State :=
  match e with
  | .go rd v pc => modSched s s.cur.die s.cur.core fun c => { (c.setReg rd v) with pc := pc, instret := c.instret + 1 }
  | .trap cause tval => schedTrap s cause tval

/-- Loads: the value of funct3, none where the standard reserves it. -/
def rvLoaded (f3 raw : Nat) : Option (BitVec 64) :=
  match f3 with
  | 0 => some (sx 8 raw)
  | 1 => some (sx 16 raw)
  | 2 => some (sx 32 raw)
  | 3 | 4 | 5 | 6 => some (BitVec.ofNat 64 raw)
  | _ => none

/-- The A extension: load-reserved, store-conditional and the read-modify-write operations; where no memory is, the
standard's access fault. -/
def rvAtomic (s : State) (w : Nat) (a b : BitVec 64) (next : BitVec 64) : State :=
  let n := if bits w 14 12 = 2 then 4 else 8
  let rd := bits w 11 7
  let f5 := bits w 31 27
  let raw := rvLoad s a n
  let old := if n = 4 then sx 32 (raw.getD 0) else BitVec.ofNat 64 (raw.getD 0)
  let stored := fun v e => match rvStore s a n v with
    | some t => rvEnd t e
    | none => rvEnd s (.trap 7 a)
  let bad := rvEnd s (.trap 2 (BitVec.ofNat 64 w))
  if bits w 14 12 ≠ 2 && bits w 14 12 ≠ 3 then bad
  else if f5 = 2 then
    if bits w 24 20 ≠ 0 then bad
    else if a.toNat % n ≠ 0 then rvEnd s (.trap 4 a)
    else if raw.isNone then rvEnd s (.trap 5 a)
    else modSched (rvEnd s (.go rd old next)) s.cur.die s.cur.core fun c => { c with resv := some (a.toNat / 8, s.codeLog.length) }
  else if a.toNat % n ≠ 0 then rvEnd s (.trap 6 a)
  else if f5 = 3 then
    if raw.isNone then rvEnd s (.trap 7 a)
    else
      let t := if reserved s (schedOf s) (a.toNat / 8) then stored b.toNat (.go rd 0 next) else rvEnd s (.go rd 1 next)
      modSched t s.cur.die s.cur.core fun c => { c with resv := none }
  else
    let r := if n = 4 then lowWord b else b
    let m := if n = 4 && 24 ≤ f5 then BitVec.ofNat 64 (old.toNat % 2 ^ 32) else old
    let r := if n = 4 && 24 ≤ f5 then BitVec.ofNat 64 (r.toNat % 2 ^ 32) else r
    match rvAmo f5 m r with
    | some v => stored v.toNat (.go rd old next)
    | none => bad

/-- The system instructions: calls, returns, waits, and the accesses to machine-mode registers. -/
def rvSystem (s : State) (w : Nat) (a : BitVec 64) (next : BitVec 64) : State :=
  let c := schedOf s
  let rd := bits w 11 7
  let rs := bits w 19 15
  let f3 := bits w 14 12
  let n := bits w 31 20
  let bad := rvEnd s (.trap 2 (BitVec.ofNat 64 w))
  if f3 = 0 then
    match w with
    | 0x00000073 => rvEnd s (.trap 11 0)
    | 0x00100073 => rvEnd s (.trap 3 c.pc)
    | 0x30200073 =>
      let st := c.mstatus.toNat
      modSched s s.cur.die s.cur.core fun c =>
        { c with pc := c.mepc, instret := c.instret + 1,
                 mstatus := BitVec.ofNat 64 (putBits (putBits (putBits st 3 3 (bits st 7 7)) 7 7 1) 12 11 3) }
    | 0x10500073 => rvEnd s (.go 0 0 next)
    | _ => bad
  else if f3 = 4 then bad
  else
    let writes := f3 % 4 = 1 || rs ≠ 0
    match rvCsr c (cpCycles s) s.cur.core n with
    | none => bad
    | some old =>
      if writes && 0xC00 ≤ n then bad
      else
        let x := if 4 ≤ f3 then BitVec.ofNat 64 rs else a
        let v := match f3 % 4 with
          | 1 => x
          | 2 => old ||| x
          | _ => old &&& ~~~x
        let t := if writes then modSched s s.cur.die s.cur.core fun c => rvSetCsr c (cpCycles s) n v else s
        rvEnd t (.go rd old next)

/-- One 32-bit word of RV64IMAC that is no Xlorekq instruction; `len` is the bytes its parcel takes and `raw` the
bits that a trap reports. -/
def rvExec (s : State) (w len raw : Nat) : State :=
  let c := schedOf s
  let a := c.reg (bits w 19 15)
  let b := c.reg (bits w 24 20)
  let rd := bits w 11 7
  let f3 := bits w 14 12
  let f7 := bits w 31 25
  let next := c.pc + BitVec.ofNat 64 len
  let bad := rvEnd s (.trap 2 (BitVec.ofNat 64 raw))
  let put := fun v => rvEnd s (.go rd v next)
  let opt := fun (v : Option (BitVec 64)) => match v with
    | some v => put v
    | none => bad
  match w % 128 with
  | 0x37 => put (immU w)
  | 0x17 => put (c.pc + immU w)
  | 0x6F => rvEnd s (.go rd next (c.pc + immJ w))
  | 0x67 => if f3 = 0 then rvEnd s (.go rd next ((a + immI w) &&& ~~~1#64)) else bad
  | 0x63 =>
    match rvTakes f3 a b with
    | some t => rvEnd s (.go 0 0 (if t then c.pc + immB w else next))
    | none => bad
  | 0x03 =>
    match rvLoad s (a + immI w) (2 ^ (f3 % 4)) with
    | some raw => opt (rvLoaded f3 raw)
    | none => if f3 = 7 then bad else rvEnd s (.trap 5 (a + immI w))
  | 0x23 =>
    if 4 ≤ f3 then bad
    else match rvStore s (a + immS w) (2 ^ f3) b.toNat with
      | some t => rvEnd t (.go 0 0 next)
      | none => rvEnd s (.trap 7 (a + immS w))
  | 0x13 =>
    if f3 = 1 then (if bits w 31 26 = 0 then put (rvAlu 1 false a (BitVec.ofNat 64 (bits w 25 20))) else bad)
    else if f3 = 5 then
      (if bits w 31 26 = 0 || bits w 31 26 = 16 then
        put (rvAlu 5 (bit w 30) a (BitVec.ofNat 64 (bits w 25 20))) else bad)
    else put (rvAlu f3 false a (immI w))
  | 0x1B =>
    if f3 = 0 then opt (rvAluW 0 false a (immI w))
    else if f7 = 0 || (f7 = 32 && f3 = 5) then opt (rvAluW f3 (bit w 30) a (BitVec.ofNat 64 (bits w 24 20)))
    else bad
  | 0x33 =>
    if f7 = 1 then put (rvMul f3 a b)
    else if f7 = 0 || (f7 = 32 && (f3 = 0 || f3 = 5)) then put (rvAlu f3 (f7 = 32) a b)
    else bad
  | 0x3B =>
    if f7 = 1 then opt (rvMulW f3 a b)
    else if f7 = 0 || (f7 = 32 && (f3 = 0 || f3 = 5)) then opt (rvAluW f3 (f7 = 32) a b)
    else bad
  | 0x2F => rvAtomic s w a b next
  | 0x0F => if f3 ≤ 1 then rvEnd s (.go 0 0 next) else bad
  | 0x73 => rvSystem s w a next
  | _ => bad

/-- The instruction of RV64IMAC at a scheduler core's program counter, of 16 or 32 bits. -/
def rvStep (s : State) (w : Nat) : State :=
  if w % 4 = 3 then rvExec s w 4 w
  else match expandC (w % 65536) with
    | some x => rvExec s x 2 (w % 65536)
    | none => rvEnd s (.trap 2 (BitVec.ofNat 64 (w % 65536)))

end Sys2Proof.Machine
end

