-- ==== Sys2Proof/Machine/Turns.lean ====
section
/-! DEFINITION. The turns of the agenda: the fetch and issue of a path's instruction (R29, R67, R169), a
scheduler core's instruction (R304), and how a program is placed for `State.withFetchWord` (log 2). -/

namespace Sys2Proof.Machine

/-! ### A path's turn -/

/-- A fetch that cannot be made (R147, R359). -/
def fetchFlt (p : Path) (d : Denial) : Flt :=
  { cls := d.cls, code := d.code, space := 4, write := false, lanes := p.lanes, addr := p.pc.toNat,
    pages := if d.cls = 7 then [(p.pc.toNat / 65536, d.code)] else [], bad := d.met.1, locked := d.met.2,
    unit := none }

/-- The word is of an instruction that a feature the driver did not accept refuses, whatever its other fields hold (R67,
R383). -/
def featureWord (s : State) (w : Nat) : Bool :=
  match bits w 31 26 with
  | 0x3A | 0x3B => !(accepted s 0)
  | 0x19 => !(accepted s 1)
  | 0x38 => !(accepted s 2) && w % 32 ≠ 0
  | 0x3F => !(accepted s 4) && decide (1 ≤ bits w 25 20) && decide (bits w 25 20 ≤ 3)
  | _ => false

/-- The path of `State.cur` fetches and issues the instruction at its program counter (R67, R169, R359, R373). -/
def issueAt (s : State) (p : Path) (choice : Nat) : Host.Outcome State Fault Refusal :=
  match translate s p.grid.asid p.pc.toNat false true none with
  | .error d => .next (raise s p (fetchFlt p d))
  | .ok tr =>
    if tagMismatch s .phys tr.pa 4 tr.kd then
      .next (raise s p { fetchFlt p ⟨8, 2, false, false⟩ with unit := some (tr.pa, 4, tr.kd) })
    else
      let w := fetchWord s p.grid p.pc.toNat tr choice
      match decodeWord w with
      | .ok i => exec i s
      | .error code => .next (raise s p (Flt.plain 1 (if featureWord s w then 1 else code) p.lanes))

/-- The path of a turn was chosen, with the choice of its fetch, by a decision of this cycle and has not had its turn
(R29, R166, R169). -/
def picked (s : State) (cur : Cur) (pc : BitVec 52) (choice : Nat) : Bool :=
  (coreAt s cur.die cur.pos).picks.contains ⟨cur.slot, cur.grp, pc, cur.lanes, (dieOf s cur.die).cycles, choice⟩

/-- The turn of a chosen path is spent. -/
def spendPick (s : State) (cur : Cur) (pc : BitVec 52) : State :=
  modCore s cur.die cur.pos fun c => { c with
    picks := c.picks.filter fun x => ¬(x.slot = cur.slot ∧ x.grp = cur.grp ∧ x.pc = pc ∧ x.lanes = cur.lanes) }

/-- A debug step has completed when the paths it chose have had their turn (R281). -/
def stepSettled (die pos : Nat) (s : State) : State :=
  if bit (clusterAt s die (clusterOf pos)).dbgctl.toNat 10 && (coreAt s die pos).picks = [] then
    modCluster s die (clusterOf pos) fun c => { c with dbgctl := c.dbgctl &&& ~~~0x400#32 }
  else s

/-- The state that an outcome leads to, changed. -/
def after (f : State → State) : Host.Outcome State Fault Refusal → Host.Outcome State Fault Refusal
  | .next s => .next (f s)
  | x => x

/-- The turn of a path that a decision of this cycle has chosen (R29, R166): it issues the instruction at its program
counter, or raises the expiry of its watchdog (R251). Any other turn, and one whose lanes no longer stand there, runs
nothing (log 4). -/
def runIssue (s : State) (cur : Cur) (pc : BitVec 52) (choice : Nat) : Host.Outcome State Fault Refusal :=
  if picked s cur pc choice then
    let s := spendPick { s with cur := cur } cur pc
    after (stepSettled cur.die cur.pos) (match pathOf s with
      | none => .next s
      | some p =>
        if p.pc ≠ pc then .next s
        else if watchdogDue p.core p.w then .next (watchdogTrap s p.die p.pos p.w)
        else issueAt s p choice)
  else .next s

/-! ### What a full fault register file stalls (R28, R150) -/

/-- A record that stands for any. -/
def Fault256.blank : Fault256 := ⟨0, 0, [], false, none, false, false⟩

/-- The issue of a candidate path would raise a fault: with the warp's records in use it changes nothing (R150). -/
def wouldFault (s : State) (die pos : Nat) (w : Warp) (c : Cand) : Bool :=
  let s := modWarp { s with cur := ⟨die, pos, w.slot, c.grp, c.lanes, 0, 0⟩ } die pos w.slot fun w =>
    { w with faults := w.faults ++ List.replicate (8 - w.faults.length) Fault256.blank, old := w.sh }
  match pathOf s with
  | none => false
  | some p => match issueAt s p (fetchPick s c.grp c.pc.toNat) with
    | .next t => t = s
    | _ => false

/-- The lanes of a warp whose next instruction would need one more fault record. -/
def faultingLanes (s : State) (die pos : Nat) (w : Warp) : BitVec 32 :=
  let free := freeLanes s die pos { w with stalled := 0 }
  ((w.groups.flatMap (candidates w free)).filter (wouldFault s die pos w)).foldl (fun m c => m ||| c.lanes) 0

/-- Before a decision, the stalls of R150 are known of every warp with at most one free record (R28). -/
def foresee (s : State) : State :=
  if s.cores.any fun c => c.warps.any fun w => decide (7 ≤ w.faults.length) then
    { s with cores := s.cores.map fun c => { c with warps := c.warps.map fun w =>
        if 7 ≤ w.faults.length then { w with stalled := faultingLanes s c.die c.pos w } else w } }
  else s

/-! ### A scheduler core's turn -/

/-- The word at a scheduler core's program counter. -/
def schedWord (s : State) (die core : Nat) : Nat :=
  readN s (.cpLocal die) ((dieOf s die).scheds.getD core Sched.reset).pc.toNat 4

/-- A scheduler core fetches and runs one instruction, of Xlorekq or of RV64IMAC (R304, log 8). A failed core runs
nothing (R307), and before its die's boot ROM has verified the locked image a core runs only the ROM (R304, R379). -/
def runSched (s : State) (die core : Nat) : Host.Outcome State Fault Refusal :=
  let s := { s with cur := { s.cur with die := die, core := core } }
  let w := schedWord s die core
  if (schedOf s).failed || (dieOf s die).inRom then .next s
  else if w % 128 = 11 then
    match decodeX w with
    | .ok i => exec i s
    | .error _ => .next (schedTrap s 2 (BitVec.ofNat 64 w))
  else .next (rvStep s w)

/-- An instruction that an agent fetches, which is no event of its own (log 3). -/
def fetched : Instr → Bool
  | .xrf .. | .xbfx .. | .xsw .. | .xdisp .. | .xjr .. => true
  | i => isThread i

/-! ### Placing a program (log 2) -/

/-- The launch record of the placed program: one block of one thread, a default core, 256 registers. -/
def placedRecord : BitVec 2048 :=
  BitVec.ofNat 2048 (1 * 2 ^ 256 + 1 * 2 ^ 288 + 1 * 2 ^ 320 + 1 * 2 ^ 352 + 1 * 2 ^ 368 + 1 * 2 ^ 384 +
    1 * 2 ^ 400 + 1 * 2 ^ 403 + 16 * 2 ^ 411)

/-- The grid of the placed program, under ASID 0. -/
def placedGrid (s : State) : Grid :=
  { id := 0, die := 0, queue := 0, pkt := 0, asid := 0, vf := 0, lrec := placedRecord, lrecVa := 0,
    launchMem := s.mem, codeFrom := s.codeLog.length, csig := 0, start := 0,
    hoods := [{ grid := 0, idx := 0, st := .placed,
                blocks := [⟨0, .placed, 0, 0, 0, [], 0, true, false, []⟩], gens := [0], readyNs := 0,
                resumed := false, skipSince := [], starving := [], freeFor := none, coppice := false,
                due := (0, 1) }],
    barg := [], ended := none, complete := false }

/-- A default core with its two halves bound, on which a decision of the cycle `now` has chosen the one warp of the
placed program. -/
def placedCore (now : Nat) : Core :=
  { Core.fresh 0 0 with
    entry := BitVec.ofNat 128 (putBits (2 * 2 ^ 10) 87 34 (2 ^ 54 - 1) + 1 * 2 ^ 25),
    warps := [Warp.start 0 0 0 (some 0) 0 [Thread.start 256 [] 0 0 0 0 0 false []]],
    kernels := [⟨0, 8, 1, 1, 1, 1, 1, true, [], [], []⟩],
    picks := [⟨0, 8, 0, 1, now, 0⟩] }

/-- The page tables under which address 0 is the placed word's: an ASID table at 0x10000, tables at
0x20000 to 0x50000, the code page at 0x60000, executable and writable. -/
def placedTables : List (Nat × Nat) :=
  [(0x10000, 0x20000), (0x10030, 2 ^ 8), (0x20000, 0x30001), (0x30000, 0x40001), (0x40000, 0x50001),
   (0x50000, 0x6000F)]

/-- A warp stands before a word (log 2). -/
def placeThreadWord (s : State) (w : Nat) : State :=
  let s := placedTables.foldl (fun st x => writeN st .phys x.1 8 x.2) s
  let s := writeN s .phys 0x60000 4 w
  let s := setCore { s with asidtab := 0x10000, grids := [placedGrid s] } (placedCore (dieOf s 0).cycles)
  { s with agenda := [⟨0, [], .issue 0 0 0 8 0 1 0⟩] }

/-- Scheduler core 0 of die 0 stands before a word (log 2). -/
def placeSchedWord (s : State) (w : Nat) : State :=
  let s := writeN s (.cpLocal 0) 0 4 w
  let s := modDie s 0 fun d => { d with inRom := false, scheds := updAt 0 (fun x => { x with pc := 0 }) d.scheds }
  { s with agenda := [⟨0, [], .sched 0 0⟩] }

/-- The word is placed before the agent that runs it (log 7). -/
def placeWord (s : State) (w : Nat) : State :=
  match decodeX w with
  | .ok _ => if w % 128 = 11 then placeSchedWord s w else placeThreadWord s w
  | .error _ => placeThreadWord s w

end Sys2Proof.Machine
end

