-- ==== Sys2Proof/Machine/Step.lean ====
section
/-! DEFINITION. One step of the package: the next turn of the agenda (log 3), and how a word comes to stand
before its agent (log 2). -/

namespace Sys2Proof.Machine

/-- One step: the arrays begin what the last step has made ready, the caches count (R385), time passes, and the agent of
the next turn acts; with no turn planned nothing happens. -/
def step (s : State) : Host.Outcome State Fault Refusal :=
  match s.agenda with
  | [] => .next s
  | t :: rest =>
    let s := tick (cacheTurn (arraysTurn { s with agenda := rest })) t.ns t.cycles
    match t.act with
    | .idle => .next s
    | .event i => if fetched i then .fault .noSuchTurn else exec i (foresee s)
    | .issue die pos slot grp pc lanes choice =>
      if die < 4 ∧ pos < Config.positions then runIssue s ⟨die, pos, slot, grp, lanes, 0, 0⟩ pc choice
      else .fault .noSuchTurn
    | .sched die core => if die < 4 ∧ core < 5 then runSched s die core else .fault .noSuchTurn
    | .transmit op sector port => .next (transmit s op sector port)
    | .ahead op tag recv part => .next (ahead s op tag recv part)
    | .freeJournal die n => .next (freeJournal s die n)
    | .recovery die on => .next (dieRecovery s die on)
    | .hostRead fn bar offset => .next (hostRead s fn bar offset)

/-- `s` with an instruction word placed where the next step fetches and runs it (log 2). -/
def State.withFetchWord (s : State) (nbits w : Nat) : State := placeWord s (w % 2 ^ nbits)

end Sys2Proof.Machine
end

