-- ==== Sys2Proof/Safety.lean ====
section
/-! DEFINITION. The terms of claims: a safe step and a safe run; when a path may issue an instruction (R17, R20, R28, R67,
R70, R248, R383); and what an issue leaves unchanged. -/

namespace Sys2Proof

open Machine

/-- The step of a state goes on. -/
def SafeStep (s : State) : Prop := ∃ t, step s = .next t

/-- The first `n` steps of a state all go on. -/
def SafeRun : Nat → State → Prop
  | 0, _ => True
  | n + 1, s => ∃ t, step s = .next t ∧ SafeRun n t

/-- The path of `State.cur` may issue `i` now: it stands at one program counter and waits for nothing (R17, R28, R29),
the fields are in range (R67), no feature refuses the instruction (R383), its registers lie inside the allocation
(R20), the warp holds all its state (R248), no owed result or capture stands in its way (R70), and what the
instruction waits for has come (R28). -/
structure Ready (i : Instr) (s : State) (p : Path) : Prop where
  path : pathOf s = some p
  form : wellFormed i = true
  allowed : featureIllegal s i = false
  inside : ∀ k, (activeLanes i p).getLsbD k → inRange i (p.th k) = true
  whole : p.w.restoring = []
  settled : ∀ k, (activeLanes i p).getLsbD k → interlocked i (p.th k) = false
  clear : ∀ k, (activeLanes i p).getLsbD k → violation i (p.th k) = 0
  turn : waits i s p = false

/-- The issuing warp in a later state. -/
def Machine.Path.warpIn (p : Path) (t : State) : Option Warp := (coreAt t p.die p.pos).warpAt p.slot

/-- The thread of a lane of the issuing warp in a later state. -/
def Machine.Path.laneIn (p : Path) (t : State) (k : Nat) : Thread :=
  match p.warpIn t with
  | some w => w.lane k
  | none => Thread.absent

/-- The per-warp state of the issuing warp in a later state. -/
def Machine.Path.sharedIn (p : Path) (t : State) : Shared :=
  match p.warpIn t with
  | some w => w.sh
  | none => Shared.start

/-- A die without the skid counts of its clusters (R280), which every issue after a stop advances. -/
def Machine.Die.unskid (d : Die) : Die := { d with clusters := d.clusters.map fun c => { c with skid := [] } }

/-- A grid without the issue counts of its blocks (R330). -/
def Machine.Grid.uncounted (g : Grid) : Grid :=
  { g with hoods := g.hoods.map fun h => { h with blocks := h.blocks.map fun b => { b with r := 0, iss := [] } } }

/-- Outside the issuing warp an issue leaves cores, dies and grids as they were, its own counts apart (R280, R330). -/
structure Around (s t : State) (p : Path) : Prop where
  dies : t.dies.map Die.unskid = s.dies.map Die.unskid
  grids : t.grids.map Grid.uncounted = s.grids.map Grid.uncounted
  others : ∀ d q, ¬(d = p.die ∧ q = p.pos) → coreAt t d q = coreAt s d q
  core : { coreAt t p.die p.pos with warps := [] } = { coreAt s p.die p.pos with warps := [] }
  warps : ∀ n, n ≠ p.slot → (coreAt t p.die p.pos).warpAt n = (coreAt s p.die p.pos).warpAt n

/-- Every field of the state that an issue of a register instruction never touches: memory, local stores, poison,
keys, operations, contexts and the package registers; what it may touch is the issuing core, the issue counts, the
counters of R385 and `State.cur`. -/
def Untouched (s t : State) : Prop :=
  t = { s with cores := t.cores, dies := t.dies, grids := t.grids, pmcs := t.pmcs, out := t.out, justSet := t.justSet, cur := t.cur }

/-- Two threads agree but for what every issue moves: the program counter, the guard window's count, owed
results, the loop hold and the drain count (R71, R73, R195, R332). -/
def Machine.Thread.Alike (a b : Thread) : Prop :=
  a = { b with pc := a.pc, guardN := a.guardN, owed := a.owed, wait := a.wait, stopIssues := a.stopIssues }

/-- The issuing warp after an issue: its lanes are `e`, its per-warp state is `sh` but for the loop levels (R195), and
the rest is as it was. -/
structure WarpBecomes (t : State) (p : Path) (e : Nat → Thread) (sh : Shared) : Prop where
  lanes : ∀ k, (p.laneIn t k).Alike (e k)
  shared : p.sharedIn t = { sh with loops := (p.sharedIn t).loops }
  rest : ∃ w, p.warpIn t = some w ∧ w = { p.w with th := w.th, sh := w.sh, flSet := w.flSet }

/-- The active lanes take `f`; every other lane is as it was (R15, R17). -/
def Machine.Path.lanesWith (p : Path) (f : Nat → Thread → Thread) (k : Nat) : Thread :=
  if p.act.getLsbD k then f k (p.th k) else p.th k

/-- The instruction completes and changes only its warp: the active lanes take `f`, and the per-warp state becomes `sh`
(R15 to R17). -/
def Completes (i : Instr) (s : State) (p : Path) (f : Nat → Thread → Thread) (sh : Shared) : Prop :=
  ∃ t, exec i s = .next t ∧ Untouched s t ∧ Around s t p ∧ WarpBecomes t p (p.lanesWith f) sh

/-- The per-warp state with a flag contribution of the issuing path (R18, R110): it joins the path's earlier ones,
and a set bit wins over a clear of the same cycle. -/
def Machine.Path.withFlags (p : Path) (f : Fl) : Shared :=
  { p.w.sh with fl := flagsOf p.w.old.fl (p.w.flSet ||| f) p.w.flClr }

/-- The per-warp state with a uniform register written, when the path has an active lane (R82). -/
def Machine.Path.withUni (p : Path) (d : Nat) (x : Word) : Shared :=
  if p.any then { p.w.sh with s := p.w.sh.s.set d x } else p.w.sh

/-- The register field `n` of lane k's thread as the instruction reads it (R15, R20). -/
def Machine.Path.v (p : Path) (k : Nat) (n : BitVec 7) : Word := (p.th k).reg n.toNat

/-- A predicate of lane k's thread as the instruction reads it (R15, R19). -/
def Machine.Path.pr (p : Path) (k : Nat) (n : Nat) : Bool := (p.th k).p.getLsbD n

end Sys2Proof
end

