-- ==== Sys2Proof/Certificates/Slice0/Obligations.lean ====
section
/-! DEFINITION. The claims of this model, one `def Obligations.<Name> : Prop` each, with the tables they read the rules
from. Each docstring names the rules it formalises. -/

namespace Sys2Proof

open Machine

namespace Rules

/-! ### Words: UInt and SInt (R12) -/

/-- The word of an exact integer, modulo 2^32. -/
def word (x : Int) : Word := BitVec.ofInt 32 x

/-- Byte i of a word as an unsigned and as a signed integer (R40). -/
def ubyte (a : Word) (i : Nat) : Int := (a.toNat / 256 ^ i % 256 : Nat)
def sbyte (a : Word) (i : Nat) : Int := if 128 ≤ ubyte a i then ubyte a i - 256 else ubyte a i

/-- A bit field of a written value. -/
def fld (v : BitVec n) (hi lo : Nat) : Nat := v.toNat / 2 ^ lo % 2 ^ (hi + 1 - lo)

/-- R83 Table 1 by its fn code, on exact integers. -/
def r83 (fn : Nat) (a b : Word) : Int :=
  let n := b.toNat
  match fn with
  | 1 => (a.toNat : Int) + b.toNat
  | 2 => (a.toNat : Int) - b.toNat
  | 3 => (a &&& b).toNat
  | 4 => (a ||| b).toNat
  | 5 => (a ^^^ b).toNat
  | 6 => (a &&& ~~~b).toNat
  | 7 => if n < 32 then (a.toNat * 2 ^ n : Nat) else 0
  | 8 => if n < 32 then (a.toNat / 2 ^ n : Nat) else 0
  | 9 => if n < 32 then a.toInt / 2 ^ n else if a.getLsbD 31 then -1 else 0
  | 10 => (a.toNat * 2 ^ (n % 32) % 2 ^ 32 + a.toNat * 2 ^ (n % 32) / 2 ^ 32 : Nat)
  | 11 => min a.toInt b.toInt
  | 12 => max a.toInt b.toInt
  | 13 => min a.toNat b.toNat
  | 14 => max a.toNat b.toNat
  | 15 => max (-(2 ^ 31)) (min (a.toInt + b.toInt) (2 ^ 31 - 1))
  | _ => max (-(2 ^ 31)) (min (a.toInt - b.toInt) (2 ^ 31 - 1))

/-- The fn code and the fields d, a and b of a per-thread instruction of R83. -/
def row83 : Instr → Option (Nat × BitVec 7 × BitVec 7 × BitVec 7)
  | .add d a b => some (1, d, a, b)
  | .sub d a b => some (2, d, a, b)
  | .and d a b => some (3, d, a, b)
  | .or d a b => some (4, d, a, b)
  | .xor d a b => some (5, d, a, b)
  | .andn d a b => some (6, d, a, b)
  | .shl d a b => some (7, d, a, b)
  | .shr d a b => some (8, d, a, b)
  | .sra d a b => some (9, d, a, b)
  | .rotl d a b => some (10, d, a, b)
  | .min d a b => some (11, d, a, b)
  | .max d a b => some (12, d, a, b)
  | .minu d a b => some (13, d, a, b)
  | .maxu d a b => some (14, d, a, b)
  | .addsat d a b => some (15, d, a, b)
  | .subsat d a b => some (16, d, a, b)
  | _ => none

/-- The uniform instruction of the same fn code (R83 Table 1, second column). -/
def row83u : Instr → Option (Nat × BitVec 7 × BitVec 7 × BitVec 7)
  | .uadd d a b => some (1, d, a, b)
  | .usub d a b => some (2, d, a, b)
  | .uand d a b => some (3, d, a, b)
  | .uor d a b => some (4, d, a, b)
  | .uxor d a b => some (5, d, a, b)
  | .uandn d a b => some (6, d, a, b)
  | .ushl d a b => some (7, d, a, b)
  | .ushr d a b => some (8, d, a, b)
  | .usra d a b => some (9, d, a, b)
  | .urotl d a b => some (10, d, a, b)
  | .umin d a b => some (11, d, a, b)
  | .umax d a b => some (12, d, a, b)
  | .uminu d a b => some (13, d, a, b)
  | .umaxu d a b => some (14, d, a, b)
  | .uaddsat d a b => some (15, d, a, b)
  | .usubsat d a b => some (16, d, a, b)
  | _ => none

/-- R84 Table 2 on exact integers: the d operand is the accumulator of the dot products. -/
def row84 : Instr → Option (BitVec 7 × (Path → Nat → Int))
  | .mul d a b => some (d, fun p k => (p.v k a).toNat * (p.v k b).toNat)
  | .mulhi d a b => some (d, fun p k => (p.v k a).toInt * (p.v k b).toInt / 2 ^ 32)
  | .mulhu d a b => some (d, fun p k => ((p.v k a).toNat * (p.v k b).toNat / 2 ^ 32 : Nat))
  | .dot4s d a b => some (d, fun p k => (p.v k d).toInt +
      ((List.range 4).map fun i => sbyte (p.v k a) i * sbyte (p.v k b) i).sum)
  | .dot4u d a b => some (d, fun p k => (p.v k d).toNat +
      ((List.range 4).map fun i => ubyte (p.v k a) i * ubyte (p.v k b) i).sum)
  | .popc d a => some (d, fun p k => ((List.range 32).filter fun i => (p.v k a).getLsbD i).length)
  | .clz d a => some (d, fun p k => (((List.range 32).find? fun n => (p.v k a).getLsbD (31 - n)).getD 32 : Nat))
  | .ctz d a => some (d, fun p k => (((List.range 32).find? fun n => (p.v k a).getLsbD n).getD 32 : Nat))
  | .brev d a => some (d, fun p k => (maskOf ((List.range 32).filter fun i => (p.v k a).getLsbD (31 - i))).toNat)
  | .abs d a => some (d, fun p k => (p.v k a).toInt.natAbs)
  | _ => none

/-- R87, R88 and R90: the immediate forms, with the fn code of R83 that R87 and R88 name. -/
def rowImm : Instr → Option (BitVec 7 × (Path → Nat → Int))
  | .addi d a i => some (d, fun p k => r83 1 (p.v k a) (word i.toInt))
  | .andi d a i => some (d, fun p k => r83 3 (p.v k a) (word i.toInt))
  | .ori d a i => some (d, fun p k => r83 4 (p.v k a) (word i.toInt))
  | .xori d a i => some (d, fun p k => r83 5 (p.v k a) (word i.toInt))
  | .shli d a n => some (d, fun p k => r83 7 (p.v k a) (word n.toNat))
  | .shri d a n => some (d, fun p k => r83 8 (p.v k a) (word n.toNat))
  | .srai d a n => some (d, fun p k => r83 9 (p.v k a) (word n.toNat))
  | .rotli d a n => some (d, fun p k => r83 10 (p.v k a) (word n.toNat))
  | .bfx d a len1 pos => some (d, fun p k => ((p.v k a).toNat / 2 ^ pos.toNat % 2 ^ (len1.toNat + 1) : Nat))
  | .bfxs d a len1 pos => some (d, fun p k =>
      let f := (p.v k a).toNat / 2 ^ pos.toNat % 2 ^ (len1.toNat + 1)
      if 2 ^ len1.toNat ≤ f then (f : Int) - 2 ^ (len1.toNat + 1) else f)
  | .bfi d a len1 pos => some (d, fun p k =>
      let t := (p.v k d).toNat
      (t : Int) + (((p.v k a).toNat % 2 ^ (len1.toNat + 1) : Nat) -
        (t / 2 ^ pos.toNat % 2 ^ (len1.toNat + 1) : Nat)) * 2 ^ pos.toNat)
  | .movi d i => some (d, fun _ _ => i.toInt)
  | .movhi d i => some (d, fun p k => (i.toNat * 2 ^ 13 + (p.v k d).toNat % 2 ^ 13 : Nat))
  | _ => none

/-- The comparison of R94 by its code, on SInt and UInt. -/
def r94 (cc : Nat) (a b : Word) : Prop :=
  match cc with
  | 0 => a.toNat = b.toNat
  | 1 => a.toNat ≠ b.toNat
  | 2 => a.toInt < b.toInt
  | 3 => a.toInt ≤ b.toInt
  | 4 => a.toInt > b.toInt
  | 5 => a.toInt ≥ b.toInt
  | 6 => a.toNat < b.toNat
  | 7 => a.toNat ≤ b.toNat
  | 8 => a.toNat > b.toNat
  | _ => a.toNat ≥ b.toNat

/-- R95 Table 3 and R94: the predicate written and its value. -/
def rowPred : Instr → Option (BitVec 7 × (Path → Nat → Prop))
  | .cmp q a b c => some (q, fun p k => r94 c.toNat (p.v k a) (p.v k b))
  | .pand d a b => some (d, fun p k => p.pr k a.toNat = true ∧ p.pr k b.toNat = true)
  | .por d a b => some (d, fun p k => p.pr k a.toNat = true ∨ p.pr k b.toNat = true)
  | .pxor d a b => some (d, fun p k => p.pr k a.toNat ≠ p.pr k b.toNat)
  | .pandn d a b => some (d, fun p k => p.pr k a.toNat = true ∧ p.pr k b.toNat = false)
  | .pnot d a => some (d, fun p k => p.pr k a.toNat = false)
  | .pmov d a => some (d, fun p k => p.pr k a.toNat = true)
  | .pset d => some (d, fun _ _ => True)
  | .pclr d => some (d, fun _ _ => False)
  | _ => none

/-- R96 and `bcast` (R97). A uniform operand is read as it stood at the start of the cycle (R22). -/
def rowSel : Instr → Option (BitVec 7 × (Path → Nat → Word))
  | .sel d a b q => some (d, fun p k => if p.pr k q.toNat then p.v k a else p.v k b)
  | .seln d a b q => some (d, fun p k => if p.pr k q.toNat then p.v k b else p.v k a)
  | .bcast d a => some (d, fun p _ => p.w.old.s.getD a.toNat 0)
  | _ => none

/-- The exact operation of R112 Table 2 by fn[4:2], on one element of the operands, rounded by R113 and R114; fused forms
take the addend d. -/
def r112 (f : Fmt) (fused : Bool) (op rm : Nat) (a b d : Nat) : Nat × Fl :=
  let x := f.decode a
  let y := f.decode b
  let z := f.decode d
  match fused, op with
  | false, 0 => addF f rm x y
  | false, 1 => addF f rm x y.neg
  | false, _ => mulF f rm x y
  | true, 0 => fmaF f rm x y z
  | true, 1 => fmaF f rm x y z.neg
  | true, _ => fmaF f rm x.neg y z

/-- An FP32 result word and its flags. -/
def single (r : Nat × Fl) : Word × Fl := (BitVec.ofNat 32 r.1, r.2)

/-- The two BF16 elements of a word, computed independently; a flag of either counts for the lane (R40, R112). -/
def double (f : Nat → Nat × Fl) : Word × Fl := (BitVec.ofNat 32 ((f 0).1 + 65536 * (f 1).1), (f 0).2 ||| (f 1).2)

/-- Element i of a BF16 pair (R40). -/
def elem (a : Word) (i : Nat) : Nat := a.toNat / 65536 ^ i % 65536

/-- The instructions of R112, R115, R117 to R120 and R128: the register written, and its value with the flags of the
lane. -/
def rowFloat : Instr → Option (BitVec 7 × (Path → Nat → Word × Fl))
  | .fadd d a b m => some (d, fun p k => single (r112 fp32 false 0 m.toNat (p.v k a).toNat (p.v k b).toNat 0))
  | .fsub d a b m => some (d, fun p k => single (r112 fp32 false 1 m.toNat (p.v k a).toNat (p.v k b).toNat 0))
  | .fmul d a b m => some (d, fun p k => single (r112 fp32 false 2 m.toNat (p.v k a).toNat (p.v k b).toNat 0))
  | .ffma d a b m => some (d, fun p k => single (r112 fp32 true 0 m.toNat (p.v k a).toNat (p.v k b).toNat (p.v k d).toNat))
  | .ffms d a b m => some (d, fun p k => single (r112 fp32 true 1 m.toNat (p.v k a).toNat (p.v k b).toNat (p.v k d).toNat))
  | .ffnma d a b m => some (d, fun p k => single (r112 fp32 true 2 m.toNat (p.v k a).toNat (p.v k b).toNat (p.v k d).toNat))
  | .bfadd2 d a b m => some (d, fun p k => double fun i => r112 bf16 false 0 m.toNat (elem (p.v k a) i) (elem (p.v k b) i) 0)
  | .bfsub2 d a b m => some (d, fun p k => double fun i => r112 bf16 false 1 m.toNat (elem (p.v k a) i) (elem (p.v k b) i) 0)
  | .bfmul2 d a b m => some (d, fun p k => double fun i => r112 bf16 false 2 m.toNat (elem (p.v k a) i) (elem (p.v k b) i) 0)
  | .bffma2 d a b m => some (d, fun p k => double fun i =>
      r112 bf16 true 0 m.toNat (elem (p.v k a) i) (elem (p.v k b) i) (elem (p.v k d) i))
  | .bffms2 d a b m => some (d, fun p k => double fun i =>
      r112 bf16 true 1 m.toNat (elem (p.v k a) i) (elem (p.v k b) i) (elem (p.v k d) i))
  | .bffnma2 d a b m => some (d, fun p k => double fun i =>
      r112 bf16 true 2 m.toNat (elem (p.v k a) i) (elem (p.v k b) i) (elem (p.v k d) i))
  | .fmin d a b => some (d, fun p k => single (minmaxF fp32 false (p.v k a).toNat (p.v k b).toNat))
  | .fmax d a b => some (d, fun p k => single (minmaxF fp32 true (p.v k a).toNat (p.v k b).toNat))
  | .bfmin2 d a b => some (d, fun p k => double fun i => minmaxF bf16 false (elem (p.v k a) i) (elem (p.v k b) i))
  | .bfmax2 d a b => some (d, fun p k => double fun i => minmaxF bf16 true (elem (p.v k a) i) (elem (p.v k b) i))
  | .fabs d a => some (d, fun p k => single (signOp fp32 false (p.v k a).toNat))
  | .fneg d a => some (d, fun p k => single (signOp fp32 true (p.v k a).toNat))
  | .bfabs2 d a => some (d, fun p k => double fun i => signOp bf16 false (elem (p.v k a) i))
  | .bfneg2 d a => some (d, fun p k => double fun i => signOp bf16 true (elem (p.v k a) i))
  | .rcp d a => some (d, fun p k => single (rcpF (fp32.decode (p.v k a).toNat)))
  | .rsqrt d a => some (d, fun p k => single (rsqrtF (fp32.decode (p.v k a).toNat)))
  | .sqrt d a => some (d, fun p k => single (sqrtF (fp32.decode (p.v k a).toNat)))
  | .exp2 d a => some (d, fun p k => single (exp2F (fp32.decode (p.v k a).toNat)))
  | .log2 d a => some (d, fun p k => single (log2F (fp32.decode (p.v k a).toNat)))
  | .sin d a => some (d, fun p k => single (sinCosF false (fp32.decode (p.v k a).toNat)))
  | .cos d a => some (d, fun p k => single (sinCosF true (fp32.decode (p.v k a).toNat)))
  | .cvt d a m r x t => some (d, fun p k => cvtWord x.toNat t.toNat r.toNat (m = 1#1) (p.v k a))
  | _ => none

/-- R116 Table 4 on FP32 values: the comparison and whether it sets invalid. -/
def r116 (cc : Nat) (x y : Machine.Num) : Bool × Bool :=
  let unordered := x.isNan || y.isNan
  let anySnan := x.signalling || y.signalling
  match cc with
  | 0 => (!unordered && Machine.Num.cmp x y = 0, anySnan)
  | 1 => (unordered || Machine.Num.cmp x y ≠ 0, anySnan)
  | 2 => (!unordered && decide (Machine.Num.cmp x y < 0), unordered)
  | 3 => (!unordered && decide (Machine.Num.cmp x y ≤ 0), unordered)
  | 4 => (!unordered && decide (Machine.Num.cmp x y > 0), unordered)
  | 5 => (!unordered && decide (Machine.Num.cmp x y ≥ 0), unordered)
  | 6 => (unordered, anySnan)
  | _ => (!unordered, anySnan)

/-- The bit of the class of an FP32 code (R117): its sign, its exponent field and its fraction. -/
def r117 (x : Nat) : Nat :=
  let neg := x / 2 ^ 31 % 2 = 1
  let e := x / 2 ^ 23 % 256
  let m := x % 2 ^ 23
  if e = 255 then
    (if m = 0 then (if neg then 0 else 7) else if m < 2 ^ 22 then 8 else 9)
  else if e = 0 then
    (if m = 0 then (if neg then 3 else 4) else if neg then 2 else 5)
  else if neg then 1 else 6

/-- R120 Table 6: the special inputs of the special functions: +0, −0, +∞, −∞, a negative normal (−1), 1, a quiet
and a signalling NaN, and for each the codes and flags of `rcp`, `rsqrt`, `sqrt`, `exp2`, `log2`, `sin`, `cos`, where the
table gives them. -/
def r120 : List (Nat × List (Option (Nat × Fl))) :=
  let nan : Option (Nat × Fl) := some (0x7FC00000, flInvalid)
  let ok := fun (x : Nat) => (some (x, 0) : Option (Nat × Fl))
  let dz := fun (x : Nat) => (some (x, flDivzero) : Option (Nat × Fl))
  [(0x00000000, [dz 0x7F800000, dz 0x7F800000, ok 0, ok 0x3F800000, dz 0xFF800000, ok 0, ok 0x3F800000]),
   (0x80000000, [dz 0xFF800000, dz 0xFF800000, ok 0x80000000, ok 0x3F800000, dz 0xFF800000, ok 0x80000000,
     ok 0x3F800000]),
   (0x7F800000, [ok 0, ok 0, ok 0x7F800000, ok 0x7F800000, ok 0x7F800000, nan, nan]),
   (0xFF800000, [ok 0x80000000, nan, nan, ok 0, nan, nan, nan]),
   (0xBF800000, [none, nan, nan, none, nan, none, none]),
   (0x3F800000, [ok 0x3F800000, ok 0x3F800000, ok 0x3F800000, ok 0x40000000, ok 0, none, none]),
   (0x7FC00001, [ok 0x7FC00000, ok 0x7FC00000, ok 0x7FC00000, ok 0x7FC00000, ok 0x7FC00000, ok 0x7FC00000,
     ok 0x7FC00000]),
   (0x7F800001, [nan, nan, nan, nan, nan, nan, nan])]

/-- The special functions in the order of R118. -/
def specials : List (Machine.Num → Nat × Fl) := [rcpF, rsqrtF, sqrtF, exp2F, log2F, sinCosF false, sinCosF true]

/-- The lanes that take a branch of condition c (R98). -/
def takes (p : Path) (c k : Nat) : Bool :=
  p.act.getLsbD k && (if c ≤ 11 then p.pr k c else if c = 12 then true
    else (List.range 32).any fun j => p.act.getLsbD j && p.pr j 0)

/-- The lanes of the path go to `dest`, and those that do not to the next word, when no loop level is active. -/
def Goes (t : State) (p : Path) (jumps : Nat → Bool) (dest : Nat → BitVec 52) : Prop :=
  p.w.looping = false → ∀ k, p.lanes.getLsbD k = true →
    (p.laneIn t k).pc = if jumps k then dest k else p.pc + 4

/-- The link pair g12:g13 of a thread with the address of the next word (R98, R99). -/
def linked (p : Path) (t : Thread) : Thread := t.setPair 124 (BitVec.ofNat 64 ((p.pc.toNat + 4) % 2 ^ 52))

/-- The pair of registers from which a transfer takes its target (R101): its operand, or g12:g13. -/
def targetOf : Instr → Option (Nat × Bool)
  | .jmp a => some (a.toNat, false)
  | .callr a => some (a.toNat, true)
  | .ret => some (124, false)
  | _ => none

/-- The value of register a in lane j when j is an active lane, else the lane's own (R216). -/
def fromLane (p : Path) (a : BitVec 7) (k : Nat) (j : Int) : Word :=
  if 0 ≤ j ∧ j ≤ 31 ∧ p.act.getLsbD j.toNat = true then p.v j.toNat a else p.v k a

/-- The active lanes in ascending order that a test admits (R218). -/
def lanesOf (p : Path) (f : Nat → Bool) : List Nat := (List.range 32).filter fun j => p.act.getLsbD j && f j

/-- R216 Table 11, R217 and R218 Table 1: the register written and its value in an active lane k. -/
def rowLane : Instr → Option (BitVec 7 × (Path → Nat → Word))
  | .xlaneAt d a b => some (d, fun p k => fromLane p a k ((p.v k b).toNat % 32 : Nat))
  | .xlaneBack d a b => some (d, fun p k => fromLane p a k (k - (p.v k b).toNat))
  | .xlaneFwd d a b => some (d, fun p k => fromLane p a k (k + (p.v k b).toNat))
  | .xlaneSwz d a b => some (d, fun p k => fromLane p a k (k ^^^ (p.v k b).toNat % 32 : Nat))
  | .push d a b => some (d, fun p k =>
      match (lanesOf p fun j => decide ((p.v j b).toNat = k)).reverse with
      | j :: _ => p.v j a
      | [] => p.v k d)
  | .scanAdd d a => some (d, fun p k => word ((lanesOf p fun j => decide (j ≤ k)).map fun j => ((p.v j a).toNat : Int)).sum)
  | .scanAddx d a => some (d, fun p k => word ((lanesOf p fun j => decide (j < k)).map fun j => ((p.v j a).toNat : Int)).sum)
  | .scanMin d a => some (d, fun p k =>
      word (((lanesOf p fun j => decide (j ≤ k)).map fun j => (p.v j a).toInt).foldl min (2 ^ 31 - 1)))
  | .scanMax d a => some (d, fun p k =>
      word (((lanesOf p fun j => decide (j ≤ k)).map fun j => (p.v j a).toInt).foldl max (-(2 ^ 31))))
  | .pgath d a => some (d, fun p _ => maskOf (lanesOf p fun j => p.pr j a.toNat))
  | .lsame d a => some (d, fun p k => maskOf (lanesOf p fun j => decide (p.v j a = p.v k a)))
  | .lsameAll d a => some (d, fun p k =>
      if ∀ j ∈ lanesOf p fun _ => true, p.v j a = p.v k a then p.act else 0)
  | .lfoldAdd d a => some (d, fun p _ => word ((lanesOf p fun _ => true).map fun j => ((p.v j a).toNat : Int)).sum)
  | .lfoldMin d a => some (d, fun p _ =>
      word (((lanesOf p fun _ => true).map fun j => (p.v j a).toInt).foldl min (2 ^ 31 - 1)))
  | .lfoldMax d a => some (d, fun p _ =>
      word (((lanesOf p fun _ => true).map fun j => (p.v j a).toInt).foldl max (-(2 ^ 31))))
  | .lfoldAnd d a => some (d, fun p _ =>
      maskOf ((List.range 32).filter fun b => (lanesOf p fun _ => true).all fun j => (p.v j a).getLsbD b))
  | .lfoldOr d a => some (d, fun p _ =>
      maskOf ((List.range 32).filter fun b => (lanesOf p fun _ => true).any fun j => (p.v j a).getLsbD b))
  | .lfoldXor d a => some (d, fun p _ =>
      maskOf ((List.range 32).filter fun b => decide (((lanesOf p fun j => (p.v j a).getLsbD b).length % 2 = 1))))
  | _ => none

/-- R24 Table 3: the system value of a selector in lane k, with the launch record's fields (R319), the linear block index
and the stage (R262), and the place of the core, of which position 12 × row + column has its row and its column. -/
def r24 (s : State) (p : Path) (k sel : Nat) : Word :=
  let t := p.th k
  let r := p.grid.lrec
  let gridx := fld r 287 256
  let gridy := fld r 319 288
  let members := fld r 402 400 * fld r 405 403
  let rank := t.blk % members
  let w := fun (x : Nat) => BitVec.ofNat 32 x
  match sel with
  | 0 => w k
  | 1 => w (k / 4)
  | 2 => w p.slot
  | 3 => w ((if p.grp < 8 then 1 else 0) + 2 * (if t.cutting = true then 1 else 0))
  | 4 => t.thx
  | 5 => t.thy
  | 6 => t.thz
  | 7 => w (fld r 367 352)
  | 8 => w (fld r 383 368)
  | 9 => w (fld r 399 384)
  | 10 => w (t.blk % gridx)
  | 11 => w (t.blk / gridx % gridy)
  | 12 => w (t.blk / (gridx * gridy))
  | 13 => w gridx
  | 14 => w gridy
  | 15 => w (fld r 351 320)
  | 16 => w (rank / (members / (fld r 408 406 + 1)))
  | 17 => w rank
  | 18 => w (2 ^ 4 * (p.pos / 12) + p.pos % 12)
  | 19 => w p.core.kind
  | 20 => w (2 * (p.pos / 12 / 4) + p.pos % 12 / 6)
  | 21 => w p.die
  | 22 => w ((dieOf s p.die).cycles % 2 ^ 32)
  | 23 => t.clkHi
  | 24 => w (s.ns % 2 ^ 32)
  | 25 => t.nsHi
  | _ => w (16 * fld r 415 411)

/-- The per-warp effect of an instruction of a path with an active lane, and of one without. -/
def whenAny (p : Path) (sh : Shared) : Shared := if p.any then sh else p.w.sh

/-- The instructions of R199, R201 and R222 that write per-warp state and cannot fault. -/
def rowShared : Instr → Option (Path → Shared)
  | .idem => some fun p => { p.w.sh with idem := true }
  | .idemx => some fun p => { p.w.sh with idem := false }
  | .lxext0 d a => some fun p => { p.w.sh with lx := updAt d.toNat (fun x => setWord x 2 (p.v p.l0 a)) p.w.sh.lx }
  | .lxext1 d a => some fun p => { p.w.sh with lx := updAt d.toNat (fun x => setWord x 3 (p.v p.l0 a)) p.w.sh.lx }
  | .lxext2 d a => some fun p => { p.w.sh with lx := updAt d.toNat (fun x => setWord x 4 (p.v p.l0 a)) p.w.sh.lx }
  | .lxext3 d a => some fun p => { p.w.sh with lx := updAt d.toNat (fun x => setWord x 5 (p.v p.l0 a)) p.w.sh.lx }
  | _ => none
where
  /-- A layout register with its 32-bit word n replaced. -/
  setWord (x : BitVec 192) (n : Nat) (v : Word) : BitVec 192 :=
    BitVec.ofNat 192 (x.toNat - x.toNat / 2 ^ (32 * n) % 2 ^ 32 * 2 ^ (32 * n) + v.toNat * 2 ^ (32 * n))

/-- The kinds of a fence instruction (R296): 1 eng, 2 sys, 4 mir. -/
def fenceKinds : Instr → Option (Nat × BitVec 7)
  | .fenceEng d => some (1, d)
  | .fenceSys d => some (2, d)
  | .fenceMir d => some (4, d)
  | .fenceAll d => some (7, d)
  | _ => none

/-! ### Starting an operation -/

/-- A warp without its load and store counters (R300). -/
def quietWarp (w : Warp) : Warp := { w with ldcnt := 0, stcnt := 0 }

/-- A core without the load and store counters of its warps (R300). -/
def quietCore (c : Core) : Core := { c with warps := c.warps.map quietWarp }

/-- A grid without the issue counts and store frontiers of its blocks (R330, R348). -/
def quietGrid (g : Grid) : Grid :=
  { g with hoods := g.hoods.map fun h =>
      { h with blocks := h.blocks.map fun b => { b with r := 0, iss := [], frontier := 0 } } }

/-- The issue started the operation `o` and did nothing else: it is the last of the operations and carries the
names of its path; registers, memory and local stores are as before, and what else the issue moved are counters of
R280, R300, R330, R348 and R385, the lookahead of its lanes (R69), the loop levels (R195) and the idempotent bit. -/
structure Launched (s t : State) (p : Path) (o : Op) : Prop where
  ops : t.ops = s.ops ++ [o]
  next : t.nextId = s.nextId + 1
  named : o.id = s.nextId ∧ o.uid = p.w.uid ∧ o.die = p.die ∧ o.pos = p.pos ∧ o.slot = p.slot ∧ o.grid = p.grid.id ∧
    o.blk = (p.th p.l0).blk ∧ o.l0 = p.l0 ∧ o.pc = p.pc ∧ o.asid = p.grid.asid ∧ o.dropped = false
  same : t = { s with cores := t.cores, dies := t.dies, grids := t.grids, pmcs := t.pmcs, out := t.out, justSet := t.justSet, cur := t.cur,
                      ops := t.ops, nextId := t.nextId }
  dies : t.dies.map Die.unskid = s.dies.map Die.unskid
  grids : t.grids.map quietGrid = s.grids.map quietGrid
  others : ∀ d q, ¬(d = p.die ∧ q = p.pos) → quietCore (coreAt t d q) = quietCore (coreAt s d q)
  core : { coreAt t p.die p.pos with warps := [] } = { coreAt s p.die p.pos with warps := [] }
  warps : ∀ n, n ≠ p.slot →
    ((coreAt t p.die p.pos).warpAt n).map quietWarp = ((coreAt s p.die p.pos).warpAt n).map quietWarp
  lanes : ∀ k, (p.laneIn t k).Alike (p.th k)
  shared : p.sharedIn t = { p.w.sh with loops := (p.sharedIn t).loops, idem := (p.sharedIn t).idem }

/-- The lanes of a warp received late results and every other thread is as it was (R69, R93, R102). -/
def Received (s t : State) (uid : Nat) (f : Nat → Thread → Thread) : Prop :=
  ∀ d q n w, (coreAt s d q).warpAt n = some w → ∃ w', (coreAt t d q).warpAt n = some w' ∧
    ∀ k, w'.lane k = if w.uid = uid then f k (w.lane k) else w.lane k

/-- Memory and every local store keep their canonical form (log 1). -/
def Canonical (s : State) : Prop := Memory.wf s.mem = true ∧ ∀ l ∈ s.locals, Memory.wf l.cells = true

/-- In HBM, every 64-byte unit of which the range holds a part, and not the whole, is stored under the key, and its
controller can read its old bytes (R373, R374, R382). -/
def Keyed (s : State) (a n key : Nat) : Prop :=
  inHbm a = true → ∀ u, 64 * u < a + n → a < 64 * u + 64 →
    a ≤ 64 * u ∧ 64 * u + 64 ≤ a + n ∨ foreign s u key = false ∧ u ∉ s.rmwBad

/-- The bytes `bs` were written from an address of a space, `none` leaving a byte, and every other byte of every space
reads as before. -/
def Stored (s t : State) (sp : Space) (a : Nat) (bs : List (Option Byte)) : Prop :=
  ∀ sp' x, readByte t sp' x =
    if sp' = sp ∧ a ≤ x then (bs.getD (x - a) none).getD (readByte s sp' x) else readByte s sp' x

/-- R389: the host reads the bytes of a range as they are stored: no sector of it is poisoned, and each unit of it that lies
in HBM is stored under the present package key. -/
def HostSees (s : State) (a n : Nat) : Prop :=
  isPoisoned s .phys a n = false ∧ (inHbm a = true → ∀ u, 64 * u < a + n → a < 64 * u + 64 → foreign s u (keyId s 0) = false)

/-- No frame instruction waits for an access to be performed (R146). -/
def noFrames (s : State) : Prop := ∀ o ∈ s.ops, ∀ sh ro a b i n f, o.kind ≠ .frames sh ro a b i n f

/-! ### Division (R91 to R93) -/

/-- The divide instructions: signed, remainder, lookahead and registers. -/
def rowDiv : Instr → Option (Bool × Bool × BitVec 4 × BitVec 7 × BitVec 7 × BitVec 7)
  | .div la d a b => some (true, false, la, d, a, b)
  | .divu la d a b => some (false, false, la, d, a, b)
  | .rem la d a b => some (true, true, la, d, a, b)
  | .remu la d a b => some (false, true, la, d, a, b)
  | _ => none

/-- R91, R92: the quotient rounds toward zero; a zero divisor gives all ones, and the dividend as the remainder. -/
def r91 (rem : Bool) (x y : Int) : Int :=
  let q : Int := if y = 0 then -1 else if 0 ≤ x ↔ 0 ≤ y then (x.natAbs / y.natAbs : Nat) else -(x.natAbs / y.natAbs : Nat)
  if rem then (if y = 0 then x else x - y * q) else q

/-! ### Loads, stores and atomics (R133 to R144, R270 to R274) -/

/-- An access form: its space, checked as a write, counted in ldcnt, its size, what each lane does, the base register
and the byte offset, the data register, `.inplace`. -/
structure AccessForm where
  sp : Sp
  write : Bool
  load : Bool
  size : Nat
  kind : AccKind
  base : BitVec 7
  off : Nat
  data : BitVec 7
  inplace : Bool

/-- Access sizes in bytes of the load size codes (R138 Table 2). -/
def r138 (c : Nat) : Nat := [1, 1, 2, 2, 4, 8, 16].getD c 16

/-- A load, a store or an atomic of an access form. -/
def aLoad (sp : Sp) (d a : BitVec 7) (o : Nat) (x : BitVec 3) : AccessForm :=
  ⟨sp, false, true, r138 x.toNat, .load (r138 x.toNat) (x = 1#3 || x = 3#3), a, o * r138 x.toNat, d, false⟩
def aStore (sp : Sp) (d a : BitVec 7) (o : Nat) (x : BitVec 3) (inplace : Bool) : AccessForm :=
  ⟨sp, true, false, 2 ^ x.toNat, .store, a, o * 2 ^ x.toNat, d, inplace⟩
def aAtom (sp : Sp) (d a : BitVec 7) (ret : Bool) (w : BitVec 1) (op : Nat) : AccessForm :=
  ⟨sp, true, ret, 4 + 4 * w.toNat, .atomic op (4 + 4 * w.toNat) ret, a, 0, d, false⟩

/-- The access forms of R139, R144 and R272. -/
def rowAccess : Instr → Option AccessForm
  | .ldg _ d a o x => some (aLoad .global d a o.toNat x)
  | .lds _ d a o x => some (aLoad .scratch d a o.toNat x)
  | .ldh _ d a o x => some (aLoad .hood d a o.toNat x)
  | .ldsys _ d a o x => some (aLoad .system d a o.toNat x)
  | .stg _ d a i o x => some (aStore .global d a o.toNat x (i = 1#1))
  | .sts _ d a i o x => some (aStore .scratch d a o.toNat x (i = 1#1))
  | .sth _ d a i o x => some (aStore .hood d a o.toNat x (i = 1#1))
  | .stsys _ d a o x => some (aStore .system d a o.toNat x false)
  | .atomg _ d a r _ w o => some (aAtom .global d a (r = 1#1) w o.toNat)
  | .atoms _ d a r w o => some (aAtom .scratch d a (r = 1#1) w o.toNat)
  | .atomh _ d a r w o => some (aAtom .hood d a (r = 1#1) w o.toNat)
  | _ => none

/-- The registers of a value of n bytes from a field (R39, R138). -/
def words (p : Path) (k : Nat) (r n : Nat) : Nat :=
  ((List.range (max 1 (n / 4))).map fun i => ((p.th k).reg (r + i)).toNat * 2 ^ (32 * i)).sum

/-- The effective address of a lane (R134 to R136): a pair in virtual spaces, a register in windows. -/
def AccessForm.ea (f : AccessForm) (p : Path) (k : Nat) : Nat :=
  (if f.sp = .global ∨ f.sp = .system then ((p.th k).pair f.base.toNat).toNat else (p.v k f.base).toNat) + f.off

/-- The new value of an atomic element of n bits (R271 Table 3): `v` the operand or compare value, `x` the swap value. -/
def r271 (op n old v x : Nat) : Nat :=
  let si := fun (y : Nat) => if 2 ^ (n - 1) ≤ y % 2 ^ n then ((y % 2 ^ n : Nat) : Int) - 2 ^ n else (y % 2 ^ n : Nat)
  match op with
  | 0 => (old + v) % 2 ^ n
  | 1 => if si v < si old then v else old
  | 2 => if si old < si v then v else old
  | 3 => min old v
  | 4 => max old v
  | 5 => old &&& v
  | 6 => old ||| v
  | 7 => old ^^^ v
  | 8 => v
  | 9 => if old = v then x else old
  | 10 => if v ≤ old then 0 else old + 1
  | 11 => (addF fp32 0 (fp32.decode old) (fp32.decode v)).1
  | _ => (addF bf16 0 (bf16.decode (old % 2 ^ 16)) (bf16.decode (v % 2 ^ 16))).1 +
      2 ^ 16 * (addF bf16 0 (bf16.decode (old / 2 ^ 16 % 2 ^ 16)) (bf16.decode (v / 2 ^ 16 % 2 ^ 16))).1

/-- The register words of a loaded value of n bytes, sign-extended to 32 bits for the signed forms (R138). -/
def loaded (n : Nat) (signed : Bool) (bs : List Byte) (dst : List Loc) : List (Loc × Word) :=
  let x := ofBytes bs
  let y := x % 2 ^ (8 * n)
  let si : Int := if 2 ^ (8 * n - 1) ≤ y then (y : Int) - 2 ^ (8 * n) else y
  let v : Int := if signed then si % 2 ^ 32 else x
  dst.zip ((List.range dst.length).map fun i => BitVec.ofInt 32 (v / 2 ^ (32 * i)))

/-- What an access has still to move, as an offset and a length: all of it, or of a system access of 16 bytes of which
one half of 8 bytes was performed ahead, the other half (R144). -/
def leftOf (a : LaneAcc) : Nat × Nat :=
  if a.system then
    match a.halves with
    | [h] => (8 * h, 8)
    | _ => (0, a.size)
  else (0, a.size)

/-- The bytes of a load from those it has still to read and the half that was read ahead (R144). -/
def withAhead (a : LaneAcc) (bs : List Byte) : List Byte :=
  let half := fun (h : Nat) => (List.range 8).map fun i => BitVec.ofNat 8 (a.data.toNat / 256 ^ (8 * h + i))
  if a.system && a.halves = [0] then bs ++ half 1
  else if a.system && a.halves = [1] then half 0 ++ bs
  else bs

/-! ### Barriers -/

/-- The registers, predicates and window bases of every thread are as they were. -/
def RegsSame (s t : State) : Prop :=
  ∀ d q n w, (coreAt s d q).warpAt n = some w → ∃ w', (coreAt t d q).warpAt n = some w' ∧ ∀ k,
    (w'.lane k).v = (w.lane k).v ∧ (w'.lane k).g = (w.lane k).g ∧ (w'.lane k).p = (w.lane k).p ∧
    (w'.lane k).wb = (w.lane k).wb ∧ (w'.lane k).life = (w.lane k).life

/-- The barrier of an instruction (R213, R269, R322). -/
def rowBar : Instr → Option Bar
  | .barw _ => some .w
  | .barb _ => some .b
  | .barc _ k => some (.c k.toNat)
  | .barg _ k => some (.g k.toNat)
  | _ => none

/-- A barrier of R188 after its arrivals and sectors change, with the advance of R189. -/
def r189 (b arrivals : Nat) (sectors : Int) : Nat :=
  let done := arrivals = 0 ∧ sectors = 0
  let expected := b / 2 ^ 24 % 2 ^ 20
  (if done then (b % 16 + 1) % 16 else b % 16) + 2 ^ 4 * (if done then expected else arrivals % 2 ^ 20) +
    2 ^ 24 * expected + 2 ^ 44 * (sectors % 2 ^ 32).toNat + 2 ^ 76 * (b / 2 ^ 76)

/-- The fields of a barrier (R188): outstanding arrivals, and sectors as a signed number. -/
def arrivalsOf (b : Nat) : Nat := b / 2 ^ 4 % 2 ^ 20
def sectorsOf (b : Nat) : Int :=
  let x : Nat := b / 2 ^ 44 % 2 ^ 32
  if 2 ^ 31 ≤ x then (x : Int) - 2 ^ 32 else x

/-- The reserved bits of a barrier are zero (R188). -/
def barrierClean (b : Nat) : Prop := b / 2 ^ 88 % 2 ^ 3 = 0 ∧ b / 2 ^ 92 % 2 ^ 36 = 0

/-- R209 Table 8: the address register, and the barrier written from the one that was there; none when the instruction
raises class 9 code 21. -/
def rowTb : Instr → Option (BitVec 7 × Bool × (Path → Nat → Option Nat))
  | .tbinit _ a b => some (a, false, fun p _ =>
      let n := (p.v p.l0 b).toNat
      if 1 ≤ n ∧ n < 2 ^ 20 then some (n * 2 ^ 4 + n * 2 ^ 24) else none)
  | .tbarr _ a => some (a, true, fun p b =>
      let n := (laneList p.act).length
      if n ≤ arrivalsOf b then some (r189 b (arrivalsOf b - n) (sectorsOf b)) else none)
  | .tbarrOne _ a => some (a, true, fun _ b =>
      if 1 ≤ arrivalsOf b then some (r189 b (arrivalsOf b - 1) (sectorsOf b)) else none)
  | .tbexp _ a c => some (a, true, fun p b =>
      let k := (p.v p.l0 c).toNat
      if k < 2 ^ 31 ∧ sectorsOf b + k < 2 ^ 31 then some (r189 b (arrivalsOf b) (sectorsOf b + k)) else none)
  | _ => none

/-! ### Engine instructions -/

/-- The barrier at an address of the issuing core's scratch may be charged (R188): it is aligned, inside the carve-out
and its reserved bits are zero. -/
def chargeable (s : State) (p : Path) (ad : Nat) : Prop :=
  ad % 16 = 0 ∧ ad + 16 ≤ p.scratchBytes ∧ barrierClean (ofBytes (readBytes s p.scratch ad 16))

/-- Register a + n of the lowest active lane (R193). -/
def r0 (p : Path) (a : BitVec 7) (n : Nat) : Nat := ((p.th p.l0).reg (a.toNat + n)).toNat

/-- The pair at register a + n of the lowest active lane (R39, R193). -/
def p0 (p : Path) (a : BitVec 7) (n : Nat) : Nat := ((p.th p.l0).pair (a.toNat + n)).toNat

/-- The instruction starts one engine operation of this kind that charges this barrier (R183, R291). -/
def StartsEngine (i : Instr) (s : State) (p : Path) (bar : Option Nat) (kind : OpKind → Prop) : Prop :=
  ∃ t o, exec i s = .next t ∧ Launched s t p o ∧ o.lanes = p.act ∧ o.bar = bar ∧ kind o.kind

/-- The conditions of R203 for a lane of `cpy`: size, route, global and local operand. -/
def copyOk (p : Path) (size route g l : Nat) : Prop :=
  g % size = 0 ∧ l % size = 0 ∧ g < 2 ^ 52 ∧
  match route with
  | 0 | 1 => l + size ≤ p.scratchBytes
  | 2 => l + size ≤ p.kernel.wst * 4096
  | _ => l < 2 ^ 20 ∧ l / 2 ^ 16 < p.kernel.slots ∧ l % 2 ^ 16 + size ≤ 4096 * p.core.halves ∧
      p.kernel.owner.lookup (l / 2 ^ 16) = some p.w.uid

/-- The local place of a `cpy` operand (R181). -/
def copyPlace (p : Path) (route l : Nat) : Place :=
  match route with
  | 0 | 1 => .at p.scratch l
  | 2 => .at (.weight p.die p.pos p.grid.id) l
  | _ => .at (.slot p.die p.pos p.grid.id (l / 2 ^ 16)) (l % 2 ^ 16)

/-- The format code of a format slot, its element size and its stream of bytes for a block (R50, R52, R57). -/
def fmtOf (p : Path) (k : Nat) : Nat := (p.grid.fslot k).toNat % 16

/-- Elements, bytes and scale bytes of an encoded block (R50, R52, R53). -/
def blockOf (p : Path) (k : Nat) : Nat × Nat × Nat :=
  if fmtOf p k = 12 then (256, espBits (fsShift (p.grid.fslot k)) / 8, 8) else (64, 32, 2)

/-- The window word of a fabric window (R396). -/
def winOf (s : State) (w : BitVec 6) : Nat := (lookupD s.fabwin w.toNat 0).toNat

/-- The window may be used by the issuing grid (R399), with its permission bit, for a range of `n` bytes from `off`. -/
def windowOk (s : State) (p : Path) (w : BitVec 6) (perm : Nat) (off n sig : Nat) : Prop :=
  let x := winOf s w
  x.testBit 127 = true ∧ x.testBit perm = true ∧ x / 2 ^ 112 % 2 ^ 12 = p.grid.asid ∧
  off + n ≤ x / 2 ^ 64 % 2 ^ 36 * 65536 ∧
  (sig ≠ 2 ^ 64 - 1 → sig % 8 = 0 ∧ sig + 8 ≤ x / 2 ^ 64 % 2 ^ 36 * 65536)

/-- The descriptor that a collective or a `dxfer` reads at its 64-byte address (R318, R403), when the address passes its
checks and the data is sound; no watchpoint is armed that it could hit (R277). -/
def descriptor (s : State) (p : Path) (va : Nat) (d : Nat) : Prop :=
  va % 64 = 0 ∧ ∃ tr, translate s p.grid.asid va false false (some false) = .ok tr ∧
    d = ofBytes (agentBytes s .phys tr.pa 64 tr.kd) ∧ readError s .phys tr.pa 64 tr.kd p.grid.asid = none ∧
    fwDenied s .phys tr.pa 64 = false ∧ clusterArmed s p.die (clusterOf p.pos) = false

/-- The parameters of a Nguroth operation over a window (R398, R403). -/
def nguOf (s : State) (w : BitVec 6) (kind op h va scl agr n off sig : Nat) : Ngu :=
  let x := winOf s w
  { kind := kind, op := op, h := h, va := va, scl := scl, agr := agr, n := n, remote := x % 2 ^ 52 + off,
    signal := if sig = 2 ^ 64 - 1 then none else some (x % 2 ^ 52 + sig), node := x / 2 ^ 100 % 2 ^ 12,
    rasid := x / 2 ^ 52 % 2 ^ 12 }

/-- The collective steps with the kind of their operation, the bytes per count and the bytes of the remote range
per count (R403). -/
def rowColl : Instr → Option (Nat × Nat × Nat × BitVec 7 × BitVec 7 × BitVec 6)
  | .ncoll a b w => some (3, 4, 4, a, b, w)
  | .nscmax a b w => some (4, 2, 2, a, b, w)
  | .nsum a b w => some (5, 32, 256, a, b, w)
  | _ => none

/-! ### Slots, cuttings, matrix, frames, scheduler cores -/

/-- No operation has an id that is still to be given. -/
def freshIds (s : State) : Prop :=
  (∀ o ∈ s.ops, o.id < s.nextId) ∧ ∀ c ∈ s.contexts, ∀ b ∈ c.blocks, ∀ o ∈ b.mmas, o.id < s.nextId

/-- Only the issuing core and its counters changed, its warps' threads as given. -/
def CoreBecomes (s t : State) (p : Path) (c : Core) : Prop :=
  Untouched s t ∧ t.dies.map Die.unskid = s.dies.map Die.unskid ∧
  t.grids.map Grid.uncounted = s.grids.map Grid.uncounted ∧
  (∀ d q, ¬(d = p.die ∧ q = p.pos) → coreAt t d q = coreAt s d q) ∧
  { coreAt t p.die p.pos with warps := [] } = { c with warps := [] } ∧
  (∀ n, n ≠ p.slot → (coreAt t p.die p.pos).warpAt n = (coreAt s p.die p.pos).warpAt n)

/-- A core with a kernel's reservation changed (R173). -/
def withKernel (c : Core) (g : Nat) (f : Kernel → Kernel) : Core :=
  { c with kernels := c.kernels.map fun k => if k.grid = g then f k else k }

/-- A cutting as `spawn` makes it of a lane (R170, R197). -/
def cuttingOf (p : Path) (b : BitVec 7) (e : BitVec 52) (k : Nat) (x : Cutting) : Prop :=
  x.g = (List.range 4).map (fun j => (p.th k).reg (b.toNat + j)) ∧ x.entry = e ∧ x.thx = (p.th k).thx ∧
  x.thy = (p.th k).thy ∧ x.thz = (p.th k).thz ∧ x.grid = p.grid.id ∧ x.blk = (p.th k).blk

/-- The word of `mmack` (R231): the next k-step, and once ended the end, the cut, and whether nothing was done. -/
def r231 (next : Nat) (ended cut untouched : Bool) : Word :=
  BitVec.ofNat 32 (next + (if ended then 2 ^ 16 else 0) + (if cut then 2 ^ 17 else 0) + if untouched then 2 ^ 18 else 0)

/-- The physical address behind a virtual one in the page of a leaf (R357, R358), the frame alone in tier 2. -/
def pageAt (level e va : Nat) : Nat :=
  e / 2 ^ 16 % 2 ^ 36 * 2 ^ 16 +
    if e / 2 ^ 60 % 4 = 2 then 0 else va % 2 ^ (if level = 0 then 16 else if level = 1 then 21 else 30)

/-- The pair of status words of a mapped page (R367), from its level, its entry and its reference count. -/
def r367 (level e va count : Nat) : BitVec 64 :=
  let f := fun (b k : Nat) => if e.testBit b then 2 ^ k else 0
  let tier := e / 2 ^ 60 % 4
  let pa := pageAt level e va
  BitVec.ofNat 64 ((if tier = 0 ∧ e.testBit 5 = false then count else 0) + level * 2 ^ 16 + f 0 18 + f 2 19 + f 3 20 +
    f 4 21 + f 5 22 + f 6 23 + f 7 24 + tier * 2 ^ 25 + pa / 2 ^ 48 % 16 * 2 ^ 28 + pa / 2 ^ 16 % 2 ^ 32 * 2 ^ 32)

/-- The scheduler core of the turn (R304). -/
def sc (s : State) : Sched := (dieOf s s.cur.die).scheds.getD s.cur.core Sched.reset

/-- An x register (x0 reads 0). -/
def xr (s : State) (n : BitVec 5) : BitVec 64 := if n = 0#5 then 0 else (sc s).x.getD n.toNat 0

/-- The scheduler core of the turn changed. -/
def withSc (s : State) (f : Sched → Sched) : State :=
  { s with dies := updAt s.cur.die (fun d => { d with scheds := updAt s.cur.core f d.scheds }) s.dies }

/-- The scheduler core wrote rd (x0 keeps nothing) and went on to the next instruction, which its instruction counter
counts. -/
def scDone (s : State) (d : BitVec 5) (v : BitVec 64) : State :=
  withSc s fun c => { c with x := if d = 0#5 then c.x else c.x.set d.toNat v, pc := c.pc + 4, instret := c.instret + 1 }

/-- R306: an Xlorekq exception traps with mcause 24 and mtval the code; mepc keeps the instruction's address, and the
interrupt enable moves to its saved bit and the mode before it (RV64 machine mode, log 8). -/
def scTrap (s : State) (code : Nat) : State :=
  withSc s fun c =>
    let st := c.mstatus.toNat
    { c with
      mcause := 24, mtval := BitVec.ofNat 64 code, mepc := c.pc, pc := BitVec.ofNat 64 (c.mtvec.toNat / 4 * 4),
      mstatus := BitVec.ofNat 64 (putBits (putBits (putBits st 7 7 (st / 2 ^ 3 % 2)) 3 3 0) 12 11 3) }

/-! ### Registers of the package and of the dies -/

/-- A firmware range is acceptable: 1 to 256 units, inside the twelve stacks, clear of their reserved tops (R377,
R356). -/
def FirmwareRangeOk (s : State) (v : BitVec 64) : Prop :=
  let base := fld v 35 0 * 65536
  let len := fld v 63 48 * 65536
  1 ≤ fld v 63 48 ∧ fld v 63 48 ≤ 256 ∧ base + len ≤ 12 * 0xC00000000 ∧
    ∀ k, k < 12 → base + len ≤ (k + 1) * 0xC00000000 - reservedBytes s ∨ (k + 1) * 0xC00000000 ≤ base

/-- R377, R10: an accepted write sets the register and locks it, a refused one sets badrange, and a locked register keeps its
value. That a bit which hardware sets stays set until time passes is how the model holds R10's same cycle (log 89). -/
def FirmwareLock : Prop :=
  ∀ (s : State) (v : BitVec 64),
    (s.fwlock = true → exec (.fwrangeWrite v) s = .next s) ∧
    (s.fwlock = false → FirmwareRangeOk s v →
      exec (.fwrangeWrite v) s = .next { s with
        fwrange := BitVec.ofNat 64 (fld v 63 48 * 2 ^ 48 + fld v 35 0), fwlock := true }) ∧
    (s.fwlock = false → ¬FirmwareRangeOk s v → exec (.fwrangeWrite v) s =
      .next { s with badrange := true, justSet := .badrange :: s.justSet })

/-- R383: each FEATACC is written once, with the written AND the offered value; FEAT0 has bit 8 on a G9-M alone. At
acceptance without bit 9, MEMCFG.integ falls, unless a launch has fixed it. A change counts in MEASGEN (R381). That a write
before firmware has started (R386 step 6) is ignored is the model's choice (log 86). -/
def FeatureAcceptance : Prop :=
  ∀ (s : State) (k : Nat) (v : BitVec 32), s.featWritten.length = 4 → s.featacc.length = 4 →
    let feat : Word := if k = 0 then (if s.form = 2 then 0xFFF#32 else 0xEFF#32) else 0
    (s.passed = false ∨ 4 ≤ k ∨ s.featWritten[k]? = some true → exec (.feataccWrite k v) s = .next s) ∧
    (s.passed = true → s.featWritten[k]? = some false → ∃ t, exec (.feataccWrite k v) s = .next t ∧
      t = { s with featacc := t.featacc, featWritten := t.featWritten, measgen := s.measgen + 1, memcfg := t.memcfg } ∧
      t.featacc[k]? = some (v &&& feat) ∧ t.featWritten[k]? = some true ∧
      (∀ j, j ≠ k → t.featacc[j]? = s.featacc[j]? ∧ t.featWritten[j]? = s.featWritten[j]?) ∧
      t.memcfg = if k = 0 ∧ v.getLsbD 9 = false ∧ s.launched = false then 0 else s.memcfg)

/-- R391, R383: MEMCFG.integ is fixed by the first launch, and a 1 is ignored once FEATACC0 was written without bit
9; so is any write before firmware has started (R386 step 6, the model's choice, log 86). -/
def IntegritySwitch : Prop :=
  ∀ (s : State) (v : BitVec 32),
    exec (.memcfgWrite v) s = .next
      (if s.passed = false ∨ s.launched = true ∨ (v.getLsbD 0 = true ∧ s.featWritten.getD 0 false = true ∧ (s.featacc.getD 0 0).getLsbD 9 = false)
       then s
       else { s with memcfg := (if v.getLsbD 0 then 1 else 0), measgen := s.measgen + 1 })

/-- R391, R381: the first write of KEYPOL fixes lockd, every write sets maxkd. -/
def KeyPolicy : Prop :=
  ∀ (s : State) (v : BitVec 32), ∃ t, exec (.keypolWrite v) s = .next t ∧
    t = { s with keypol := t.keypol, keypolLocked := true, measgen := s.measgen + 1 } ∧
    fld t.keypol 7 0 = fld v 7 0 ∧ fld t.keypol 30 8 = 0 ∧
    t.keypol.getLsbD 31 = (if s.keypolLocked then s.keypol.getLsbD 31 else v.getLsbD 31)

/-- R336, R381: the heap's base and size, and its bandwidth cap, which keeps its value on a write outside 1 to 1,024; before
firmware has started (R386 step 6) a write is ignored, which is the model's choice (log 86). -/
def HeapRegisters : Prop :=
  ∀ (s : State) (v : BitVec 64) (x : BitVec 32),
    (s.passed = false → (∀ size, exec (.ctxheapWrite size v) s = .next s) ∧ exec (.heapbwWrite x) s = .next s) ∧
    (s.passed = true → ∃ t, exec (.ctxheapWrite false v) s = .next t ∧
      t = { s with ctxBase := BitVec.ofNat 64 (fld v 51 16 * 65536), measgen := s.measgen + 1 }) ∧
    (s.passed = true → ∃ t, exec (.ctxheapWrite true v) s = .next t ∧
      t = { s with ctxSize := BitVec.ofNat 64 (fld v 39 16 * 65536), measgen := s.measgen + 1 }) ∧
    (s.passed = true → exec (.heapbwWrite x) s = .next
      (if 1 ≤ fld x 15 0 ∧ fld x 15 0 ≤ 1024 then { s with heapbw := BitVec.ofNat 32 (fld x 15 0) } else s))

/-- R391: grace is written, and slice only with 100 to 100,000. R387: the cap is written, and a value below 1,200 leaves
it (log 32). -/
def SliceAndPower : Prop :=
  ∀ (s : State) (v : BitVec 32),
    (∃ t, exec (.vfsliceWrite v) s = .next t ∧ t = { s with vfslice := t.vfslice } ∧
      fld t.vfslice 31 17 = fld v 31 17 ∧
      fld t.vfslice 16 0 = if 100 ≤ fld v 16 0 ∧ fld v 16 0 ≤ 100000 then fld v 16 0 else fld s.vfslice 16 0) ∧
    exec (.pwrcapWrite v) s = .next
      (if fld v 15 0 < 1200 then s else { s with pwrcap := BitVec.ofNat 32 (fld v 15 0) })

/-- A die's registers change and nothing else does. -/
def DieBecomes (i : Instr) (s : State) (d : Nat) (f : Die → Die) : Prop :=
  ∃ t, exec i s = .next t ∧ t = { s with dies := t.dies } ∧
    ∀ j, t.dies[j]? = if j = d then s.dies[j]?.map f else s.dies[j]?

/-- A cluster's registers change and nothing else does. -/
def ClusterBecomes (i : Instr) (s : State) (d cl : Nat) (f : Cluster → Cluster) : Prop :=
  ∃ t, exec i s = .next t ∧ t = { s with dies := t.dies } ∧
    ∀ j, t.dies[j]?.map (fun x => { x with clusters := [] }) = s.dies[j]?.map (fun x => { x with clusters := [] }) ∧
      ∀ c, (t.dies[j]?.bind fun x => x.clusters[c]?) =
        if j = d ∧ c = cl then (s.dies[j]?.bind fun x => x.clusters[c]?).map f else s.dies[j]?.bind fun x => x.clusters[c]?

/-- R391: the queue-descriptor base, written only while every queue of the die is in state 0 (a die whose base was not
written has none: the model's choice, log 39, as is that another write is ignored); R265: a write clears HOODDROP. -/
def DieRegisters : Prop :=
  ∀ (s : State) (die cl : Nat) (v : BitVec 64),
    let idle := (dieOf s die).qdescWritten = true → ∀ q, q < 4096 → qdesc s die q / 2 ^ 238 % 4 = 0
    (idle → DieBecomes (.qdescBaseWrite die v) s die (fun d =>
      { d with qdescBase := BitVec.ofNat 64 (fld v 51 12 * 4096), qdescWritten := true })) ∧
    (¬idle → exec (.qdescBaseWrite die v) s = .next s) ∧
    ClusterBecomes (.hooddropClear die cl) s die cl (fun c => { c with drop := 0 })

/-- The ring of an index in the order of R388 Table 7. -/
def ringSet (k : Nat) (f : Ring → Ring) (d : Die) : Die :=
  match k with
  | 0 => { d with fault := f d.fault }
  | 1 => { d with suspect := f d.suspect }
  | 2 => { d with partialR := f d.partialR }
  | 3 => { d with memerr := f d.memerr }
  | 4 => { d with reclaim := f d.reclaim }
  | _ => d

/-- R389: a write of BASE resets PROD and CONS; a write of CONS below its value or above PROD is ignored; so is one of
MIGTAIL below its value or above MIGHEAD + 2^size_log2. -/
def RingRegisters : Prop :=
  ∀ (s : State) (die k : Nat) (v : BitVec 64), k < 5 →
    DieBecomes (.ringBaseWrite die k v) s die
      (ringSet k fun r => { r with base := BitVec.ofNat 64 (fld v 51 12 * 4096 + fld v 4 0), prod := 0, cons := 0 }) ∧
    DieBecomes (.ringBaseWrite die 5 v) s die
      (fun d => { d with migbase := BitVec.ofNat 64 (fld v 51 12 * 4096 + fld v 4 0) }) ∧
    DieBecomes (.ringConsWrite die k v) s die
      (ringSet k fun r => if r.cons.toNat ≤ v.toNat ∧ v.toNat ≤ r.prod.toNat then { r with cons := v } else r) ∧
    DieBecomes (.migtailWrite die v) s die (fun d =>
      if d.migtail.toNat ≤ v.toNat ∧ v.toNat ≤ d.mighead.toNat + 2 ^ fld d.migbase 4 0 then { d with migtail := v } else d)

/-- R362: the host writes a frame's count, and a saturated count never changes. -/
def ReferenceCounts : Prop :=
  ∀ (s : State) (frame : Nat) (v : BitVec 16), ∃ t, exec (.rcwinWrite frame v) s = .next t ∧
    t = { s with counts := t.counts } ∧
    (∀ f, f ≠ frame → countOf t (f * 65536) = countOf s (f * 65536)) ∧
    countOf t (frame * 65536) = if countOf s (frame * 65536) = 0xFFFF#16 then 0xFFFF#16 else v

/-- R388, R10: plain registers of the package block: FABNODE before the first launch, ASIDTAB, the write-one-to-clear bits
of FWSTAT and MIRSTAT, which stay set where hardware set them in the same cycle (log 89), PEERMAP; MEASGEN, TOPO_BASE and
the offsets 0x130 to 0xFFF, which Table 7 does not name, are not written, and a virtual function writes only its own
counter registers. -/
def PlainRegisters : Prop :=
  ∀ (s : State) (v : BitVec 128),
    exec (.registerWrite 16 0x80 v) s = .next { s with asidtab := BitVec.ofNat 64 (fld v 51 6 * 64) } ∧
    exec (.registerWrite 16 0x70 v) s =
      .next (if s.launched then s else { s with fabnode := BitVec.ofNat 32 (fld v 11 0) }) ∧
    exec (.registerWrite 16 0x28 v) s = .next { s with
      badrange := if v.getLsbD 29 = true ∧ Sticky.badrange ∉ s.justSet then false else s.badrange } ∧
    exec (.registerWrite 16 0xD0 v) s = .next { s with
      mirBroken := if v.getLsbD 31 = true ∧ Sticky.broken ∉ s.justSet then false else s.mirBroken } ∧
    (∀ i, i < 64 → ∃ t, exec (.registerWrite 16 (0x2000 + 8 * i) v) s = .next t ∧
      t = { s with peermap := t.peermap } ∧
      ∀ n, n ∈ t.peermap ↔ if n / 64 = i then v.getLsbD (n % 64) = true else n ∈ s.peermap) ∧
    (∀ offset, offset = 0x30 ∨ offset = 0x60 ∨ 0x130 ≤ offset ∧ offset < 0x1000 →
      exec (.registerWrite 16 offset v) s = .next s) ∧
    (∀ fn offset, fn < 16 → ∃ t, exec (.registerWrite fn offset v) s = .next t ∧ t = { s with pmcs := t.pmcs } ∧
      (offset < 0x100 ∨ 0x130 ≤ offset → t = s) ∧ ∀ f, f ≠ fn → t.pmcs.lookup f = s.pmcs.lookup f)

/-! ### Kinds, translation, watches -/

/-- A field of CLKIND holds kind k. -/
def hasKind (v : BitVec 32) (k : Nat) : Bool := (List.range 6).any fun c => fld v (2 * c + 1) (2 * c) = k

/-- A die after a write of CLKIND that is ignored, that changes no kind, or that starts a change; `just` says that hardware
set rejected in the same cycle. -/
def kindsTaken (v : BitVec 32) (just ignored : Bool) (d : Die) : Die :=
  let kept := if v.getLsbD 30 && !just then d.clkind &&& 0xBFFFFFFF#32 else d.clkind
  if ignored then { d with clkind := d.clkind ||| 0x40000000#32 }
  else if fld v 11 0 = fld d.clkind 11 0 then { d with clkind := kept }
  else { d with clkind := (kept &&& 0x7FFFF000#32) ||| (v &&& 0xFFF#32) ||| 0x80000000#32,
                kindsNow := BitVec.ofNat 12 (fld d.clkind 11 0) }

/-- R161, R162, R383: CLKIND takes a change of kinds and is busy until it ends; a write while busy, of kind 3, or of a
kind whose feature is not accepted is ignored and sets rejected, which a 1 clears otherwise, but not in the cycle in which
hardware set it (R10, log 89). -/
def KindChangeStarts : Prop :=
  ∀ (s : State) (die : Nat) (v : BitVec 32),
    let wide := !(s.featWritten.getD 0 false) || (s.featacc.getD 0 0).getLsbD 3
    let ignored := (dieOf s die).clkind.getLsbD 31 || hasKind v 3 || (!wide && (hasKind v 1 || hasKind v 2))
    ∃ t, exec (.clkindWrite die v) s = .next t ∧
      t = { s with dies := t.dies, justSet := if ignored then .rejected die :: s.justSet else s.justSet } ∧
      ∀ j, t.dies[j]? = if j = die then s.dies[j]?.map (kindsTaken v (s.justSet.contains (.rejected die)) ignored)
        else s.dies[j]?

/-- The kind field of a cluster changes (R161). -/
def kindChanges (d : Die) (c : Nat) : Prop := fld d.clkind (2 * c + 1) (2 * c) ≠ fld d.kindsNow (2 * c + 1) (2 * c)

/-- R161, R381: once the changing clusters are empty their positions are bound to the new kind, or to none, busy clears
and the change counts in MEASGEN; other positions stay as they are. -/
def KindChangeEnds : Prop :=
  ∀ (s : State) (die : Nat), die < s.dies.length → (dieOf s die).clkind.getLsbD 31 = true →
    (∀ q, q < 144 → kindChanges (dieOf s die) (clusterOf q) →
      (coreAt s die q).warps = [] ∧ (coreAt s die q).beds = [] ∧ (coreAt s die q).restore = [] ∧ residents s die q = []) →
    ∃ t, exec (.clusterRebind die) s = .next t ∧
      (dieOf t die).clkind = (dieOf s die).clkind &&& 0x7FFFFFFF#32 ∧
      (dieOf t die).kindsNow = BitVec.ofNat 12 (fld (dieOf s die).clkind 11 0) ∧ t.measgen = s.measgen + 1 ∧
      (∀ d q, ¬(d = die ∧ q < 144 ∧ kindChanges (dieOf s die) (clusterOf q)) → coreAt t d q = coreAt s d q) ∧
      ∀ q, q < 144 → kindChanges (dieOf s die) (clusterOf q) →
        let c := clusterOf q
        (coreAt t die q).kind = 3 ∨ (coreAt t die q).kind = fld (dieOf s die).clkind (2 * c + 1) (2 * c)

/-- R361, R146: TLBINV starts a change while none runs, and busy clears when no checked access to the pages is still to
be performed. -/
def TranslationChange : Prop :=
  ∀ (s : State) (v : BitVec 128),
    (s.tlbBusy = false → ∃ t, exec (.tlbinvWrite v) s = .next t ∧
      t = { s with tlbinv := t.tlbinv, tlbBusy := v.getLsbD 127 } ∧
      fld t.tlbinv 51 16 = fld v 51 16 ∧ fld t.tlbinv 63 52 = fld v 63 52 ∧ fld t.tlbinv 95 64 = fld v 95 64) ∧
    let waits := accessPending s (fld s.tlbinv 63 52) (fld s.tlbinv 51 16) (fld s.tlbinv 95 64)
    exec .tlbinvComplete s = .next (if s.tlbBusy && !waits then { s with tlbBusy := false } else s)

/-- R363: POOLADD puts a frame behind the others of a usable ring that has room and counts it; otherwise the frame is
dropped and counted lost. R377: where the ASID's entry lies in the locked firmware range the write is discarded and counted
(that the device's own structures are subject to the lock is log 84). -/
def PoolGrows : Prop :=
  ∀ (s : State) (v : BitVec 64), Canonical s →
    let asid := fld v 63 52
    let e := asidEntry s asid
    let cnt := e / 2 ^ 328 % 2 ^ 32
    let size := 2 ^ (e / 2 ^ 320 % 2 ^ 8)
    let lost := e / 2 ^ 360 % 2 ^ 32
    let slot := e / 2 ^ 256 % 2 ^ 64 + 8 * ((lookupD s.poolHead asid 0 + cnt) % size)
    let at_ := s.asidtab.toNat + 64 * asid
    (fwDenied s .phys at_ 64 = true → exec (.pooladdWrite v) s =
      .next { s with denied := if s.denied = 0xFFFF#16 then s.denied else s.denied + 1 }) ∧
    (poolUsable s asid = true → cnt < size → slot + 8 ≤ at_ ∨ at_ + 64 ≤ slot → fwDenied s .phys slot 8 = false →
      ∃ t, exec (.pooladdWrite v) s = .next t ∧ readN t .phys slot 8 = fld v 51 16 * 65536 ∧
        asidEntry t asid = e + 2 ^ 328) ∧
    (fwDenied s .phys at_ 64 = false → poolUsable s asid = false ∨ size ≤ cnt →
      ∃ t, exec (.pooladdWrite v) s = .next t ∧ t = { s with mem := t.mem } ∧
        asidEntry t asid = if lost = 2 ^ 32 - 1 then e else e + 2 ^ 360)

/-- R345, R10: a write of CONFWATCH sets the signal, the shadow and en; suspect clears by a 1, but not in the cycle in which
hardware sets it (log 89), err is read-only. That a watch of other addresses, or one that is off, holds no value is the
model's choice (log 53). -/
def WatchWrite : Prop :=
  ∀ (s : State) (die i : Nat) (v : BitVec 128), die < s.dies.length →
    ∃ t, exec (.confwatchWrite die i v) s = .next t ∧ t = { s with dies := t.dies } ∧
      (∀ j, j ≠ die → t.dies[j]? = s.dies[j]?) ∧
      { dieOf t die with watches := [] } = { dieOf s die with watches := [] } ∧
      (∀ k, k ≠ i → (dieOf t die).watches.lookup k = (dieOf s die).watches.lookup k) ∧
      ∃ w, (dieOf t die).watches.lookup i = some w ∧
        let old := lookupD (dieOf s die).watches i ⟨0, []⟩
        fld w.reg 115 0 = fld v 115 0 ∧ fld w.reg 124 116 = 0 ∧ w.reg.getLsbD 127 = v.getLsbD 127 ∧
        w.reg.getLsbD 126 = (old.reg.getLsbD 126 && !(v.getLsbD 126 && !(s.justSet.contains (.suspect die i)))) ∧ w.reg.getLsbD 125 = old.reg.getLsbD 125 ∧
        (v.getLsbD 127 = false ∨ old.reg.getLsbD 127 = false ∨ fld v 115 0 ≠ fld old.reg 115 0 → w.held = []) ∧
        (v.getLsbD 127 = true → old.reg.getLsbD 127 = true → fld v 115 0 = fld old.reg 115 0 →
          v.getLsbD 126 = false → w.held = old.held)

/-- R407: MIRCFG.en follows a write only while no mir leaf is valid; the other fields follow every write, since R407 names en
alone (the model's choice, log 39). -/
def MirrorSwitch : Prop :=
  ∀ (s : State) (v : BitVec 64),
    exec (.mircfgWrite v) s = .next { s with
      mircfg := BitVec.ofNat 64 ((if anyMirLeaf s then s.mircfg else v).toNat / 2 ^ 63 * 2 ^ 63 +
        fld v 59 48 * 2 ^ 48 + fld v 35 0) }

/-- R315, R4: SIGNOTIFY of any of the four dies makes every die's waiting barrier packets re-read their lists. -/
def SignalNotified : Prop :=
  ∀ (s : State) (die : Nat) (v : BitVec 64), (4 ≤ die → exec (.signotifyWrite die v) s = .next s) ∧
    (die < 4 → ∃ t, exec (.signotifyWrite die v) s = .next t ∧ t = { s with dies := t.dies } ∧ ∀ d : Nat, t.dies[d]? = s.dies[d]?.map fun (x : Die) =>
      ({ x with packets := x.packets.map fun p => if p.kind = 2 then { p with rereads := true } else p } : Die))

/-- The range lies in one region of R355 Table 1, outside the reserved tops of the stacks (R356). -/
def Reachable (s : State) (pa n : Nat) : Prop :=
  pa + n ≤ 12 * 0xC00000000 ∧ meetsReserved s pa n = false ∨
    0x400000000000 ≤ pa ∧ pa + n ≤ 0x800000000000 ∨ 0x800000000000 ≤ pa ∧ pa + n ≤ 2 ^ 52

/-- Where a die's queue descriptors lie (R308). -/
def descriptorsAt (s : State) (d : Nat) : Nat := fld (dieOf s d).qdescBase 51 12 * 4096

/-- R294, R355, R356, R377: a host or peer write lands in memory, a read of sound memory returns its bytes, a read of a
poisoned sector, or of a unit whose tag fails (R373), an error completion (R347), the bytes of a write in the locked firmware
range are discarded, and an access outside the regions or to the reserved range does nothing (that nothing answers it is the
model's choice, log 77). R308, R10: a descriptor of a queue that is not in state 0 takes no write of the host, and no
descriptor its state and error. The host path is of key domain 0 by log 37. -/
def PeerAccesses : Prop :=
  ∀ (s : State) (pa : Nat) (bytes : List (BitVec 8)), Canonical s → 0 < bytes.length →
    let n := bytes.length
    (¬Reachable s pa n → ∀ w, exec (.peerMemoryAccess w pa bytes) s = .next s) ∧
    (Reachable s pa n →
      (movingEntries s = [] → Keyed s pa n (keyId s 0) →
        (∀ d, d < 4 → (dieOf s d).qdescWritten = true →
          pa + n ≤ descriptorsAt s d ∨ descriptorsAt s d + 64 * 4096 ≤ pa) →
        ∃ t, exec (.peerMemoryAccess true pa bytes) s = .next t ∧ t.cores = s.cores ∧
          Stored s t .phys pa (bytes.mapIdx fun i b => if fwDenied s .phys (pa + i) 1 then none else some b)) ∧
      (∀ d q, d < 4 → q < 4096 → (dieOf s d).qdescWritten = true → descriptorsAt s d + 64 * q ≤ pa →
        pa + n ≤ descriptorsAt s d + 64 * q + 64 →
        ofBytes (readBytes s .phys (descriptorsAt s d + 64 * q) 64) / 2 ^ 238 % 4 ≠ 0 ∨
          descriptorsAt s d + 64 * q + 29 ≤ pa →
        ∃ t, exec (.peerMemoryAccess true pa bytes) s = .next t ∧ t.cores = s.cores ∧ t.mem = s.mem ∧
          t.locals = s.locals) ∧
      (isPoisoned s .phys pa n = false → tagMismatch s .phys pa n (keyId s 0) = false →
        ∃ t, exec (.peerMemoryAccess false pa bytes) s = .next t ∧ t.mem = s.mem ∧ t.locals = s.locals ∧
          t.out = s.out ++ [.readData pa (agentBytes s .phys pa n (keyId s 0))]) ∧
      (isPoisoned s .phys pa n = true → tagMismatch s .phys pa n (keyId s 0) = false →
        exec (.peerMemoryAccess false pa bytes) s = .next { s with out := s.out ++ [.readError pa] }) ∧
      (tagMismatch s .phys pa n (keyId s 0) = true → ∃ t, exec (.peerMemoryAccess false pa bytes) s = .next t ∧
        t.out.getLast? = some (.readError pa)))

/-- R374: a write of a part of a unit whose old data fails its tag stores nothing of that unit and poisons both its
sectors, and the writer is not faulted; the record lies in the memory error ring, or is counted lost (R375, R390). That the
old data is read in key domain 0, that the record has ASID 0, src 1 and kind 2, and that a unit of which both sectors are
poisoned already keeps to R347 are the model's choices (logs 27 and 37). -/
def TornWrites : Prop :=
  ∀ (s : State) (pa : Nat) (bytes : List (BitVec 8)), Canonical s → 0 < bytes.length →
    pa + bytes.length ≤ pa / 64 * 64 + 64 → bytes.length < 64 → pa < 12 * 0xC00000000 →
    meetsReserved s pa bytes.length = false → fwDenied s .phys pa bytes.length = false → movingEntries s = [] →
    (∀ d, d < 4 → (dieOf s d).qdescWritten = true →
      pa + bytes.length ≤ descriptorsAt s d ∨ descriptorsAt s d + 64 * 4096 ≤ pa) →
    s.memcfg.getLsbD 0 = true → foreign s (pa / 64) (keyId s 0) = true → marked s (pa / 64) = false → pa / 64 ∉ s.rmwBad →
    let d := pa / 0xC00000000 / 3
    let r := (dieOf s d).memerr
    let room := baseUsable r.base 32 = true ∧ r.prod.toNat + 1 ≤ r.cons.toNat + 2 ^ fld r.base 4 0
    let slot := fld r.base 51 12 * 4096 + r.prod.toNat % 2 ^ fld r.base 4 0 * 32
    (room → (slot + 32 ≤ pa / 64 * 64 ∨ pa / 64 * 64 + 64 ≤ slot) ∧ fwDenied s .phys slot 32 = false ∧
      Keyed s slot 32 (keyId s 0)) →
    ∃ t, exec (.peerMemoryAccess true pa bytes) s = .next t ∧ t.cores = s.cores ∧
      isPoisoned t .phys (pa / 64 * 64) 32 = true ∧ isPoisoned t .phys (pa / 64 * 64 + 32) 32 = true ∧
      (¬room → t.mem = s.mem ∧ t.locals = s.locals) ∧
      (room → d < s.dies.length → Stored s t .phys slot
        ((toBytes 32 (2 + 2 ^ 4 + pa / 0xC00000000 * 2 ^ 8 + pa / 64 * 64 * 2 ^ 64 + s.ns * 2 ^ 192)).map some) ∧
        (dieOf t d).memerr.prod = r.prod + 1)

/-! ### Replies to posted faults, function-level reset -/

/-- The FAULTREPLY register of a die after a reply (R324). -/
def replied (kill err : Bool) (seq : Word) (d : Die) : Die :=
  { d with reply := BitVec.ofNat 64 (seq.toNat + (if kill then 2 ^ 32 else 0) + (if err then 2 ^ 62 else 0)),
           replyErr := err }

/-- The placed blocks of a grid are the ones that their linear indices name. -/
def oneBlock (g : Grid) : Prop := ∀ h ∈ g.hoods, ∀ b ∈ h.blocks, b.st = .placed → g.block b.idx = some b

/-- A warp whose records of a sequence number may replay. -/
def mayReplay (die : Nat) (seq : Word) (x : Warp) : Warp :=
  let f := fun (g : Fault256) => if g.seq = some (die, seq) then { g with ready := true, seq := none } else g
  { x with faults := x.faults.map f }

/-- R151, R154, R324, R416: a reply to an unknown sequence number sets err; a resume makes every part of the parked path of
the record ready to replay, in a resident warp or in a saved one; a kill kills its block and ends the grid with cause 2. -/
def FaultReplies : Prop :=
  ∀ (s : State) (die : Nat) (seq : Word),
    (parkedAt s die seq = [] → savedAt s die seq = [] → unitWaiting s die seq = none → updateWaiting s die seq = none →
      DieBecomes (.faultreplyResume die seq) s die (replied false true seq) ∧
      DieBecomes (.faultreplyKill die seq) s die (replied true true seq)) ∧
    (parkedAt s die seq ≠ [] ∨ savedAt s die seq ≠ [] →
      ∃ t, exec (.faultreplyResume die seq) s = .next t ∧
        t = { s with dies := t.dies, cores := t.cores, contexts := t.contexts } ∧
        (∀ d, t.dies[d]? = if d = die then s.dies[d]?.map (replied false false seq) else s.dies[d]?) ∧
        (∀ d q n x, (coreAt s d q).warpAt n = some x → (coreAt t d q).warpAt n = some (mayReplay die seq x)) ∧
        t.contexts.map (fun c => c.blocks.map fun b => b.warps.map fun w => w.warp) =
          s.contexts.map (fun c => c.blocks.map fun b => b.warps.map fun w => mayReplay die seq w.warp)) ∧
    (∀ w f, (w, f) ∈ parkedAt s die seq → (∀ x ∈ repliedBlocks s die seq, x.1 = w.grid) →
      ∃ t, exec (.faultreplyKill die seq) s = .next t ∧
        (die < s.dies.length → (dieOf t die).reply = BitVec.ofNat 64 (seq.toNat + 2 ^ 32)) ∧
        ∀ g, gridAt s w.grid = some g → g.ended = none → g.complete = false → oneBlock g →
          ∃ g', gridAt t w.grid = some g' ∧ g'.ended = some 2 ∧ ∀ h ∈ g'.hoods, ∀ b ∈ h.blocks, b.st ≠ .placed)

/-- R384, R325: a function-level reset resets each queue of the function and zeroes its counters. -/
def FunctionReset : Prop :=
  ∀ (s : State) (vf die : Nat), vf < 16 → die < 4 → die < s.dies.length →
    (∀ d, d < 4 → d ≠ die → (dieOf s d).qdescWritten = false) →
    ∃ t, exec (.functionLevelReset vf) s = .next t ∧
      (∀ x ∈ t.pmcs, x.1 = vf → x.2.cnt = List.replicate 4 0) ∧
      (∀ q ∈ queuesOf s die vf, q ∈ (dieOf t die).resetting) ∧
      (queuesOf s die vf = [] → t = { s with pmcs := t.pmcs })

/-! ### Reset, boot, attestation, world switch -/

/-- R386, R382, R415: a package reset puts everything to its reset value but memory, flash, the repair tables and the
fuses; keys are gone, and no unit of HBM is stored under the key that domain 0 has then. That memory and the stores of flash
stay is the model's choice (log 1), as are the reset values that no rule gives (log 5) and that every unit counts as written
under another key (log 49). -/
def ResetAll : Prop :=
  ∀ s : State, ∃ t, exec .packageReset s = .next t ∧
    t = { State.reset with
      agenda := s.agenda, mem := s.mem, locals := t.locals, poison := t.poison, keyGen := t.keyGen, dies := t.dies,
      out := s.out, fresh := t.fresh, form := s.form, fuseDigest := s.fuseDigest, fuseSvn := s.fuseSvn } ∧
    (∀ d : Nat, t.dies[d]? = s.dies[d]?.map fun (x : Die) => ({ Die.reset with repair := x.repair } : Die)) ∧
    (∀ l, l ∈ t.locals ↔ l ∈ s.locals ∧ (l.key = .flash ∨ l.key = .yew ∨ l.key = .nvme)) ∧
    (∀ x, x ∈ t.poison ↔ x ∈ s.poison ∧ x.1 = .phys) ∧
    ∀ u, foreign t u (keyId t 0) = true

/-- The firmware image at the locked range (R378 Table 2): a field of the header, and the signed content. -/
def imageField (s : State) (lo n : Nat) : List Byte := readBytes s .phys (fld s.fwrange 35 0 * 65536 + lo) n
def imageSigned (s : State) : List Byte := imageField s 0 512 ++ imageField s 1024 (ofBytes (imageField s 4 4))

/-- The code of R379 for the image, 0 when it verifies. -/
def r379 (s : State) : Nat :=
  let zero := fun (l : List Byte) => l.all fun b => b = 0#8
  if ofBytes (imageField s 0 4) ≠ 0x4C474657 ∨ fld s.fwrange 63 48 * 65536 < 1024 + ofBytes (imageField s 4 4) ∨
      zero (imageField s 12 116) = false ∨ zero (imageField s 896 128) = false then 1
  else if ofBytes (sha256 (imageField s 128 384)).reverse ≠ s.fuseDigest.toNat then 2
  else if ofBytes (imageField s 8 2) < s.fuseSvn.toNat then 3
  else if rsaVerifies (imageField s 128 384) (imageField s 512 384) (imageSigned s) then 0 else 4

/-- R377, R379, R386: the boot ROMs verify the image once, after the lock. On a failure every die keeps its code; else the
digest of the signed content is recorded, firmware runs, the links come up, and every core is in service mode with
its first coppice pass begun; each of blocks 2 and 4 counts once in MEASGEN (R381). That ready is one event and that one
image serves the four dies at once is the model's choice (log 49). -/
def Boot : Prop :=
  (∀ s : State, exec .bootRomReady s = .next { s with ready := true }) ∧
  ∀ s : State,
    (s.ready = false ∨ s.fwlock = false ∨ (∃ x ∈ s.fwpass, x ≠ none) → exec .firmwareVerify s = .next s) ∧
    (s.ready = true → s.fwlock = true → (∀ x ∈ s.fwpass, x = none) →
      (r379 s ≠ 0 → exec .firmwareVerify s = .next { s with fwpass := List.replicate 4 (some (r379 s)) }) ∧
      (r379 s = 0 → ∃ t, exec .firmwareVerify s = .next t ∧ t.passed = true ∧ t.fwpass = List.replicate 4 (some 0) ∧
        t.measgen = s.measgen + 2 ∧
        t.measFw = BitVec.ofNat 256 (ofBytes (sha256 (imageSigned s)).reverse) ∧
        t.ports = s.ports.map (fun p => { p with up := true }) ∧
        (∀ d, d < 4 → d < s.dies.length → (dieOf t d).inRom = false) ∧
        ∀ c ∈ t.cores, c.kind ≠ 3 → c.service = true ∧ c.passBegan = some s.ns))

/-- The requests of R380 that only move the exchange on: when one is in its place, and what it leaves. -/
def rowSpdm : Instr → Option ((Spdm → Bool) × (Spdm → Spdm))
  | .getVersion => some (fun _ => true, fun _ => ⟨true, false, false, false, false, none⟩)
  | .getCapabilities => some (fun x => x.version, fun x => { x with caps := true })
  | .negotiateAlgorithms => some (fun x => x.caps, fun x => { x with algs := true })
  | .getDigests => some (fun x => x.algs, fun x => x)
  | .getCertificate => some (fun x => x.algs, fun x => x)
  | .challenge => some (fun x => x.algs, fun x => x)
  | .keyExchange => some (fun x => x.algs, fun x => { x with keyEx := true, session := false, signedGen := none })
  | .finish => some (fun x => x.keyEx, fun x => { x with keyEx := false, session := true, signedGen := none })
  | _ => none

/-- R380: every request is answered, and an answer changes nothing else but the place in the exchange. The order in which
requests are in place is the standard's (log 43), and so are the bytes of an answer, which are free (log 13). -/
def Exchange : Prop :=
  (∀ (i : Instr) (ok : Spdm → Bool) (f : Spdm → Spdm), rowSpdm i = some (ok, f) → ∀ s : State, ∃ t bytes,
    exec i s = .next t ∧ t = { s with out := s.out ++ [.spdm bytes], fresh := t.fresh,
                                      spdm := if ok s.spdm then f s.spdm else s.spdm }) ∧
  ∀ (code : BitVec 8) (s : State), ∃ bytes,
    exec (.unsupportedRequest code) s = .next { s with out := s.out ++ [.spdm bytes] } ∧ code ∈ bytes

/-- R380 Table 3, R381: the measurement response carries the digests of the blocks and MEASGEN of one instant; a signed
one in the session counts for KEYREL. The canonical bytes of blocks 1 and 3 are the model's choice: a ROM version of four
free bytes before the svn, and integ without the locked bit (log 43). -/
def Measurements : Prop :=
  ∃ version : List Byte, version.length = 4 ∧
  ∀ (signed inSession : Bool) (s : State), s.spdm.algs = true → (inSession = true → s.spdm.session = true) →
    ∃ t sig, exec (.getMeasurements signed inSession) s = .next t ∧
      t = { s with
        out := s.out ++ [.spdm (sha256 (version ++ toBytes 2 s.fuseSvn.toNat) ++ (toBytes 32 s.measFw.toNat).reverse ++
          sha256 (toBytes 4 s.memcfg.toNat ++ toBytes 8 s.ctxBase.toNat ++ toBytes 8 s.ctxSize.toNat) ++
          sha256 ((List.range 4).flatMap fun d => toBytes 64 (dieOf s d).repair.toNat ++
            (List.range 144).flatMap fun q => toBytes 16 (coreAt s d q).entry.toNat) ++
          sha256 (toBytes 4 s.keypol.toNat) ++ sha256 (s.featacc.flatMap fun w => toBytes 4 w.toNat) ++
          toBytes 4 s.measgen.toNat ++ sig)],
        spdm := if signed && inSession then { s.spdm with signedGen := some s.measgen } else s.spdm } ∧
      (signed = false → sig = []) ∧ (signed = true → sig.length = 384)

/-- R382: KEYREL loads all its keys in a session whose signed measurements carried the generation that still holds, for
domains from 1 to maxkd that lockd does not hold; otherwise it loads none and answers 0x80. Data under a key that was
replaced no longer reads back: no unit stored under it is stored under the domain's present key. That one before firmware has
started (R386 step 6) is refused is the model's choice (log 86). -/
def KeyRelease : Prop :=
  ∀ (inSession : Bool) (gen : BitVec 32) (pairs : List (BitVec 16 × BitVec 256)) (s : State),
    let fine := s.passed = true ∧ inSession = true ∧ s.spdm.session = true ∧ s.spdm.signedGen = some gen ∧ s.measgen = gen ∧
      pairs.length ≤ 16 ∧ ∀ x ∈ pairs, 1 ≤ x.1.toNat ∧ x.1.toNat ≤ fld s.keypol 7 0 ∧
        (s.keypol.getLsbD 31 = true → s.keys.lookup x.1.toNat = none)
    (¬fine → exec (.keyrel inSession gen pairs) s = .next { s with out := s.out ++ [.spdm [0x80#8]] }) ∧
    (fine → ∃ t, exec (.keyrel inSession gen pairs) s = .next t ∧
      t = { s with keys := t.keys, keyGen := t.keyGen, out := t.out, fresh := t.fresh } ∧
      (∀ kd, t.keys.lookup kd = ((pairs.reverse.find? fun x => x.1.toNat = kd).map (·.2)).or (s.keys.lookup kd)) ∧
      (∀ u kd, s.keys.lookup kd ≠ none → t.keys.lookup kd ≠ s.keys.lookup kd → foreign s u (keyId s kd) = false →
        foreign t u (keyId t kd) = true) ∧
      ∀ kd, (∀ x ∈ pairs, x.1.toNat ≠ kd) → keyId t kd = keyId s kd)

/-- Grids and neighbourhoods are the ones that their numbers name. -/
def oneHood (s : State) : Prop :=
  ∀ g ∈ s.grids, gridAt s g.id = some g ∧ ∀ h ∈ g.hoods, g.hoods.find? (fun y => y.idx = h.idx) = some h

/-- R384: nothing happens before the slice ends; then the next function comes in, and the neighbourhoods of the others
are being freed. -/
def SliceEnds : Prop :=
  ∀ s : State,
    (s.ns < s.sliceNs + fld s.vfslice 16 0 * 1000 → exec .worldSwitch s = .next s) ∧
    (s.sliceNs + fld s.vfslice 16 0 * 1000 ≤ s.ns → ∃ t, exec .worldSwitch s = .next t ∧
      t.activeVf = nextVf s ∧ t.sliceNs = s.ns ∧ t.pmcs = s.pmcs ∧
      (nextVf s = s.activeVf → t = { s with sliceNs := s.ns }) ∧
      (nextVf s ≠ s.activeVf → oneHood s →
        ∀ g ∈ t.grids, g.vf ≠ nextVf s → ∀ h ∈ g.hoods, h.st ≠ .placed))

/-! ### Queues and packets -/

/-- A number with the field [hi:lo] replaced. -/
def withField (x hi lo v : Nat) : Nat := x / 2 ^ (hi + 1) * 2 ^ (hi + 1) + v % 2 ^ (hi + 1 - lo) * 2 ^ lo + x % 2 ^ lo

/-- Fields of a queue descriptor (R308 Table 2): state, error, indexes, ring, ASID, function. -/
def dState (x : Nat) : Nat := x / 2 ^ 238 % 4
def dErr (x : Nat) : Nat := x / 2 ^ 240 % 256
def dRead (x : Nat) : Nat := x / 2 ^ 64 % 2 ^ 64
def dWrite (x : Nat) : Nat := x / 2 ^ 128 % 2 ^ 64
def dSize (x : Nat) : Nat := 2 ^ (x / 2 ^ 208 % 32)
def dAsid (x : Nat) : Nat := x / 2 ^ 216 % 2 ^ 12
def dVf (x : Nat) : Nat := x / 2 ^ 228 % 16

/-- The queue is one of the 4,096 of a die of the package (R4). -/
def aQueue (die q : Nat) : Prop := die < 4 ∧ q < 4096

/-- A reserved bit of a descriptor is set (R308 Table 2). -/
def dReserved (x : Nat) : Prop :=
  x / 2 ^ 248 % 2 ^ 264 ≠ 0 ∨ x / 2 ^ 232 % 2 ^ 6 ≠ 0 ∨ x / 2 ^ 213 % 2 ^ 3 ≠ 0 ∨ x / 2 ^ 192 % 2 ^ 16 ≠ 0

/-- A queue of state 1 stops in error (R308). -/
def stopped (x err : Nat) : Nat := withField (withField x 247 240 err) 239 238 2

/-- R308, R309: a doorbell of a running queue moves its write index, or is an overrun that stops the queue with err 1; of
any other queue it is ignored. R388: a virtual function rings the doorbells of the queues whose descriptor names it, and no
other (the instruction's die carries the function above its two low bits, 0 for the physical one). -/
def Doorbell : Prop :=
  ∀ (s : State) (die q n : Nat) (v : BitVec 64), Canonical s → die < 4 →
    let x := qdesc s die q
    exec (.qtailWrite (die + 4 * (n + 1)) q v) s =
      (if n < 16 ∧ dVf x = n then exec (.qtailWrite die q v) s else .next s) ∧
    (¬aQueue die q ∨ dState x ≠ 1 → exec (.qtailWrite die q v) s = .next s) ∧
    (aQueue die q → dState x = 1 → ∃ t, exec (.qtailWrite die q v) s = .next t ∧ t = { s with mem := t.mem } ∧
      qdesc t die q = if dWrite x ≤ v.toNat ∧ v.toNat ≤ dRead x + dSize x then withField x 191 128 v.toNat
        else stopped x 1)

/-- The QCTL write of a command to a queue while busy is 0 (R325). -/
def commanded (q cmd : Nat) (busy : Bool) (d : Die) : Die :=
  { d with qctl := BitVec.ofNat 32 (q + cmd * 2 ^ 12 + (if busy then 2 ^ 31 else 0)) }

/-- R4, R325: a start puts a queue of state 0 into state 1 with err 0, once FEATACC0 and the descriptor base were written and
no command is busy, in a package of which all four dies have passed (R379). That a descriptor with a reserved bit set is not
started is the model's choice (log 76), and that the lock of the firmware range holds for the device's own writes (R377) too
(log 84). -/
def QueueStarts : Prop :=
  ∀ (s : State) (die q : Nat), Canonical s → die < s.dies.length →
    let x := qdesc s die q
    let d := dieOf s die
    let may := s.passed = true ∧ d.qctl.getLsbD 31 = false ∧ dState x = 0 ∧ d.qdescWritten = true ∧ s.featWritten.getD 0 false = true ∧
      aQueue die q ∧ ¬dReserved x
    (¬may → exec (.queueStart die q) s = .next s) ∧
    (may → fwDenied s .phys (descriptorsAt s die + 64 * q) 64 = true →
      ∃ t, exec (.queueStart die q) s = .next t ∧ t = { s with denied := t.denied, dies := t.dies }) ∧
    (may → fwDenied s .phys (descriptorsAt s die + 64 * q) 64 = false →
      ∃ t, exec (.queueStart die q) s = .next t ∧ t = { s with mem := t.mem, dies := t.dies } ∧
      qdesc t die q = withField (withField x 239 238 1) 247 240 0 ∧
      dieOf t die = { commanded q 1 false d with halted := d.halted.filter fun k => k ≠ q })

/-- R325: a reset of a queue without unfinished grids puts it into state 3 until its report; a grid of the queue ends
with cause 5, and no engine operation of any of its grids is left. -/
def QueueResets : Prop :=
  ∀ (s : State) (die q : Nat), die < s.dies.length →
    let d := dieOf s die
    (¬aQueue die q ∨ d.qctl.getLsbD 31 = true → exec (.queueReset die q) s = .next s) ∧
    (aQueue die q → d.qctl.getLsbD 31 = false → ∃ t, exec (.queueReset die q) s = .next t ∧
      (dieOf t die).qctl = (commanded q 2 true d).qctl ∧ q ∈ (dieOf t die).resetting ∧
      (∀ g ∈ s.grids, gridAt s g.id = some g → g.die = die → g.queue = q → g.ended = none → g.complete = false →
        ∃ g', gridAt t g.id = some g' ∧ g'.ended = some 5) ∧
      (∀ g ∈ s.grids, g.die = die → g.queue = q → ∀ o ∈ t.ops, o.grid = g.id → o.isEngine = false) ∧
      (Canonical s → fwDenied s .phys (descriptorsAt s die + 64 * q) 64 = false → (∀ g ∈ s.grids, g.die = die → g.queue = q → g.ended ≠ none ∨ g.complete = true) →
        t = { s with mem := t.mem, dies := t.dies, ops := t.ops } ∧
          qdesc t die q = withField (qdesc s die q) 239 238 3))

/-- R325 step 7: once everything of the queue has ended, the reset is reported: err 6, state 0, busy off. -/
def QueueResetReports : Prop :=
  ∀ (s : State) (die q : Nat), Canonical s → die < s.dies.length → (dieOf s die).resetting = [q] →
    fwDenied s .phys (descriptorsAt s die + 64 * q) 64 = false →
    (∀ p ∈ (dieOf s die).packets, p.queue ≠ q) → (∀ u ∈ (dieOf s die).updates, u.queue = q → u.own = false) →
    (∀ g ∈ s.grids, g.die = die → g.queue = q → gridQuiet s g.id = true ∧
      ∀ r ∈ (dieOf s die).pcrs, r.grid = g.id → r.written = true) →
    (∀ d ∈ s.dies, ∀ u ∈ d.updates, u.own = false → ∀ w ∈ u.prov, ∀ g ∈ s.grids, g.die = die → g.queue = q → g.id ≠ w.1) →
    ∃ t, exec (.queueResetReport die) s = .next t ∧ t = { s with mem := t.mem, dies := t.dies } ∧
      qdesc t die q = withField (withField (qdesc s die q) 247 240 6) 239 238 0 ∧ (dieOf t die).resetting = [] ∧
      ((dieOf s die).qctl.toNat % 4096 = q → (dieOf t die).qctl = (dieOf s die).qctl &&& 0x7FFFFFFF#32)

/-- A sound packet of a kind stands next in a queue that may start it, and nothing started bears its index (R309 to
R312, R316). -/
structure PacketAt (s : State) (die q kind p : Nat) : Prop where
  known : die < s.dies.length
  memory : Canonical s
  ready : startable s die q = true
  word : ∃ tr, translate s (dAsid (qdesc s die q))
      (qdesc s die q % 2 ^ 64 + dRead (qdesc s die q) % dSize (qdesc s die q) * 64) false false none = .ok tr ∧
    isPoisoned s .phys tr.pa 64 = false ∧ tagMismatch s .phys tr.pa 64 tr.kd = false ∧
    ofBytes (agentBytes s .phys tr.pa 64 tr.kd) = p
  sound : packetBad p = false
  isKind : p % 16 = kind
  packets : ∀ k ∈ (dieOf s die).packets, k.queue = q → k.idx ≠ dRead (qdesc s die q)
  updates : ∀ u ∈ (dieOf s die).updates, u.queue = q → u.pkt ≠ some (dRead (qdesc s die q))

/-- The packet started: the read index moves on (R310), and besides memory only what is named changes. -/
def Started (s t : State) (die q : Nat) : Prop :=
  qdesc t die q = withField (qdesc s die q) 127 64 (dRead (qdesc s die q) + 1) ∧
    t = { s with mem := t.mem, dies := t.dies, grids := t.grids, ops := t.ops, nextId := t.nextId,
                 launched := t.launched } ∧
    ∀ d : Nat, d ≠ die → t.dies[d]? = s.dies[d]?

/-- A started packet, and an update of a signal by a packet (R313, R314). -/
def startedPacket (s : State) (q idx p csig : Nat) (sigs : List Nat) : Packet :=
  ⟨q, idx, p.testBit 4, p % 16, csig, sigs, false, s.ns⟩
def packetUpdate (q asid va : Nat) (value : BitVec 64) (add negative : Bool) (pkt : Option Nat) : Update :=
  ⟨q, true, asid, va, value, add, none, pkt, none, [], negative⟩

/-- R313: a signal packet owes its update, at whatever address it names. -/
def SignalPacket : Prop :=
  ∀ (s : State) (die q p : Nat), PacketAt s die q 3 p →
    let x := qdesc s die q
    let va := p / 2 ^ 64 % 2 ^ 64
    ∃ t, exec (.packetSignal die q) s = .next t ∧ Started s t die q ∧
      (dieOf t die).packets = (dieOf s die).packets ++ [startedPacket s q (dRead x) p 0 []] ∧
      (dieOf t die).updates = (dieOf s die).updates ++
        [packetUpdate q (dAsid x) va (BitVec.ofNat 64 (p / 2 ^ 128)) (p.testBit 16) false (some (dRead x))]

/-- R313, R372: a die transfer of bytes is one operation in parts of a destination line each; one of no bytes is complete
and lowers its signal by 1, with which update the packet leaves the started ones (R352). -/
def TransferPacket : Prop :=
  ∀ (s : State) (die q p : Nat), PacketAt s die q 4 p →
    let x := qdesc s die q
    let src := p / 2 ^ 64 % 2 ^ 64
    let dst := p / 2 ^ 128 % 2 ^ 64
    let n := p / 2 ^ 192 % 2 ^ 64
    let csig := p / 2 ^ 256 % 2 ^ 64
    ∃ t, exec (.packetDieTransfer die q) s = .next t ∧ Started s t die q ∧
      (0 < n → ∃ o, t.ops = s.ops ++ [o] ∧ o.die = die ∧ o.asid = dAsid x ∧ o.after = [] ∧
        o.kind = .transfer (transferUnits (dAsid x) src dst n) (decide (src < dst + n ∧ dst < src + n)) csig
          (some (q, dRead x)) ∧
        (dieOf t die).packets = (dieOf s die).packets ++ [startedPacket s q (dRead x) p csig []]) ∧
      (n = 0 → freshIds s → t.ops = s.ops ∧
        (csig = 0 → (dieOf t die).packets = (dieOf s die).packets ∧ (dieOf t die).updates = (dieOf s die).updates) ∧
        (csig ≠ 0 → (dieOf t die).packets = (dieOf s die).packets ++ [startedPacket s q (dRead x) p csig []] ∧
          (dieOf t die).updates = (dieOf s die).updates ++
            [packetUpdate q (dAsid x) csig (BitVec.allOnes 64) true false (some (dRead x))]))

/-- R313, R320, R391: a dispatch packet whose launch record passes every check starts a grid with all its neighbourhoods
ready; a record that fails one stops the queue with err 3, and −3 is owed to the signal; a class 7 condition of its side
table is resolved first (R151 does not name side tables: the model's choice, log 35). -/
def DispatchPacket : Prop :=
  ∀ (s : State) (die q p : Nat), PacketAt s die q 1 p →
    let x := qdesc s die q
    let va := p / 2 ^ 64 % 2 ^ 64
    let csig := p / 2 ^ 128 % 2 ^ 64
    let pk := startedPacket s q (dRead x) p csig []
    ∀ r, readRecord s (dAsid x) va = .ok r →
      (launchCheck s die (dAsid x) r = 0 → ∃ t g, exec (.packetDispatch die q) s = .next t ∧ Started s t die q ∧
        t.grids = s.grids ++ [g] ∧ t.launched = true ∧ (dieOf t die).packets = (dieOf s die).packets ++ [pk] ∧
        g.lrec = r ∧ g.id = s.nextId ∧ g.die = die ∧ g.queue = q ∧ g.pkt = dRead x ∧ g.asid = dAsid x ∧
        g.vf = dVf x ∧ g.csig = csig ∧ g.hoods.length = g.blockCount / g.hoodSize ∧
        ∀ h ∈ g.hoods, h.st = .ready ∧ h.blocks.length = g.hoodSize ∧ ∀ b ∈ h.blocks, b.st = .waiting) ∧
      (∀ a d, launchPending s die (dAsid x) r = some (a, d) →
        exec (.packetDispatch die q) s = .next (startMove s die (dAsid x) (a / 65536) d.code)) ∧
      (launchPending s die (dAsid x) r = none → launchCheck s die (dAsid x) r ≠ 0 → dState x = 1 →
        (launchNotes s die (dAsid x) r).mem = s.mem → ∃ t, exec (.packetDispatch die q) s = .next t ∧
        t.grids = s.grids ∧ dErr (qdesc t die q) = 3 ∧ dState (qdesc t die q) = 2 ∧
        (csig ≠ 0 → (dieOf t die).updates = (dieOf s die).updates ++
          [packetUpdate q (dAsid x) csig (BitVec.ofInt 64 (-3)) false true (some (dRead x))]))

/-- The outcome of reading a barrier's list (R313): with every named signal at 0 the packet completes and its signal
falls by 1, with which update it leaves the started packets (R352); with none negative and one above 0 it waits on; with a
negative one its queue stops with err 5 and its signal receives the value. The signals are read in `s1`, in which no tag of
theirs fails. -/
def BarrierRead (s1 s t : State) (die q : Nat) (pk : Packet) (x : Nat) : Prop :=
  let reads := fun (va : Nat) (ok : Int → Prop) => ∃ v, readSignal s1 (dAsid x) va = .ok v ∧ ok v
  (∀ va ∈ pk.sigs, va ≠ 0 → ∀ tr, translate s1 (dAsid x) va false false (some false) = .ok tr →
    tagMismatch s1 .phys tr.pa 8 tr.kd = false) →
  ((∀ va ∈ pk.sigs, va ≠ 0 → reads va (· = 0)) →
    (pk.csig = 0 → (∀ k ∈ (dieOf t die).packets, ¬(k.queue = q ∧ k.idx = pk.idx)) ∧
      (dieOf t die).updates = (dieOf s die).updates) ∧
    (pk.csig ≠ 0 → (∃ k ∈ (dieOf t die).packets, k.queue = q ∧ k.idx = pk.idx) ∧
      (dieOf t die).updates = (dieOf s die).updates ++
        [packetUpdate q (dAsid x) pk.csig (BitVec.allOnes 64) true false (some pk.idx)])) ∧
  ((∀ va ∈ pk.sigs, va ≠ 0 → reads va (0 ≤ ·)) → (∃ va ∈ pk.sigs, va ≠ 0 ∧ reads va (0 < ·)) →
    { pk with rereads := false, lastRead := s.ns } ∈ (dieOf t die).packets ∧
    (dieOf t die).updates = (dieOf s die).updates) ∧
  (∀ va v, pk.sigs.filter (· ≠ 0) = [va] → readSignal s1 (dAsid x) va = .ok v → v < 0 → dState x = 1 → pk.csig ≠ 0 →
    dErr (qdesc t die q) = 5 ∧ dState (qdesc t die q) = 2 ∧
    (dieOf t die).updates = (dieOf s die).updates ++
      [packetUpdate q (dAsid x) pk.csig (BitVec.ofInt 64 v) false true (some pk.idx)])

/-- R313: a barrier packet reads its list as it starts. -/
def BarrierPacket : Prop :=
  ∀ (s : State) (die q p : Nat), PacketAt s die q 2 p →
    let x := qdesc s die q
    let sigs := (List.range 5).map fun i => p / 2 ^ (64 * i + 64) % 2 ^ 64
    let pk := startedPacket s q (dRead x) p (p / 2 ^ 384 % 2 ^ 64) sigs
    ∃ t s1, exec (.packetBarrier die q) s = .next t ∧ s1 = { s with mem := s1.mem } ∧
      qdesc s1 die q = withField x 127 64 (dRead x + 1) ∧
      (∀ a, readByte s1 .phys a ≠ readByte s .phys a → baseAddr (dieOf s die).qdescBase + 64 * q ≤ a ∧
        a < baseAddr (dieOf s die).qdescBase + 64 * q + 64) ∧
      BarrierRead s1 s t die q pk x

/-- R313, R315: a waiting barrier packet that was notified, or whose list was read 1,048,576 cycles at 1.2 GHz ago, reads
it again. -/
def BarrierRereads : Prop :=
  ∀ (s : State) (die q : Nat) (pk : Packet), die < s.dies.length → Canonical s → pk ∈ (dieOf s die).packets →
    pk.queue = q → pk.kind = 2 → (∀ k ∈ (dieOf s die).packets, k.queue = q → k.idx = pk.idx → k = pk) →
    (∀ u ∈ (dieOf s die).updates, u.queue = q → u.pkt ≠ some pk.idx) →
    (pk.rereads = true → ∃ t, exec (.barrierReevaluate die q pk.idx) s = .next t ∧
      BarrierRead s s t die q pk (qdesc s die q)) ∧
    (pk.rereads = false → exec (.barrierReevaluate die q pk.idx) s = .next s) ∧
    (pk.lastRead * 6 + 1048576 * 5 ≤ s.ns * 6 → ∃ t, exec (.barrierRereadTimeout die q pk.idx) s = .next t ∧
      BarrierRead s s t die q pk (qdesc s die q)) ∧
    (s.ns * 6 < pk.lastRead * 6 + 1048576 * 5 → exec (.barrierRereadTimeout die q pk.idx) s = .next s)

/-- R313, R314: an owed update of a mapped device signal is performed once the grid's work is quiet and its record is
written: the value, or the sum, is stored, the update is gone, its packet is complete, and barrier packets are
notified. An address that no table maps loses the update and stops the packet's queue with err 9; a completion of a
grid that names no signal (R312) writes none. -/
def SignalUpdates : Prop :=
  ∀ (s : State) (die i : Nat) (u : Update), Canonical s → (dieOf s die).updates[i]? = some u → u.seq = none →
    (∀ g, u.grid = some g → gridQuiet s g = true ∧
      (u.negative = true → ∀ r ∈ (dieOf s die).pcrs, r.grid = g → r.written = true)) →
    u.queue ∉ (dieOf s die).resetting →
    (u.va = 0 → u.grid ≠ none → ∃ t, exec (.completionSignalUpdate die i) s = .next t ∧ t = { s with dies := t.dies } ∧
      (dieOf t die).updates = (dieOf s die).updates.eraseIdx i ∧
      ∀ k, u.pkt = some k → ∀ p ∈ (dieOf t die).packets, p.queue = u.queue → p.idx ≠ k) ∧
    ((u.va = 0 → u.grid = none) →
    (∀ tr, translate s u.asid u.va true false (some false) = .ok tr → fwDenied s .phys tr.pa 8 = false →
      Keyed s tr.pa 8 tr.kd →
      let old := ofBytes (agentBytes s .phys tr.pa 8 tr.kd)
      let new := if u.add then (old + u.value.toNat) % 2 ^ 64 else u.value.toNat
      ∃ t, exec (.completionSignalUpdate die i) s = .next t ∧ t.cores = s.cores ∧ t.grids = s.grids ∧
        Stored s t .phys tr.pa ((List.range 8).map fun j => some (BitVec.ofNat 8 (new / 256 ^ j))) ∧
        (dieOf t die).updates = (dieOf s die).updates.eraseIdx i ∧
        (∀ k, u.pkt = some k → ∀ p ∈ (dieOf t die).packets, p.queue = u.queue → p.idx ≠ k) ∧
        ∀ d ∈ t.dies, ∀ p ∈ d.packets, p.kind = 2 → p.rereads = true) ∧
    (∀ d, translate s u.asid u.va true false (some false) = .error d → d.cls ≠ 7 →
      ∃ t, exec (.completionSignalUpdate die i) s = .next t ∧
        (dieOf t die).updates = (dieOf s die).updates.eraseIdx i ∧
        (u.own = true → dState (qdesc s die u.queue) = 1 → qdesc t die u.queue = stopped (qdesc s die u.queue) 9)))

/-! ### Scheduler cores -/

/-- R307, R391: a scheduler core that fails runs no more; the first failure with a standby leaves its queues going, and
without a standby or on a second failure every running queue of the die stops with err 7 (R308) and the host is told. The
standby takes the place of a failed core, and none remains. -/
def Standby : Prop :=
  ∀ (s : State) (die core : Nat), die < s.dies.length → core < 4 → (dieOf s die).scheds.length = 5 →
    let c := (dieOf s die).scheds.getD core Sched.reset
    let down := BitVec.ofNat 32 (2 ^ 32 - 1 - 2 ^ core)
    let first := ∀ i, i < 4 → ((dieOf s die).scheds.getD i Sched.reset).failed = false
    (c.failed = true → exec (.schedulerCoreFailed die core) s = .next s) ∧
    (first → (dieOf s die).cpstat.getLsbD 30 = true → ∃ t, exec (.schedulerCoreFailed die core) s = .next t ∧
      t = { s with dies := t.dies } ∧
      dieOf t die = { dieOf s die with
        cpstat := (dieOf s die).cpstat &&& down,
        scheds := (dieOf s die).scheds.set core { c with failed := true } }) ∧
    (c.failed = false → (¬first ∨ (dieOf s die).cpstat.getLsbD 30 = false) → ∃ t, exec (.schedulerCoreFailed die core) s = .next t ∧
      (dieOf t die).cpstat = ((dieOf s die).cpstat &&& down) ||| 0x20000000#32 ∧
      ((dieOf t die).scheds.getD core Sched.reset).failed = true ∧ .irq die ∈ t.out ∧
      (Canonical s → (dieOf s die).qdescWritten = true → ∀ q, q < 4096 → qdesc t die q =
        if dState (qdesc s die q) = 1 then stopped (qdesc s die q) 7 else qdesc s die q)) ∧
    (c.failed = true → (∀ i, i < core → ((dieOf s die).scheds.getD i Sched.reset).failed = false) →
      (dieOf s die).cpstat.getLsbD 30 = true → ∃ t, exec (.standbyTakeover die) s = .next t ∧
      dieOf t die = { dieOf s die with
        cpstat := ((dieOf s die).cpstat &&& 0xBFFFFFFF#32) ||| 0x80000000#32 ||| BitVec.ofNat 32 (2 ^ core),
        scheds := ((dieOf s die).scheds.set core ((dieOf s die).scheds.getD 4 Sched.reset)).set 4
          { (dieOf s die).scheds.getD 4 Sched.reset with failed := true } } ∧ .irq die ∈ t.out)

/-- R305: the wait of an `xsw` ends 4,096 cycles at 1.2 GHz after it began, with the word read then. -/
def WaitEnds : Prop :=
  ∀ (s : State) (die core rd a since : Nat) (bound : BitVec 64),
    let s1 := { s with cur := { s.cur with die := die, core := core } }
    (sc s1).wait = some (rd, a, bound, since) → rd < 32 →
    (since * 6 + 4096 * 5 ≤ s.ns * 6 → exec (.xswWaitTimeout die core) s =
      .next (scDone (withSc s1 fun c => { c with wait := none }) (BitVec.ofNat 5 rd) (BitVec.ofNat 64 (readN s .phys a 8)))) ∧
    (s.ns * 6 < since * 6 + 4096 * 5 → exec (.xswWaitTimeout die core) s = .next s1)

/-! ### What engine operations do -/

/-- A byte of the transaction barrier that the operation charges, in the scratch of its core (R183, R188). -/
def barrierByte (o : Op) (sp : Space) (x : Nat) : Prop :=
  ∃ b, o.bar = some b ∧ sp = .scratch o.die o.pos ∧ b ≤ x ∧ x < b + 16

/-- The bytes `bs` were written from an address, and every other byte but the hidden ones reads as before. -/
def StoredBut (hide : Space → Nat → Prop) (s t : State) (sp : Space) (a : Nat) (bs : List Byte) : Prop :=
  ∀ sp' x, ¬hide sp' x → readByte t sp' x = if sp' = sp ∧ a ≤ x ∧ x < a + bs.length then bs.getD (x - a) 0 else readByte s sp' x

/-- One sector landed at the operation's barrier (R189). -/
def LandedOne (s t : State) (o : Op) : Prop :=
  ∀ b, o.bar = some b →
    let was := readN s (.scratch o.die o.pos) b 16
    readN t (.scratch o.die o.pos) b 16 = r189 was (arrivalsOf was) (sectorsOf was - 1)

/-- A unit of one run may move: nothing waits, failed or is written ahead, source and destination translate, the data is
sound, the block is still on its core, and the destination is no locked firmware. -/
structure UnitGoes (s : State) (o : Op) (u : Machine.Unit) (sp : Space) (a kd va : Nat) (dp : Space) (b kd' : Nat) (mir : Bool)
    (va' n : Nat) : Prop where
  memory : Canonical s
  still : u.err = none ∧ u.seq = none ∧ u.out = none
  whereTo : resolveSegs s o u.segs = .ok [⟨some (sp, a, kd, va), some (dp, b, kd', mir, va'), n⟩]
  sound : isPoisoned s sp a n = false ∧ tagMismatch s sp a n kd = false
  free : fwDenied s dp b n = false
  keyed : dp = .phys → Keyed s b n kd'

/-- R204, R208, R291, R189: a unit of `cpy`, `tld` or `tst`, made by its lane (of a tensor copy the lowest active), copies
its bytes and leaves the operation; the last unit ends it, and its sector lands at the barrier. -/
def CopiesMove : Prop :=
  ∀ (i : Instr) (s : State) (op tag recv : Nat) (o : Op) (u : Machine.Unit) (l : List Machine.Unit) (sp dp : Space) (a kd va b kd' va' n : Nat)
    (mir : Bool),
    (i = .copyUnitPerformed op tag ∧ recv = 0 ∨ i = .tensorCopyPart op tag ∧ recv = 1) →
    let v := o.forLane (if recv = 0 then tag else o.l0)
    unitAt s op tag recv = some (o, u) → o.kind = .units l → unitHeld s o u = false → v.here s = true →
    UnitGoes s v u sp a kd va dp b kd' mir va' n →
    let left := l.filter fun x => ¬(x.tag = tag ∧ x.recv = recv)
    ∃ t, exec i s = .next t ∧ RegsSame s t ∧ StoredBut (barrierByte o) s t dp b (agentBytes s sp a n kd) ∧
      (left = [] → opAt t op = none) ∧
      (left ≠ [] → ∃ o', opAt t op = some o' ∧ o'.kind = .units left) ∧
      (left = [] → o.secs.length = 1 → u.secs = o.secs →
        (∀ c, o.bar = some c → dp ≠ .scratch o.die o.pos ∨ b + n ≤ c ∨ c + 16 ≤ b) → LandedOne s t o)

/-- R313, R318: a part of a die transfer copies its bytes; the last one ends the transfer and owes −1 to its signal. -/
def TransfersMove : Prop :=
  ∀ (s : State) (op part : Nat) (o : Op) (u : Machine.Unit) (l : List Machine.Unit) (ordered : Bool) (csig : Nat) (q : Option (Nat × Nat))
    (sp dp : Space) (a kd va b kd' va' n : Nat) (mir : Bool),
    unitAt s op part 0 = some (o, u) → o.kind = .transfer l ordered csig q →
    (ordered = true → l.head?.map (·.tag) = some part) → dp = .phys → o.die < s.dies.length →
    UnitGoes s o u sp a kd va dp b kd' mir va' n →
    let left := l.filter fun x => x.tag ≠ part
    ∃ t, exec (.dieTransferPart op part) s = .next t ∧ RegsSame s t ∧
      StoredBut (fun _ _ => False) s t .phys b (agentBytes s sp a n kd) ∧
      (left ≠ [] → ∃ o', opAt t op = some o' ∧ o'.kind = .transfer left ordered csig q) ∧
      (left = [] → opAt t op = none ∧ (csig ≠ 0 → ∃ v, (dieOf t o.die).updates = (dieOf s o.die).updates ++ [v] ∧
        v.va = csig ∧ v.asid = o.asid ∧ v.add = true ∧ v.value = BitVec.allOnes 64 ∧ v.own = q.isSome))

/-- R265, R267, R268: a chunk of an `mcast` is read from its block's scratch, where the block left it (log 70), and written
at its receiver's core while the generation there is the one recorded at issue;
else it is discarded and HOODDROP counts it. -/
def ChunksMove : Prop :=
  ∀ (s : State) (op recv chunk : Nat) (o : Op) (u : Machine.Unit) (l : List Machine.Unit) (sp dp : Space) (a b d q : Nat) (gen : Word),
    unitAt s op chunk recv = some (o, u) → o.kind = .mcast l → u.gen = some (d, q, gen) →
    u.segs = [⟨some (.at sp a), some (.at dp b), 16⟩] → sp ≠ .phys → dp ≠ .phys → Canonical s →
    let bar := o.bar.getD 0
    let src := o.place s sp
    ((coreAt s d q).gen = gen → isPoisoned s src a 16 = false →
      ∃ t, exec (.mcastChunk op recv chunk) s = .next t ∧ RegsSame s t ∧
        StoredBut (fun sp' x => sp' = .scratch d q ∧ bar ≤ x ∧ x < bar + 16) s t dp b (readBytes s src a 16)) ∧
    ((coreAt s d q).gen ≠ gen → ∃ t, exec (.mcastChunk op recv chunk) s = .next t ∧
      t.mem = s.mem ∧ t.locals = s.locals ∧ (d < s.dies.length → (dieOf s d).clusters.length = 6 → q < 144 →
        (clusterAt t d (clusterOf q)).drop =
          BitVec.ofNat 31 (min 0x7FFFFFFF ((clusterAt s d (clusterOf q)).drop.toNat + 1))))

/-- The element of an accumulator store: converted from INT32 or FP32 as its sector's tag says (R60, R234). -/
def storedElem (s : State) (o : Op) (x : Accst) (i : Nat) : Nat :=
  let sp := o.accs
  let a := x.src + 4 * i
  (if (localOf s sp).tags.contains (a / 32) = false ∧ fsFmt x.fmt = 6 then
    roundNum fp32 (fsRm x.fmt) (fsSat x.fmt) (fp32.decode (readN s sp a 4))
   else convert (if (localOf s sp).tags.contains (a / 32) then 4 else 6) (fsFmt x.fmt) (fsRm x.fmt) (fsSat x.fmt)
    (readN s sp a 4)).1

/-- R233, R234, R179: `accld` reads and `accst` writes the accumulator store after every earlier `mma` of the warp, a source
sector that was read ahead being as it was then. -/
def AccumulatorMoves : Prop :=
  (∀ (s : State) (op lane : Nat) (o : Op) (x : LaneAcc), pendingAt s op lane = some (o, x) → x.kind = .accum →
    mmasBefore s o = true → enabled s o x = true → isPoisoned s x.sp x.addr x.size = false → noFrames s →
    ∃ t, exec (.accldRead op lane) s = .next t ∧ t.mem = s.mem ∧ t.locals = s.locals ∧
      Received s t o.uid fun k th => if k = lane then
        th.receive o.id (x.dst.zip ((List.range x.dst.length).map fun j =>
          BitVec.ofNat 32 (readN s x.sp x.addr x.size / 2 ^ (32 * j)))) else th) ∧
  ∀ (s : State) (op sector : Nat) (o : Op) (x : Accst) (left : List Nat), opAt s op = some o → o.kind = .accst x left →
    sector ∈ left → mmasBefore s o = true → afterDone s o.after = true → o.here s = true → Canonical s →
    x.dst % elemBytes (fsFmt x.fmt) = 0 →
    let e := elemBytes (fsFmt x.fmt)
    let v := withEarly s o.accs x.early sector
    (∀ i, i < x.n → (x.dst + i * e) / 32 = sector → isPoisoned v o.accs (x.src + 4 * i) 4 = false) →
    ∃ t, exec (.accstSector op sector) s = .next t ∧
      (∀ sp y, ¬barrierByte o sp y → readByte t sp y =
        if sp = .scratch o.die o.pos ∧ y / 32 = sector ∧ x.dst ≤ y ∧ y < x.dst + x.n * e then
          BitVec.ofNat 8 (storedElem v o x ((y - x.dst) / e) / 256 ^ ((y - x.dst) % e))
        else readByte s sp y) ∧
      (left.filter (· ≠ sector) = [] → opAt t op = none) ∧
      (left.filter (· ≠ sector) ≠ [] → ∃ o' x', opAt t op = some o' ∧ o'.kind = .accst x' (left.filter (· ≠ sector)) ∧
        { x' with fl := x.fl, early := x.early } = x ∧ x'.early = x.early.filter fun y => y.unit ≠ sector)

/-- R236 to R238: decoding writes the rounded weights of a sector into the slot, or the exact weights of a row into the
queue, a source sector that was read ahead being as it was then (R179); `twget` writes a lane's rounded weight. -/
def WeightsDecode : Prop :=
  (∀ (s : State) (op sector : Nat) (o : Op) (w : Tdec) (left : List Nat), opAt s op = some o → o.kind = .tdec w left →
    sector ∈ left → slotBusy s o w.slot = false → afterDone s o.after = true → o.here s = true → Canonical s →
    let e := if w.fp32 then 4 else 2
    let n := w.nb * blockElems w.fmt
    let v := withEarly s o.weights w.early sector
    w.offset % e = 0 →
    w.poisoned v o.weights ((List.range n).filter fun x => (w.offset + x * e) / 32 = sector) = false →
    ∃ t, exec (.tdecSector op sector) s = .next t ∧
      (∀ sp y, ¬barrierByte o sp y → readByte t sp y =
        if sp = o.operand w.slot ∧ y / 32 = sector ∧ w.offset ≤ y ∧ y < w.offset + n * e then
          BitVec.ofNat 8 ((roundNum (if w.fp32 then fp32 else bf16) 0 false
            (w.elem v o.weights ((y - w.offset) / e)).1).1 / 256 ^ ((y - w.offset) % e))
        else readByte s sp y) ∧
      (left.filter (· ≠ sector) = [] → opAt t op = none)) ∧
  (∀ (s : State) (op : Nat) (o : Op) (w : Tdec) (row rows : Nat), opAt s op = some o → o.kind = .tdecQ w row rows →
    row < rows → (∀ x ∈ s.ops, x.id < o.id → x.die = o.die → x.pos = o.pos →
      ∀ w' r r', x.kind = .tdecQ w' r r' → w'.gang = w.gang → r' ≤ r) →
    queueFree s o w.gang = true → afterDone s o.after = true →
    let n := 64 * ((coreAt s o.die o.pos).halves / 2)
    let xs := (List.range n).map fun j => row * n + j
    let v := withEarly s o.weights w.early row
    w.poisoned v o.weights xs = false →
    ∃ t, exec (.tdecQRow op) s = .next t ∧ (coreAt t o.die o.pos).queue =
      (coreAt s o.die o.pos).queue ++ [⟨op, w.gang, xs.map fun x => (w.elem v o.weights x).1⟩]) ∧
  ∀ (s : State) (op lane : Nat) (o : Op) (x : LaneAcc) (f : BitVec 128) (j sc : Nat), pendingAt s op lane = some (o, x) →
    x.kind = .weight f j sc → enabled s o x = true → (∀ b, b < espBits (fsShift f) / 8 → isPoisoned s x.sp (x.addr + b) 1 = false) →
    isPoisoned s x.sp sc 2 = false → noFrames s →
    let r := (roundNum fp32 0 false (espWeight f (readN s x.sp x.addr x.size) j (readN s x.sp sc 2))).1
    ∃ t, exec (.twgetResult op lane) s = .next t ∧ t.mem = s.mem ∧ t.locals = s.locals ∧
      Received s t o.uid fun k th => if k = lane then
        th.receive o.id (x.dst.zip ((List.range x.dst.length).map fun i => BitVec.ofNat 32 (r / 2 ^ (32 * i)))) else th

/-- R240: the error of a stream for a block's scales and targets, E = Σ (wt[j] − v[j])², with the weights of R53; the
scales in units of 2^−133, the targets of 2^−138, E of 2^−276, all of them exact. -/
def streamError (f : BitVec 128) (scale target : Nat → Int) (x : Nat) : Nat :=
  ((List.range 256).map fun j => ((espSum f (espWindow f x j) * scale (j / 64) - target j) ^ 2).natAbs).sum

/-- R240: a stream that the engine considers: N bits, the first L of them the seed's from bit q up. -/
def admissible (v : Venc) (x : Nat) : Prop :=
  x < 2 ^ espBits (fsShift v.fmt) ∧
    x % 2 ^ fsWin v.fmt / 2 ^ v.q = v.seed % 2 ^ fsWin v.fmt / 2 ^ v.q

/-- R240: the encoder's choice for any scales and targets is an admissible stream, no admissible stream has a smaller error,
and among those of equal error none is smaller when stream bit 0 is read as the most significant. -/
def LeastStream : Prop :=
  ∀ (v : Venc) (scale target : Nat → Int), v.q ≤ fsWin v.fmt →
    let r := vencBlock v scale target
    let n := espBits (fsShift v.fmt)
    admissible v r.1 ∧ r.2 = streamError v.fmt scale target r.1 ∧
      ∀ x, admissible v x → r.2 < streamError v.fmt scale target x ∨
        (r.2 = streamError v.fmt scale target x ∧ revBits n r.1 ≤ revBits n x)

/-- R239 to R241, R179: a block of finite targets and gains: the engine takes its stream of least error (`LeastStream`) and
the error as an FP32 word, and writes whole every sector that no later block reaches into, with what the blocks before put
there; the next block follows, or the operation ends. The sectors of the weight store are numbered from 2^32. -/
def WeightsEncode : Prop :=
  LeastStream ∧
  ∀ (s : State) (op : Nat) (o : Op) (v : Venc) (i : Nat), opAt s op = some o → o.kind = .venc v i →
    (∀ x ∈ s.ops, x.id ≠ o.id → x.die = o.die → x.pos = o.pos → ∀ v' k, x.kind ≠ .venc v' k) →
    v.sol = none → v.out = [] → v.done.length = i → i < v.nb → afterDone s o.after = true → o.here s = true → Canonical s →
    let sc := Space.scratch o.die o.pos
    let tg := fun j => bf16.decode (readN s sc (v.targets + 512 * i + 2 * j) 2)
    let gs := fun g => bf16.decode (readN s sc (v.targets + 512 * v.nb + 8 * i + 2 * g) 2)
    let bb := espBits (fsShift v.fmt) / 8
    let dp := if v.toWeight then o.weights else sc
    isPoisoned s sc (v.targets + 512 * i) 512 = false → isPoisoned s sc (v.targets + 512 * v.nb + 8 * i) 8 = false →
    (∀ j, j < 256 → (tg j).isNan = false ∧ (tg j).isInf = false) → (∀ g, g < 4 → (gs g).isNan = false ∧ (gs g).isInf = false) →
    v.dest + v.nb * bb ≤ 2 ^ 32 → v.errs + 4 * v.nb ≤ 2 ^ 32 →
    (v.toWeight = true ∨ v.dest + v.nb * bb ≤ v.errs ∨ v.errs + 4 * v.nb ≤ v.dest) →
    (∀ b, o.bar = some b → (v.toWeight = true ∨ v.dest + v.nb * bb ≤ b ∨ b + 16 ≤ v.dest) ∧
      (v.errs + 4 * v.nb ≤ b ∨ b + 16 ≤ v.errs)) →
    let r := vencBlock v (fun g => if g < 4 then (gs g).scaled (-133) else 0) fun j => if j < 256 then (tg j).scaled (-138) else 0
    let sol := (r.1, (roundNum fp32 0 false (.fin false r.2 (-276))).1, false)
    let key := fun a => a / 32 + if v.toWeight then 2 ^ 32 else 0
    let reaches := fun j k => (∃ x, x < bb ∧ k = key (v.dest + j * bb + x)) ∨ ∃ x, x < 4 ∧ k = (v.errs + 4 * j + x) / 32
    let due := fun k => reaches i k ∧ ∀ j, i < j → j < v.nb → ¬reaches j k
    ∃ t, exec (.vencBlock op) s = .next t ∧
      (∀ j x, j ≤ i → x < bb → due (key (v.dest + j * bb + x)) →
        readByte t dp (v.dest + j * bb + x) = BitVec.ofNat 8 (((v.done ++ [sol]).getD j (0, 0, false)).1 / 256 ^ x)) ∧
      (∀ j x, j ≤ i → x < 4 → due ((v.errs + 4 * j + x) / 32) →
        readByte t sc (v.errs + 4 * j + x) = BitVec.ofNat 8 (((v.done ++ [sol]).getD j (0, 0, false)).2.1 / 256 ^ x)) ∧
      (i + 1 = v.nb → opAt t op = none) ∧
      (i + 1 ≠ v.nb → ∃ o', opAt t op = some o' ∧ o'.kind = .venc { v with done := v.done ++ [sol] } (i + 1))

/-- R55: the element of a floating-point k-step of plus-times from the terms of its exact sum, each a product (or the
element before) with its value in units of 2^−298: a NaN among them, or infinities of both signs, make the canonical NaN;
else an infinity stands; else the sum is rounded once to FP32, and opposite terms that cancel give +0 (R47). -/
def r55 (terms : List (Machine.Num × Int)) : Nat → Prop := fun y =>
  let nums := terms.map (·.1)
  let sum : Int := (terms.map (·.2)).sum
  if nums.any Machine.Num.isNan ∨ (nums.contains (.inf true) ∧ nums.contains (.inf false)) then y = 0x7FC00000
  else if nums.contains (.inf true) then y = 0xFF800000
  else if nums.contains (.inf false) then y = 0x7F800000
  else if sum = 0 then (¬nums.all Machine.Num.negSign → y = 0)
  else y = (roundNum fp32 0 false (.fin (decide (sum < 0)) sum.natAbs (-298))).1

/-- R228, R55: a k-step of plus-times on slot operands: INT32 adds the 16 products to each element, modulo 2^32; FP32 rounds
the exact sum of the element and the 16 products once. -/
def PlusTimesKStep : Prop :=
  ∀ (s : State) (o : Op) (m : Mma) (rows n r c : Nat), m.fn = 0 → mmaBq m.desc = false → r < rows → c < n →
    let k := mmaK m.desc
    let old := readN s o.accs (m.acc + 4 * (r * n + c)) 4
    let a := fun j => (operandElem s (o.operand (mmaA m.desc)) (fsFmt m.fmtA) (rows * k) k r (16 * m.next + j)).1
    let b := fun j => (operandElem s (o.operand (mmaB m.desc)) (fsFmt m.fmtB) (k * n) n (16 * m.next + j) c).1
    let new := (kstep s o m rows n).1.getD (r * n + c) 0
    (m.int = true → ((new : Nat) : Int) =
      ((old : Int) + ((List.range 16).map fun j => (a j).toInt * (b j).toInt).sum) % 2 ^ 32) ∧
    (m.int = false → r55 ((fp32.decode old, (fp32.decode old).scaled (-298)) ::
      (List.range 16).map fun j => (Machine.Num.mul (a j) (b j), (a j).scaled (-149) * (b j).scaled (-149))) new)

/-- The one matrix operation is at its k-step (R227, R228). -/
structure KStepGoes (s : State) (op : Nat) (o : Op) (m : Mma) : Prop where
  memory : Canonical s
  at_ : opAt s op = some o
  kind : o.kind = .mma m
  running : m.began = true ∧ m.cut = false ∧ m.clr = false
  whole : m.early = [] ∧ m.tile = none ∧ m.out = [] ∧ m.cleared = []
  alone : ∀ x ∈ s.ops, x.mma?.isSome = true → x = o
  here : o.here s = true

/-- R228, R230, R231: a k-step publishes its tile and the next one follows; the last one ends the operation, and the warp
that issued it reads the end. -/
def KStepsComplete : Prop :=
  ∀ (s : State) (op : Nat) (o : Op) (m : Mma), KStepGoes s op o m →
    let rows := mmaRows m.desc
    let n := mmaCols m.desc (coreAt s o.die o.pos).halves
    kstepPoisoned s o m rows n = false →
    ∃ t, exec (.mmaKstepComplete op) s = .next t ∧
      StoredBut (fun _ _ => False) s t o.accs m.acc ((kstep s o m rows n).1.flatMap (toBytes 4)) ∧
      (m.next + 1 ≠ mmaK m.desc / 16 → ∃ o' m', opAt t op = some o' ∧ o'.kind = .mma m' ∧ m'.next = m.next + 1 ∧
        { m' with next := m.next, began := m.began, fl := m.fl, readyAt := m.readyAt } = m) ∧
      (m.next + 1 = mmaK m.desc / 16 → opAt t op = none ∧
        ∀ d q k w c, (coreAt s d q).warpAt k = some w → (w.uid, c) ∈ m.members → w.mmaOp = op →
          ∃ w', (coreAt t d q).warpAt k = some w' ∧ w'.mmaAck = r231 (m.next + 1) true false false)

/-- R253, R254: a k-step that has not completed 65,536 cycles after its operands were ready is reset: the operation is
gone and a class 11 code 2 record is posted; before that nothing happens. -/
def HungArrayResets : Prop :=
  ∀ (s : State) (op : Nat) (o : Op) (m : Mma), KStepGoes s op o m →
    ((dieOf s o.die).cycles < m.readyAt + 65536 → exec (.arrayHangReset op) s = .next s) ∧
    (m.readyAt + 65536 ≤ (dieOf s o.die).cycles → ∀ u c core w g, m.members = [(u, c)] → warpOfUid s u = some (core, w) →
      w.faults.length < 8 → gridAt s w.grid = some g → o.die < s.dies.length → core.die = o.die → core.pos = o.pos →
      ∃ t, exec (.arrayHangReset op) s = .next t ∧ opAt t op = none ∧
        ∃ e ∈ (dieOf t o.die).fault.waiting, ofBytes e / 2 ^ 192 % 16 = 11 ∧ ofBytes e / 2 ^ 196 % 256 = 2)

/-- R317: the update of a `sigst` or `sigadd` is performed after the path's accesses, and the path goes on. -/
def SignalInstructionPerforms : Prop :=
  ∀ (s : State) (op : Nat) (o : Op) (a : LaneAcc) (add : Bool), opAt s op = some o → o.kind = .signal a add →
    laneAccessesDone s o = true → noFrames s → Canonical s → a.sp = .phys → fwDenied s .phys a.addr 8 = false →
    Keyed s a.addr 8 a.kd →
    let old := ofBytes (agentBytes s .phys a.addr 8 a.kd)
    let v := a.data.toNat % 2 ^ 64
    let new := if add then (old + v) % 2 ^ 64 else v
    ∃ t, exec (.signalInstructionUpdate op) s = .next t ∧ opAt t op = none ∧
      StoredBut (fun _ _ => False) s t .phys a.addr (toBytes 8 new) ∧
      (∀ d ∈ t.dies, ∀ p ∈ d.packets, p.kind = 2 → p.rereads = true) ∧
      ∀ d q n w, (coreAt s d q).warpAt n = some w → w.uid = o.uid → ∃ w', (coreAt t d q).warpAt n = some w' ∧
        ∀ k, (w'.lane k).wait = if (w.lane k).wait = .signal op then .none else (w.lane k).wait

/-! ### Scheduling -/

/-- Only the warp of one slot changes, by `f`. -/
def WarpSlotBecomes (i : Instr) (s : State) (die pos slot : Nat) (f : Warp → Warp) : Prop :=
  ∃ t, exec i s = .next t ∧ t = { s with cores := t.cores } ∧
    (∀ d q, ¬(d = die ∧ q = pos) → coreAt t d q = coreAt s d q) ∧
    { coreAt t die pos with warps := [] } = { coreAt s die pos with warps := [] } ∧
    ∀ n, (coreAt t die pos).warpAt n =
      if n = slot then ((coreAt s die pos).warpAt n).map f else (coreAt s die pos).warpAt n

/-- Cycles for which the path of a group at an address has waited (R30). -/
def waited (w : Warp) (grp : Nat) (pc : BitVec 52) : Nat :=
  ((w.fair.find? fun x => decide (x.1 = grp ∧ x.2.1 = pc)).map fun x => x.2.2).getD 0

/-- R31: a quad whose counter has reached 64 leaves the warp group; R30: a path unissued for 64 cycles is forced. -/
def SplitsAndForces : Prop :=
  (∀ (s : State) (die pos slot q : Nat), q < 8 → WarpSlotBecomes (.quadSplit die pos slot q) s die pos slot fun w =>
    if w.sprigs.getLsbD q = false ∧ 64 ≤ w.split.getD q 0 then
      { w with sprigs := w.sprigs ||| (1#8 <<< q), split := w.split.set q 0 }
    else w) ∧
  ∀ (s : State) (die pos slot grp : Nat) (pc : BitVec 52),
    WarpSlotBecomes (.pathForced die pos slot grp pc) s die pos slot fun w =>
      if 64 ≤ waited w grp pc ∧ (grp, pc) ∉ w.forced then { w with forced := w.forced ++ [(grp, pc)] } else w

/-- R33: 64 cycles after a hold at an address began its threads go on; threads of two or more groups join the warp
group, whose split counters restart, and a hold at another address may then end with it. Before that nothing
happens. -/
def FuseExpires : Prop :=
  ∀ (s : State) (die pos slot : Nat) (pc : BitVec 52) (w : Warp), (coreAt s die pos).warpAt slot = some w →
    w.th.length = 32 → (∀ l ∈ w.sh.loops, l.active = false) →
    let i : Instr := .fuseHoldExpiry die pos slot pc
    let waits := fun (k : Nat) => k < 32 ∧ w.fusing pc k = true
    let due := ∃ k c, waits k ∧ (w.lane k).wait = .fuse c ∧ c + 64 ≤ (dieOf s die).cycles
    let two := ∃ k j, waits k ∧ waits j ∧ w.groupOf k ≠ w.groupOf j
    (¬due → WarpSlotBecomes i s die pos slot id) ∧
    (due → ∃ w', WarpSlotBecomes i s die pos slot (fun _ => w') ∧
      w' = { w with th := w'.th, sprigs := w'.sprigs, split := w'.split } ∧
      (∀ k, waits k → (w'.lane k).Alike (w.lane k) ∧ (w'.lane k).wait = .none ∧ (w'.lane k).pc = (w.lane k).pc + 4) ∧
      (∀ k, ¬waits k → (∀ c, (w.lane k).wait ≠ .fuse c) → w'.lane k = w.lane k) ∧
      ((∀ k c, (w.lane k).wait = .fuse c → waits k) →
      (∀ q, q < 8 → (w'.sprigs.getLsbD q = true ↔
        w.sprigs.getLsbD q = true ∧ ¬(two ∧ ∃ k, waits k ∧ k / 4 = q))) ∧
      ∀ q : Nat, q < w.split.length →
        ((two → w'.sprigs.getLsbD q = false → w'.split[q]? = some 0) ∧
          (¬two ∨ w'.sprigs.getLsbD q = true → w'.split[q]? = w.split[q]?))))

/-- The group of an issue turn. -/
def turnGroup (x : Turn) : Option Nat :=
  match x.act with
  | .issue _ _ _ g _ _ _ => some g
  | _ => none

/-- The turns that a selection puts before the agenda: each is a path of unblocked threads of one group at one address,
the core remembers that it chose it in this cycle, and no group has more than two (R29, R166). Which of the values of
R169 its fetch returns is free, and a thread is unblocked by the word that its path fetches. `s2` is the state in which
they are chosen. -/
def IssuesOf (s2 s t : State) (die pos slot : Nat) (w : Warp) (take : Nat → Prop) : Prop :=
  ∃ turns, t.agenda = turns ++ s.agenda ∧
    (∀ x ∈ turns, ∃ grp pc lanes,
      x = ⟨0, [], .issue die pos slot grp pc lanes (Config.fetchChoice s.fresh (grp * 2 ^ 52 + pc.toNat))⟩ ∧
      take grp ∧ lanes ≠ 0#32 ∧
      ⟨slot, grp, pc, lanes, (dieOf s die).cycles, Config.fetchChoice s.fresh (grp * 2 ^ 52 + pc.toNat)⟩ ∈
        (coreAt t die pos).picks ∧
      ∀ k, lanes.getLsbD k = true →
        (freeLanes s2 die pos w).getLsbD k = true ∧ w.groupOf k = grp ∧ (w.lane k).pc = pc) ∧
    (∀ g, (turns.filter fun x => decide (turnGroup x = some g)).length ≤ 2) ∧
    ((∃ k, (freeLanes s2 die pos w).getLsbD k = true ∧ take (w.groupOf k)) → turns ≠ []) ∧
    ∀ c, (∀ k, (freeLanes s2 die pos w).getLsbD k = true → (w.lane k).pc = c) → w.sprigs = 0#8 → take 8 →
      freeLanes s2 die pos w ≠ 0#32 →
      turns = [⟨0, [], .issue die pos slot 8 c (freeLanes s2 die pos w)
        (Config.fetchChoice s.fresh (8 * 2 ^ 52 + c.toNat))⟩]

/-- A core on which a lane set decides in this cycle (R166, R280). -/
structure Deciding (s : State) (die pos laneSet : Nat) : Prop where
  able : (coreAt s die pos).kind ≠ 3
  bound : laneSet < (coreAt s die pos).halves
  going : issueClosed s die pos = false
  once : (coreAt s die pos).decided.lookup laneSet ≠ some (dieOf s die).cycles
  asked : ∀ w ∈ (coreAt s die pos).warps, w.stopReq = false

/-- R166: a lane set selects, once in a cycle, the least recently selected of its warps with an unblocked thread, the
lower slot on ties; without one only the cycle and the choice of its fetches (R169) are used. Spawns of one cycle come in
ascending warp slot (R170): a warp that stands at one after a higher slot's spawn of the cycle is not selected at this
turn. -/
def LeastRecentWarp : Prop :=
  ∀ (s : State) (die pos laneSet : Nat), Deciding s die pos laneSet →
    let c := coreAt s die pos
    let i : Instr := .schedulingDecision die pos laneSet
    let s1 := modCore s die pos fun c => { c with decided := assign c.decided laneSet (dieOf s die).cycles }
    let able := fun (n : Nat) (w : Warp) => n < warpSlots c.kind ∧ n % c.halves = laneSet ∧ c.warpAt n = some w ∧
      freeLanes s1 die pos w ≠ 0#32
    ((∀ n w, ¬able n w) → exec i s = .next { s1 with fresh := s.fresh + 1 }) ∧
    ∀ n w, able n w → (∀ m x, able m x → w.lastSel < x.lastSel ∨ w.lastSel = x.lastSel ∧ n ≤ m) →
      (spawnsLate s die pos w = true → exec i s = .next s) ∧
      (spawnsLate s die pos w = false →
      ∃ t w', exec i s = .next t ∧ t = { s with cores := t.cores, agenda := t.agenda, fresh := s.fresh + 1 } ∧
        (∀ d q, ¬(d = die ∧ q = pos) → coreAt t d q = coreAt s d q) ∧
        { coreAt t die pos with warps := [], sel := 0, picks := [] } =
          { coreAt s1 die pos with warps := [], sel := 0, picks := [] } ∧
        (coreAt t die pos).sel = c.sel + 1 ∧
        (∀ m, (coreAt t die pos).warpAt m = if m = n then some w' else c.warpAt m) ∧
        w'.th = w.th ∧ w'.sh = w.sh ∧ w'.lastSel = c.sel + 1 ∧
        IssuesOf (modWarp s1 die pos n Warp.splitDue) s t die pos n w.splitDue (fun _ => True))

/-- A path comes no later than another in the order of choice: forced ones first, the longest unissued of them first,
then those with more threads, then those at lower addresses (R29, R30). -/
def noLater (w : Warp) (x y : Cand) : Prop :=
  let forced := fun (c : Cand) => (c.grp, c.pc) ∈ w.forced ∨ 64 ≤ waited w c.grp c.pc
  (forced y → forced x) ∧
  (forced x → forced y → waited w y.grp y.pc ≤ waited w x.grp x.pc) ∧
  (¬forced x → ¬forced y → y.size ≤ x.size ∧ (y.size = x.size → x.pc.toNat ≤ y.pc.toNat))

/-- R28, R150, R300: a path can issue in one cycle with those taken for it: together they take neither counter above 255
and need no ninth fault record. -/
def canJoin (w : Warp) (counts : Cand → Bool × Bool) (taken : List Cand) (y : Cand) : Prop :=
  let stalls := fun (x : Cand) => decide (x.lanes &&& w.stalled ≠ 0#32)
  ((counts y).1 = true → w.ldcnt.toNat + taken.countP (fun x => (counts x).1) < 255) ∧
  ((counts y).2 = true → w.stcnt.toNat + taken.countP (fun x => (counts x).2) < 255) ∧
  (stalls y = true → w.faults.length + taken.countP stalls < 8)

/-- R29, R30: of a group's paths the first in order issues, and with it the next, of those that can issue in the same
cycle beside the paths of the warp's other groups; R28, R150, R300: whatever the groups, no counter passes 255 and no
ninth fault record is needed. -/
def PathChoice : Prop :=
  (∀ (w : Warp) (counts : Cand → Bool × Bool) (taken l : List Cand) (y : Cand), y ∈ l →
    let picked := w.chosen counts taken l
    (picked = [] → ¬canJoin w counts taken y) ∧
    (∀ x rest, picked = x :: rest → x ∈ l ∧ canJoin w counts taken x ∧ rest.length ≤ 1 ∧
      (canJoin w counts taken y → noLater w x y)) ∧
    (∀ x, picked = [x] → y ≠ x → ¬canJoin w counts (x :: taken) y) ∧
    ∀ x z, picked = [x, z] → z ∈ l ∧ canJoin w counts (x :: taken) z ∧
      (y ≠ x → canJoin w counts (x :: taken) y → noLater w z y)) ∧
  ∀ (w : Warp) (counts : Cand → Bool × Bool) (cands : List Cand) (groups : List Nat),
    let all := (w.picks counts cands groups).flatten
    (∀ x ∈ all, x ∈ cands ∧ x.grp ∈ groups) ∧
    w.ldcnt.toNat + all.countP (fun x => (counts x).1) ≤ 255 ∧
    w.stcnt.toNat + all.countP (fun x => (counts x).2) ≤ 255 ∧
    (w.faults.length ≤ 8 → w.faults.length + all.countP (fun x => decide (x.lanes &&& w.stalled ≠ 0#32)) ≤ 8)

/-! ### Beds, watchdogs and replays -/

/-- R36, R171: a bed that is full, or whose timer has run out, becomes a warp of its cuttings in the lowest free slot,
within the kernel's quota; else it stays. -/
def BedsLaunch : Prop :=
  ∀ (i : Instr) (s : State) (die pos bed : Nat) (b : Bed) (g : Grid) (k : Kernel),
    (i = .bedTimerExpiry die pos bed ∨ i = .bedLaunch die pos bed) →
    let c := coreAt s die pos
    c.beds[bed]? = some b → gridAt s b.grid = some g → c.kernelOf b.grid = some k →
    let due := b.cuttings ≠ [] ∧
      (32 ≤ b.cuttings.length ∨ b.opened + fld g.lrec 447 432 ≤ (dieOf s die).cycles)
    (¬due ∨ k.warps ≤ c.warpsOf b.grid ∨ c.freeSlots = [] → exec i s = .next s) ∧
    ∀ slot rest, due → c.freeSlots = slot :: rest → c.warpsOf b.grid < k.warps → c.roomFor k g 1 = true →
      clusterChanging s die (clusterOf pos) = false →
      ∃ t w, exec i s = .next t ∧ t = { s with cores := t.cores, nextId := s.nextId + 1 } ∧
        (∀ d q, ¬(d = die ∧ q = pos) → coreAt t d q = coreAt s d q) ∧
        coreAt t die pos = { c with warps := c.warps ++ [w], beds := c.beds.eraseIdx bed } ∧
        w.uid = s.nextId ∧ w.slot = slot ∧ w.grid = b.grid ∧ w.widx = none ∧ w.sh = Shared.start ∧
        ∀ j : Nat, j < 32 →
          (∀ x, b.cuttings[j]? = some x → w.lane j = { Thread.absent with
            life := .live, v := List.replicate g.regs 0, g := (List.range 15).map fun r => x.g.getD r 0, pc := x.entry,
            thx := x.thx, thy := x.thy, thz := x.thz, blk := x.blk, cutting := true, after := x.after }) ∧
          (b.cuttings[j]? = none → (w.lane j).life = .absent)

/-- R251, R252: a watchdog that reached 0 in service mode raises class 11 code 1 for its warp, once: at once for a warp
with no unblocked thread, else at its next issue turn (`StepRunsTheDecodedInstruction`). -/
def WatchdogFires : Prop :=
  ∀ (s : State) (die pos slot : Nat) (w : Warp), (coreAt s die pos).warpAt slot = some w →
    ((coreAt s die pos).service = false ∨ w.wdog ≠ 0#32 ∨ w.wdFired = true ∨ freeLanes s die pos w ≠ 0#32 →
      exec (.watchdogExpiry die pos slot) s = .next s) ∧
    ((coreAt s die pos).service = true → w.wdog = 0#32 → w.wdFired = false → freeLanes s die pos w = 0#32 →
      clusterArmed s die (clusterOf pos) = false → die < s.dies.length → (gridAt s w.grid).isSome = true →
      ∃ t, exec (.watchdogExpiry die pos slot) s = .next t ∧
        ∃ e ∈ (dieOf t die).fault.waiting, ofBytes e / 2 ^ 192 % 16 = 11 ∧ ofBytes e / 2 ^ 196 % 256 = 1)

/-- A move holds the paths parked on a page (R151, R371): a resolution until it ends, a demotion while the page's leaf has
mv set. -/
def moveHolds (s : State) (m : Move) (asid vpage : Nat) : Prop :=
  match m with
  | .cow _ a v | .promote _ a v .. => a = asid ∧ v = vpage
  | .demote _ a v .. => a = asid ∧ v = vpage ∧ ∃ l e p, walk s asid (vpage * 65536) = .leaf l e p ∧ bit e 7 = true

/-- R104, R150, R151, R324: a parked path whose record may replay runs again, at the instruction or, after a user trap,
behind it, where its loop levels take their turn (R195); not while results are owed, a debug stop holds it, or a save is
under way. -/
def ParkedPathsReplay : Prop :=
  ∀ (s : State) (die pos slot n : Nat) (w : Warp) (f : Fault256) (g : Grid), (coreAt s die pos).warpAt slot = some w →
    w.faults[n]? = some f → gridAt s w.grid = some g →
    let cls := fld f.bits 195 192
    let ready := f.ready = true ∨
      cls = 7 ∧ f.escalated = false ∧ ∀ q ∈ f.pages,
        ∀ m ∈ s.moves, ¬ moveHolds s m g.asid q.1
    let owed := ∃ k o, k < 32 ∧ f.lanes.getLsbD k = true ∧ o ∈ (w.lane k).owed ∧ o.done = false
    (¬ready ∨ owed ∨ f.held = true ∨ w.stopReq = true ∨ clusterStopped s die (clusterOf pos) = true →
      exec (.pathReplay die pos slot n) s = .next s) ∧
    (ready → ¬owed → f.held = false → w.stopReq = false → clusterStopped s die (clusterOf pos) = false →
      WarpSlotBecomes (.pathReplay die pos slot n) s die pos slot fun w =>
        Warp.loopSettle { w with
          faults := w.faults.eraseIdx n,
          th := w.th.mapIdx fun k t => if f.lanes.getLsbD k then
            { (if cls = 10 then t.advance false else t) with wait := .none } else t }
          (if cls = 10 then f.lanes else 0))

/-- R324, R389, R390: the oldest waiting fault record is written at PROD once the ring has room, where the host sees it
whatever its sectors held, PROD advances, and the host is interrupted. That the firmware lock denies a ring in its range
is the model's choice (log 84). -/
def FaultRecordsPost : Prop :=
  ∀ (s : State) (die : Nat), Canonical s → die < s.dies.length →
    let r := (dieOf s die).fault
    (r.waiting = [] → exec (.faultRecordPost die) s = .next s) ∧
    ∀ b rest, r.waiting = b :: rest → b.length = 64 →
      let units := 2 ^ fld r.base 4 0
      let room := baseUsable r.base 64 = true ∧ r.prod.toNat + 1 ≤ r.cons.toNat + units
      (¬room → exec (.faultRecordPost die) s = .next s) ∧
      let at_ := fld r.base 51 12 * 4096 + r.prod.toNat % units * 64
      (room → ∃ t, exec (.faultRecordPost die) s = .next t ∧
        t = { s with mem := t.mem, unitKd := t.unitKd, poison := t.poison, rmwBad := t.rmwBad, denied := t.denied,
                     dies := t.dies, out := s.out ++ [.irq die] } ∧
        (fwDenied s .phys at_ 64 = false → Stored s t .phys at_ (b.map some) ∧ HostSees t at_ 64) ∧
        dieOf t die = { dieOf s die with fault := { r with prod := r.prod + 1, waiting := rest } } ∧
        ∀ d : Nat, d ≠ die → t.dies[d]? = s.dies[d]?)

/-! ### The debug controller -/

/-- DBGCTL of a cluster after a write (R278 Table 6): the RW fields, armed only while the controller is accepted
(R383); overrun cleared by a 1 unless it was set in the same cycle (R10; log 89); the rest as it was. -/
def r278 (s : State) (die cl : Nat) (old v : Word) : Word :=
  (v &&& (if accepted s 11 = true then 0x8FFFF800#32 else 0x0FFFF800#32)) ||| (old &&& 0x40000600#32) |||
    (if Sticky.overrun die cl ∈ s.justSet then old &&& 0x100#32 else old &&& ~~~v &&& 0x100#32)

/-- R279, R280, R71: a cluster whose cores have all stopped, with every owed result written, sets stopped; every resident
warp's skid is marked, and the lookahead counts end. -/
def ClustersStop : Prop :=
  ∀ (s : State) (die cl : Nat), die < s.dies.length → (dieOf s die).clusters.length = 6 → cl < 6 →
    let c := clusterAt s die cl
    let written := ∀ k w j o, k < 24 → w ∈ (coreAt s die (posOfLocal cl k)).warps → j ∈ w.th → o ∈ j.owed → o.done = true
    (c.stopping = none ∨ c.dbgctl.getLsbD 30 = true ∨ ¬written → exec (.clusterStopped die cl) s = .next s) ∧
    (c.stopping ≠ none → c.dbgctl.getLsbD 30 = false → written → ∃ t, exec (.clusterStopped die cl) s = .next t ∧
      t = { s with cores := t.cores, dies := t.dies } ∧ RegsSame s t ∧
      (clusterAt t die cl).dbgctl = c.dbgctl ||| 0x40000000#32 ∧
      ∀ k n w, k < 24 → (coreAt s die (posOfLocal cl k)).warpAt n = some w → n < 64 →
        (clusterAt t die cl).skid.lookup (64 * k + n) =
          some (BitVec.ofNat 32 (0x8000 + (lookupD c.skid (64 * k + n) 0).toNat % 256)) ∧
        ∃ w', (coreAt t die (posOfLocal cl k)).warpAt n = some w' ∧
          ∀ j, (w'.lane j).owed = [])

/-- R278, R279, R280: go releases a stopped cluster and clears DBGHIT.valid; while it is not stopped only the written
fields change. -/
def DebugGoes : Prop :=
  ∀ (s : State) (die cl : Nat) (v : Word),
    let stopped := (clusterAt s die cl).dbgctl.getLsbD 30 = true
    (¬(stopped ∧ v.getLsbD 29 = true) → ClusterBecomes (.debugGo die cl v) s die cl fun c =>
      { c with dbgctl := r278 s die cl c.dbgctl v }) ∧
    (stopped → v.getLsbD 29 = true → (clusterAt s die cl).held = [] →
      (∀ k n w f, k < 24 → (coreAt s die (posOfLocal cl k)).warpAt n = some w → f ∈ w.faults → f.held = false) →
      (∀ k, k < 24 → ∀ w ∈ (coreAt s die (posOfLocal cl k)).warps,
        (coreAt s die (posOfLocal cl k)).warpAt w.slot = some w) →
      ClusterBecomes (.debugGo die cl v) s die cl fun c => { c with
        dbgctl := r278 s die cl c.dbgctl v &&& 0xBFFFFFFF#32,
        dbghit := c.dbghit &&& ~~~1#128, stopping := none })

/-- R278, R281: a step makes one selection for the target of a stopped cluster and sets step_busy, or sets step_blocked;
the model's choices (log 30): while step_busy is set it makes none, and a write that would be the second decision of the
target's lane set in one core cycle (R166) comes in a later cycle. -/
def DebugSteps : Prop :=
  ∀ (s : State) (die cl : Nat) (v : Word), die < s.dies.length → (dieOf s die).clusters.length = 6 → cl < 6 →
    let stopped := (clusterAt s die cl).dbgctl.getLsbD 30 = true
    let ctl := fun (x : Word) => r278 s die cl x v
    let s1 := modCluster s die cl fun c => { c with dbgctl := ctl c.dbgctl }
    let pos := posOfLocal cl (fld v 20 16)
    let slot := fld v 26 21
    let warp := if fld v 20 16 < 24 then (coreAt s die pos).warpAt slot else none
    let take := fun (w : Warp) (grp : Nat) => v.getLsbD 27 = false ∨ grp = w.groupOf (fld v 15 11)
    let idle := (clusterAt s die cl).dbgctl.getLsbD 10 = false
    let set := slot % (coreAt s die pos).halves
    let late := warp ≠ none ∧ (coreAt s die pos).decided.lookup set = some (dieOf s die).cycles
    (¬(stopped ∧ v.getLsbD 28 = true ∧ idle) →
      ClusterBecomes (.debugStep die cl v) s die cl fun c => { c with dbgctl := ctl c.dbgctl }) ∧
    (stopped → v.getLsbD 28 = true → idle → late → exec (.debugStep die cl v) s = .next s) ∧
    (stopped → v.getLsbD 28 = true → idle → ¬late →
      (∀ w k, warp = some w → take w.splitDue (w.splitDue.groupOf k) →
        (freeLanes s1 die pos w.splitDue).getLsbD k = false) →
      exec (.debugStep die cl v) s = .next { modCluster s die cl fun c => { c with dbgctl := ctl c.dbgctl ||| 0x200#32 } with
        fresh := s.fresh + 1 }) ∧
    ∀ w k, stopped → v.getLsbD 28 = true → idle → ¬late → warp = some w → take w.splitDue (w.splitDue.groupOf k) →
      (freeLanes s1 die pos w.splitDue).getLsbD k = true →
      ∃ t w', exec (.debugStep die cl v) s = .next t ∧
        t = { s with cores := t.cores, dies := t.dies, agenda := t.agenda, fresh := s.fresh + 1 } ∧
        (clusterAt t die cl).dbgctl = (ctl (clusterAt s die cl).dbgctl &&& ~~~0x200#32) ||| 0x400#32 ∧
        (coreAt t die pos).decided = assign (coreAt s die pos).decided set (dieOf s die).cycles ∧
        (coreAt t die pos).warpAt slot = some w' ∧ w'.th = w.th ∧ w'.sh = w.sh ∧
        (∀ m, m ≠ slot → (coreAt t die pos).warpAt m = (coreAt s die pos).warpAt m) ∧
        (∀ d q, ¬(d = die ∧ q = pos) → coreAt t d q = coreAt s d q) ∧
        IssuesOf (modWarp (modCore (modCluster s die cl fun c =>
            { c with dbgctl := (ctl c.dbgctl &&& ~~~0x200#32) ||| 0x400#32 }) die pos fun c =>
            { c with decided := assign c.decided set (dieOf s die).cycles }) die pos slot Warp.splitDue) s t die pos slot w.splitDue (take w.splitDue)

/-- The items of DBGACC (R282 Table 9), none where the access is refused. -/
def r282 (w : Warp) (lane item : Nat) : Option Word :=
  let t := w.lane lane
  if item < 131 ∧ t.life ≠ .live then none
  else if item < 112 ∧ t.v.length ≤ 16 * t.wb.toNat + item then none
  else if item < 128 then some (t.reg item)
  else if item = 128 then some (BitVec.ofNat 32 (t.pc.toNat % 2 ^ 32))
  else if item = 129 then some (BitVec.ofNat 32 (t.pc.toNat / 2 ^ 32))
  else if item = 130 then some (BitVec.ofNat 32 t.p.toNat)
  else if item < 195 then some (w.sh.s.getD (item - 131) 0)
  else if item = 195 then some (BitVec.ofNat 32 w.sh.fl.toNat)
  else none

/-- The bits that an item keeps of a written word. -/
def itemWidth (item : Nat) : Nat :=
  if item = 127 then 0 else if item = 129 then 20 else if item = 130 then 12 else if item = 195 then 6 else 32

/-- DBGACC after an access (R282). -/
def dbgaccAfter (v : BitVec 64) (write err : Bool) (data : Nat) : BitVec 64 :=
  BitVec.ofNat 64 (data + fld v 59 36 * 2 ^ 36 + (if err then 2 ^ 60 else 0) + if write then 2 ^ 62 else 0)

/-- The warp and the word of an access (R282), none where err is set. -/
def accessed (s : State) (die cl : Nat) (v : BitVec 64) : Option (Warp × Word) :=
  if (clusterAt s die cl).dbgctl.getLsbD 30 = true ∧ fld v 59 55 < 24 then
    ((coreAt s die (posOfLocal cl (fld v 59 55))).warpAt (fld v 54 49)).bind fun w =>
      (r282 w (fld v 48 44) (fld v 43 36)).map fun x => (w, x)
  else none

/-- R282: reads and writes of thread and warp state through DBGACC, of which a program counter keeps its two zero bits
(R19); a refused access sets err alone. -/
def DebugAccesses : Prop :=
  ∀ (s : State) (die cl : Nat) (v : BitVec 64) (write : Bool),
    let i : Instr := if write then .dbgaccWrite die cl v else .dbgaccRead die cl v
    let lane := fld v 48 44
    let item := fld v 43 36
    (v.getLsbD 63 = false → ClusterBecomes i s die cl fun c =>
      { c with dbgacc := dbgaccAfter v write (c.dbgacc.getLsbD 60) (fld v 31 0) }) ∧
    (v.getLsbD 63 = true → accessed s die cl v = none → ClusterBecomes i s die cl fun c =>
      { c with dbgacc := dbgaccAfter v write true (fld v 31 0) }) ∧
    (v.getLsbD 63 = true → write = false → ∀ w x, accessed s die cl v = some (w, x) →
      ClusterBecomes i s die cl fun c => { c with dbgacc := dbgaccAfter v false false x.toNat }) ∧
    (v.getLsbD 63 = true → write = true → ∀ w x, accessed s die cl v = some (w, x) → w.th.length = 32 →
      w.sh.s.length = 64 → (∀ k, k < 32 → (w.lane k).life = .live → (w.lane k).g.length = 15) → die < s.dies.length →
      (dieOf s die).clusters.length = 6 → cl < 6 →
      ∃ t w', exec i s = .next t ∧ t = { s with cores := t.cores, dies := t.dies } ∧
        (clusterAt t die cl).dbgacc = dbgaccAfter v true false (fld v 31 0) ∧
        (coreAt t die (posOfLocal cl (fld v 59 55))).warpAt (fld v 54 49) = some w' ∧
        r282 w' lane item = some (BitVec.ofNat 32
          (if item = 128 then fld v 31 0 / 4 * 4 else fld v 31 0 % 2 ^ itemWidth item)) ∧
        ∀ lane' item', ¬(item' = item ∧ (lane' = lane ∨ 131 ≤ item)) → r282 w' lane' item' = r282 w lane' item')

/-! ### Placement, saves and flushes -/

/-- The neighbourhood of an index of a grid. -/
def hoodAt (s : State) (g h : Nat) : Option Hood := (gridAt s g).bind fun x => x.hoods.find? fun y => decide (y.idx = h)

/-- A rectangle on which every core admits a block of the grid and none is reserved for another neighbourhood (R263,
R327). -/
def fits (s : State) (die : Nat) (g : Grid) (h : Nat) (ps : List Nat) : Prop :=
  ∀ p ∈ ps, admits s die p g g.warpsPerBlock = true ∧ reservedFor s die p g.id h = false

/-- The thread i of a block at its start (R19, R27): the entry, the two words of the argument address, its coordinates. -/
def startOf (g : Grid) (blk i : Nat) : Thread :=
  let x := fld g.lrec 367 352
  let y := fld g.lrec 383 368
  { Thread.absent with
    life := .live, v := List.replicate (16 * fld g.lrec 415 411) 0,
    g := [BitVec.ofNat 32 (fld g.lrec 95 64), BitVec.ofNat 32 (fld g.lrec 127 96)] ++ List.replicate 13 0,
    pc := BitVec.ofNat 52 (fld g.lrec 51 0), thx := BitVec.ofNat 32 (i % x), thy := BitVec.ofNat 32 (i / x % y),
    thz := BitVec.ofNat 32 (i / (x * y)), blk := blk }

/-- R263, R327, R328: a ready neighbourhood that stands alone in the list is placed on the first rectangle that fits, each
member with its warps at their start; with none that fits it is skipped. -/
def PlacementRounds : Prop :=
  ∀ (s : State) (die : Nat) (g : Grid) (h : Hood), die < s.dies.length → (dieOf s die).resvFor = [] →
    readyList s die = [⟨g, h, none⟩] → gridAt s g.id = some g → hoodAt s g.id h.idx = some h → h.st = .ready →
    g.coop = false → die ∉ h.starving →
    let rects := allRects g.kind g.cols g.rows
    ((∀ ps ∈ rects, ¬fits s die g h.idx ps) → fld g.lrec 479 448 = 0 →
      ∃ t, exec (.placementRound die) s = .next t ∧ t = { s with grids := t.grids } ∧
        hoodAt t g.id h.idx = some { h with skipSince :=
          if (h.skipSince.lookup die).isSome then h.skipSince else (die, (dieOf s die).cycles) :: h.skipSince }) ∧
    ∀ pre ps post, rects = pre ++ ps :: post → (∀ q ∈ pre, ¬fits s die g h.idx q) → fits s die g h.idx ps → ps.Nodup →
      h.blocks.length = ps.length → (h.blocks.map (·.idx)).Nodup → (∀ b ∈ h.blocks, b.st = .waiting) →
      (∀ p ∈ ps, g.warpsPerBlock ≤ (coreAt s die p).freeSlots.length) →
      ∃ t h', exec (.placementRound die) s = .next t ∧ t.mem = s.mem ∧ hoodAt t g.id h.idx = some h' ∧
        h'.st = .placed ∧ h'.skipSince = [] ∧ h'.blocks.length = ps.length ∧ h'.gens = ps.map (fun p => (coreAt s die p).gen) ∧
        ∀ (r p : Nat) (b : Block), ps[r]? = some p → h.blocks[r]? = some b →
          h'.blocks[r]? = some { b with st := .placed, die := die, pos := p, iss := [], ran := true } ∧
          ∀ n, n < g.warpsPerBlock → ∃ w ∈ (coreAt t die p).warps, w.grid = g.id ∧ w.widx = some n ∧ w.sh = Shared.start ∧
            ∀ j, j < 32 → w.lane j = if 32 * n + j < g.threads then startOf g b.idx (32 * n + j) else Thread.absent

/-- R328: 21,000,000 core cycles after a die's dispatcher first skipped a neighbourhood it is starving there, once. The
starving neighbourhoods reserve anew (log 34), beside the rectangles that the estimator has reserved, and none a core that
is reserved for another. -/
def Starvation : Prop :=
  ∀ (s : State) (die grid hood : Nat) (g : Grid) (h : Hood) (ctx : Option Context), gridAt s grid = some g →
    hoodAt s grid hood = some h →
    (readyList s die).find? (fun r => decide (r.grid.id = grid ∧ r.hood.idx = hood)) = some ⟨g, h, ctx⟩ →
    let due := ∃ since, h.skipSince.lookup die = some since ∧ since + 21000000 ≤ (dieOf s die).cycles ∧ die ∉ h.starving
    (¬due → exec (.neighbourhoodStarving die grid hood) s = .next s) ∧
    (due → ∃ t, exec (.neighbourhoodStarving die grid hood) s = .next t ∧
      t = { s with grids := t.grids, dies := t.dies } ∧ hoodAt t grid hood = some { h with starving := die :: h.starving } ∧
      (∀ x, x.whole = true → (x ∈ (dieOf t die).resvFor ↔ x ∈ (dieOf s die).resvFor)) ∧
      ∀ x ∈ (dieOf t die).resvFor, x.whole = false →
        (∃ r ∈ readyList t die, r.grid.id = x.grid ∧ r.hood.idx = x.hood ∧ die ∈ r.hood.starving) ∧
        ∀ y ∈ (dieOf t die).resvFor, ¬(y.grid = x.grid ∧ y.hood = x.hood) → ∀ p ∈ x.cores, p ∉ y.cores)

/-- R248 step 4: the first cutting of a restore list that a bed can take goes into it. -/
def RestoreLists : Prop :=
  ∀ (s : State) (die pos : Nat),
    let c := coreAt s die pos
    let room := fun (x : Cutting) => bedRoom c (((c.kernelOf x.grid).map fun k => k.beds).getD 0) x.grid x.entry = true
    ((∀ x ∈ c.restore, ¬room x) → exec (.restoreListEntry die pos) s = .next s) ∧
    ∀ pre x post, c.restore = pre ++ x :: post → (∀ y ∈ pre, ¬room y) → room x →
      ∃ t, exec (.restoreListEntry die pos) s = .next t ∧ t = { s with cores := t.cores } ∧
        (∀ d q, ¬(d = die ∧ q = pos) → coreAt t d q = coreAt s d q) ∧
        coreAt t die pos = { c.enterBed x.grid x.entry x (dieOf s die).cycles with restore := pre ++ post }

/-- R245, R246, R323, R337: once everything of a neighbourhood that is being saved is at rest, and of all those of its
cooperative grid, its blocks are captured and leave their cores; before that its threads only stop at their points, and
once all of those are at rest its operations stop too. An image that needs more units than are reserved moves its context
to where there is room for it; without room the save becomes a drain. -/
def SavesCapture : Prop :=
  ∀ (s : State) (grid hood : Nat) (g : Grid) (h : Hood) (c : Context), gridAt s grid = some g →
    hoodAt s grid hood = some h → contextOf s grid hood = some c →
    s.contexts.find? (fun x => decide (x.id = c.id)) = some c →
    let i : Instr := .saveCapture grid hood
    let hs := if g.coop then g.hoods.filter (fun x => decide (x.st = .saving)) else [h]
    let s1 := stopHoods s g hs
    let together := hs.flatMap fun x => x.placed.map (·.idx)
    (h.st ≠ .saving → h.st ≠ .done → exec i s = .next s) ∧
    (h.st = .saving → h.placed ≠ [] → (∃ x ∈ hs, readyToCapture s1 g together x = false) → exec i s = .next s1) ∧
    (h.st = .saving → readyToCapture s1 g together h = true → hs = [h] → ∀ b, h.placed = [b] → g.block b.idx = some b →
      (∀ w ∈ (coreAt s b.die b.pos).warps, w.th.length = 32) →
      let sb := captureBlock s1 g b (b.idx % g.hoodSize)
      let n := unitsFor (imageOf s1 [sb]).length
      let saved := fun (t : State) (addr units : Nat) (blocks : List SavedBlock → Prop) => ∃ h' c' b',
        hoodAt t grid hood = some h' ∧ h'.st = .saved c.id ∧
        (gridAt t grid).bind (fun x => x.block b.idx) = some b' ∧ b'.st = .saved ∧
        t.contexts.find? (fun x => decide (x.id = c.id)) = some c' ∧ c'.st = c.st ∧ c'.addr = addr ∧ c'.units = units ∧
        blocks c'.blocks ∧ ∀ w ∈ (coreAt t b.die b.pos).warps, w.holds grid [b.idx] = false
      (n ≤ c.units → ∃ t, exec i s = .next t ∧ saved t c.addr c.units fun l => l = [sb]) ∧
      (c.units < n → findUnits s1 c.id n = none →
        ∃ t h', exec i s = .next t ∧ hoodAt t grid hood = some h' ∧ h'.st = .draining) ∧
      (∀ a, c.units < n → findUnits s1 c.id n = some a → ∃ t, exec i s = .next t ∧ saved t a n fun l => l.length = 1))

/-- R244, R246: what a saved warp keeps of a lane: the registers that its pre-emption point lists, every one of a lane
that is parked or in a loop hold, and zero for the others. -/
def SavedRegisters : Prop :=
  ∀ (s : State) (g : Grid) (w : Warp) (mine : BitVec 32) (k i : Nat), k < 32 → w.th.length = 32 →
    mine.getLsbD k = true → (w.lane k).life = .live →
    let a := w.lane k
    let b := (Warp.saved s g w mine).lane k
    b.pc = a.pc ∧ b.wb = a.wb ∧ b.guardN = a.guardN ∧ b.arrived = a.arrived ∧
    ((∃ l, a.wait = .loopHold l) ∨ a.wait = .parked → i < a.v.length → a.v.length = g.regs → b.v[i]? = a.v[i]?) ∧
    ((∀ l, a.wait ≠ .loopHold l) → a.wait ≠ .parked → ∀ e, sideEntryAt s g a.pc.toNat = some e →
      (i < a.v.length → i < 256 → b.v[i]? = if e.testBit (256 + i) then a.v[i]? else some 0) ∧
      (i < a.g.length → i < 15 → b.g[i]? = if e.testBit (155 + i) then a.g[i]? else some 0) ∧
      (i < 12 → b.p.getLsbD i = (a.p.getLsbD i && e.testBit (170 + i))))

/-- R332: a save of which some lane has issued 65,536 times without reaching a point becomes a drain. -/
def SavesDrain : Prop :=
  ∀ (s : State) (grid hood : Nat) (g : Grid) (h : Hood), gridAt s grid = some g → hoodAt s grid hood = some h →
    let late := ∃ x t, x ∈ hoodWarps s g h ∧ t ∈ x.2.th ∧ t.life = .live ∧ (∃ b ∈ h.placed, b.idx = t.blk) ∧
      t.wait = .none ∧ 65536 ≤ t.stopIssues
    (¬(h.st = .saving ∧ late) → exec (.saveToDrain grid hood) s = .next s) ∧
    (h.st = .saving → late → ∃ t h', exec (.saveToDrain grid hood) s = .next t ∧ hoodAt t grid hood = some h' ∧
      h'.st = .draining ∧ (∀ c, contextOf s grid hood = some c → ∀ x ∈ t.contexts, x.id ≠ c.id) ∧
      ((∀ x ∈ s.grids, ∀ y ∈ x.hoods, y.st = .saving → x.id = grid ∧ y.idx = hood) →
        ∀ c ∈ t.cores, ∀ w ∈ c.warps, w.stopReq = false))

/-- R250, R332: a flush discards the placed blocks of its neighbourhood, which waits to be placed again, when every warp
of it is in an idempotent region; with a bit at 0 it becomes a save, or a drain without room. -/
def Flushes : Prop :=
  ∀ (s : State) (grid hood : Nat) (g : Grid) (h : Hood), gridAt s grid = some g → hoodAt s grid hood = some h →
    let i : Instr := .blockFlush grid hood
    (h.st ≠ .flushing ∨ windowQuiet s g h = false → exec i s = .next s) ∧
    (h.st = .flushing → windowQuiet s g h = true →
      ((∀ x ∈ hoodWarps s g h, x.2.sh.idem = true) → ∃ t h', exec i s = .next t ∧ t.mem = s.mem ∧
        hoodAt t grid hood = some h' ∧ h'.st = .ready ∧
        ∀ b ∈ h'.blocks, b.st ≠ .placed ∧ (b.st = .waiting → b.r = 0 ∧ b.iss = [])) ∧
      ((∃ x ∈ hoodWarps s g h, x.2.sh.idem = false) → ∃ t h', exec i s = .next t ∧ hoodAt t grid hood = some h' ∧
        (h'.st = .draining ∨ h'.st = .saving ∧ ∃ c ∈ t.contexts, c.grid = grid ∧ c.hood = hood ∧ c.st = 1)))

/-- R337: a captured context is written and its header's state becomes 2. R341: the host discards a ready context, and
its neighbourhood counts as killed. -/
def ContextsEnd : Prop :=
  ∀ (s : State) (ctx : Nat) (c : Context) (g : Grid), s.contexts.find? (fun x => decide (x.id = ctx)) = some c →
    gridAt s c.grid = some g →
    (c.st ≠ 1 ∨ c.blocks = [] → exec (.contextSaved ctx) s = .next s) ∧
    (c.st = 1 → c.blocks ≠ [] → ∃ t c', exec (.contextSaved ctx) s = .next t ∧
      t.contexts.find? (fun x => decide (x.id = ctx)) = some c' ∧ c'.st = 2 ∧ c'.savedNs = s.ns ∧ c'.blocks = c.blocks ∧
      (Canonical s → s.contexts = [c] → fwDenied s .phys c.addr 128 = false → readN t .phys c.addr 1 % 4 = 2)) ∧
    (c.st ≠ 2 → exec (.contextDiscard ctx) s = .next s) ∧
    (c.st = 2 → ∀ h, hoodAt s c.grid c.hood = some h → g.ended = none → g.complete = false →
      ∃ t g', exec (.contextDiscard ctx) s = .next t ∧ (∀ x ∈ t.contexts, x.id ≠ ctx) ∧ gridAt t c.grid = some g' ∧
        (g.lrec.getLsbD 418 = false → g'.ended = some 4) ∧
        (g.lrec.getLsbD 418 = true → ∃ h', hoodAt t c.grid c.hood = some h' ∧ h'.st = .ready ∧ h'.resumed = false ∧
          ∀ b ∈ h'.blocks, b.st = .waiting ∧ b.r = 0))

/-- State codes of a block (R348 Table 4). -/
def r348 (b : Block) : Nat :=
  match b.st with
  | .waiting => if b.ran then 3 else 0
  | .saved => 1
  | .retired => 2
  | .placed => 3
  | .killed => 3

/-- R348, R349, R389, R390: an owed partial-completion record of one unit is written at PROD with its header fields, and
is then written. Without room for a unit nothing happens, and nothing while an access that the frontiers count is still to
be performed. -/
def PartialRecords : Prop :=
  ∀ (s : State) (die : Nat) (r : Pcr) (g : Grid), die < s.dies.length → Canonical s →
    (dieOf s die).pcrs.find? (fun x => !x.written) = some r → gridAt s r.grid = some g →
    let ring := (dieOf s die).partialR
    let units := 2 ^ fld ring.base 4 0
    let room := baseUsable ring.base 64 = true ∧ ring.prod.toNat + 1 ≤ ring.cons.toNat + units ∧
      countedDone s r.grid = true
    let a := fld ring.base 51 12 * 4096 + ring.prod.toNat % units * 64
    (¬room → exec (.partialCompletionRecord die) s = .next s) ∧
    (room → ∃ t, exec (.partialCompletionRecord die) s = .next t ∧
      t = { s with mem := t.mem, unitKd := t.unitKd, poison := t.poison, rmwBad := t.rmwBad, denied := t.denied,
                   dies := t.dies, out := s.out ++ [.irq die] } ∧
      (dieOf t die).partialSeq = (dieOf s die).partialSeq + 1 ∧
      (∀ x ∈ (dieOf t die).pcrs, x.grid = r.grid → x.written = true) ∧
      (ring.prod.toNat + 1 + ceilDiv g.blockCount 8 > ring.cons.toNat + units → fwDenied s .phys a 64 = false → g.lrecVa < 2 ^ 52 → g.asid < 2 ^ 12 →
        r.cause < 2 ^ 8 → g.die < 4 → g.blockCount < 2 ^ 32 → (g.hoods.flatMap (·.blocks)).length = g.blockCount →
        readN t .phys a 64 = g.lrecVa + g.asid * 2 ^ 52 + g.blockCount * 2 ^ 64 + r.cause * 2 ^ 96 + g.die * 2 ^ 104 +
          2 ^ 112 + (dieOf s die).partialSeq.toNat * 2 ^ 128)) ∧
    ∀ b : Block, b.entry % 4 = r348 b ∧ (b.entry.testBit 2 = b.confirmed) ∧ (b.entry.testBit 3 = b.suspect) ∧ b.entry / 2 ^ 8 = b.frontier

/-! ### The coppice rotation and silent errors -/

/-- R342, R343: at the start of a slot of 1 ms the next enabled core of the rotation is closed to placement; after the
last one comes a slot without a core, for the spare halves; a core that is not free when its slot ends counts late, and its
turn repeats. A closed core that is free, or whose scan goes on, does not hold the rotation (log 57). While CLKIND is busy
the rotation goes over the kinds still in force (R161). -/
def CoppiceSlots : Prop :=
  ∀ (s : State) (die cl : Nat), die < s.dies.length → (dieOf s die).clusters.length = 6 → cl < 6 →
    let i : Instr := .coppiceSlot die cl
    let c := clusterAt s die cl
    let at_ := fun (k : Nat) => coreAt s die (posOfLocal cl k)
    let kinds := if (dieOf s die).clkind.getLsbD 31 then (dieOf s die).kindsNow.toNat else (dieOf s die).clkind.toNat
    let mine := fun (k : Nat) => k < 24 ∧ (at_ k).kind = kinds / 2 ^ (2 * cl) % 4
    let free := fun (k : Nat) => residents s die (posOfLocal cl k) = [] ∧ (at_ k).warps = [] ∧ (at_ k).beds = [] ∧
      (at_ k).restore = []
    let held := fun (k : Nat) => mine k ∧ (at_ k).closed = true ∧ (at_ k).scanning = none ∧ ¬free k
    let due := c.slotNs / 1000000 < s.ns / 1000000
    (¬due → exec i s = .next s) ∧
    (due → (∀ k, ¬held k) → (∀ k, mine k → k < c.turn) →
      ClusterBecomes i s die cl fun c =>
        { c with slotNs := s.ns, turn := 0, deferred := false, spare := true }) ∧
    (∀ k, due → (∀ j, ¬held j) → mine k → c.turn ≤ k → (∀ j, mine j → c.turn ≤ j → k ≤ j) →
      ∃ t, exec i s = .next t ∧ (coreAt t die (posOfLocal cl k)).closed = true ∧
        clusterAt t die cl = { c with slotNs := s.ns, turn := k + 1, deferred := false, spare := false } ∧
        (residents s die (posOfLocal cl k) = [] → t = { s with cores := t.cores, dies := t.dies } ∧
          coreAt t die (posOfLocal cl k) = { at_ k with closed := true })) ∧
    ∀ k, due → held k → ∃ t, exec i s = .next t ∧
      clusterAt t die cl = { c with slotNs := s.ns, deferred := true, spare := false } ∧
      (dieOf t die).copLate.toNat = min 0xFFFF ((dieOf s die).copLate.toNat + 1)

/-- R342, R251: a closed core without work enters service mode and its scan begins, one core of a cluster at a time (log
57). -/
def ScansStart : Prop :=
  ∀ (s : State) (die pos : Nat),
    let c := coreAt s die pos
    let free := residents s die pos = [] ∧ c.warps = [] ∧ c.beds = [] ∧ c.restore = []
    let alone := ∀ k ∈ rotation s die (clusterOf pos), (coreAt s die (posOfLocal (clusterOf pos) k)).scanning = none
    let may := c.closed = true ∧ c.service = false ∧ c.kind ≠ 3 ∧ free ∧ alone
    (¬may → exec (.coppiceScanStart die pos) s = .next s) ∧
    (may → ∃ t, exec (.coppiceScanStart die pos) s = .next t ∧ t = { s with cores := t.cores } ∧
      (∀ d q, ¬(d = die ∧ q = pos) → coreAt t d q = coreAt s d q) ∧
      coreAt t die pos = { c with
        service := true, scanning := some (dieOf s die).cycles, passBegan := some s.ns })

/-- R342, R344, R346: after 210,000 cycles a scan without a failing half ends the service mode and confirms, for this
core, the blocks that had left it; with failing halves the halves are marked, the position is disabled, a report for
each of them waits for its ring, with one entry for each block that ran there since the last pass, and the watches that
depend on named work are suspect. -/
def ScansEnd : Prop :=
  ∀ (s : State) (die pos : Nat) (bad : List Nat), die < s.dies.length → pos < 144 →
    let i : Instr := .coppiceScanDone die pos bad
    let c := coreAt s die pos
    (c.scanning = none → exec i s = .next s) ∧
    ∀ since, c.scanning = some since →
      ((dieOf s die).cycles < since + 210000 → exec i s = .next s) ∧
      (since + 210000 ≤ (dieOf s die).cycles → (∀ h ∈ bad, h ∉ c.held) → ∃ t, exec i s = .next t ∧
        t = { s with cores := t.cores, grids := t.grids } ∧
        coreAt t die pos = { c with
          service := false, scanning := none, closed := false, lastPass := some s.ns,
          runs := c.runs.filter fun r => r.left.isNone } ∧
        ∀ r ∈ c.runs, r.left ≠ none → ∀ b, ((gridAt t r.grid).bind fun g => g.block r.blk) = some b →
          (die, pos) ∉ b.unconfirmed) ∧
      (since + 210000 ≤ (dieOf s die).cycles → bad ≠ [] → bad.Nodup → (∀ h ∈ bad, h ∈ c.held ∧ h < 312) →
        ∃ t, exec i s = .next t ∧ (∀ h, h < 512 →
            (dieOf t die).repair.getLsbD h = ((dieOf s die).repair.getLsbD h || bad.contains h)) ∧
          (dieOf t die).copFails.toNat = min 255 ((dieOf s die).copFails.toNat + bad.length) ∧
          (coreAt t die pos).kind = 3 ∧ (coreAt t die pos).service = false ∧ (coreAt t die pos).closed = false ∧
          t.measgen = s.measgen + 1 ∧
          (dieOf t die).suspect.waiting.length =
            (dieOf s die).suspect.waiting.length + bad.length * (1 + (ranSince c.runs).length) ∧
          (∀ (k h : Nat), bad[k]? = some h → die < 4 → ∃ e,
            (dieOf t die).suspect.waiting[(dieOf s die).suspect.waiting.length + k * (1 + (ranSince c.runs).length)]? = some e ∧
            e.length = 32 ∧ ofBytes e % 2 ^ 12 = 1 ∧ ofBytes e / 2 ^ 12 % 2 ^ 10 = h ∧
            ofBytes e / 2 ^ 22 % 4 = die ∧ ofBytes e / 2 ^ 24 % 2 ^ 8 = pos) ∧
          ∀ r ∈ c.runs, ∀ b, ((gridAt t r.grid).bind fun g => g.block r.blk) = some b → b.suspect = true)

/-- R346, R389, R390: the oldest waiting unit of a suspect report is written at PROD once the ring has room, where the host
sees it whatever its sectors held. That the firmware lock denies a ring in its range is the model's choice (log 84). -/
def SuspectReports : Prop :=
  ∀ (s : State) (die : Nat), Canonical s → die < s.dies.length →
    let r := (dieOf s die).suspect
    (r.waiting = [] → exec (.suspectReport die) s = .next s) ∧
    ∀ b rest, r.waiting = b :: rest → b.length = 32 →
      let units := 2 ^ fld r.base 4 0
      let room := baseUsable r.base 32 = true ∧ r.prod.toNat + 1 ≤ r.cons.toNat + units
      let at_ := fld r.base 51 12 * 4096 + r.prod.toNat % units * 32
      (¬room → exec (.suspectReport die) s = .next s) ∧
      (room → ∃ t, exec (.suspectReport die) s = .next t ∧
        t = { s with mem := t.mem, unitKd := t.unitKd, poison := t.poison, rmwBad := t.rmwBad, denied := t.denied,
                     dies := t.dies, out := s.out ++ [.irq die] } ∧
        (fwDenied s .phys at_ 32 = false → HostSees t at_ 32 ∧
          (Keyed s at_ 32 (keyId s 0) → Stored s t .phys at_ (b.map some))) ∧
        dieOf t die = { dieOf s die with suspect := { r with prod := r.prod + 1, waiting := rest } })

/-- R345: the oldest held value of a confirmed watch is copied to the shadow once its work is confirmed, or at once
where it reports an end; not while the watch is disabled or suspect. -/
def ShadowsCopy : Prop :=
  ∀ (s : State) (die n : Nat) (w : Watch) (h : Held) (rest : List Held), die < s.dies.length → Canonical s →
    (dieOf s die).watches.lookup n = some w → w.held = h :: rest → (h.at_once = false → ∀ x ∈ rest, x.at_once = false) →
    let i : Instr := .confirmedShadowCopy die n
    let va := fld w.reg 115 64
    let confirmed := h.at_once = true ∨ ∀ x ∈ h.needs, workConfirmed s x.1 x.2 = true
    (w.reg.getLsbD 127 = false ∨ w.reg.getLsbD 126 = true ∨ ¬confirmed → exec i s = .next s) ∧
    (w.reg.getLsbD 127 = true → w.reg.getLsbD 126 = false → confirmed → va % 8 = 0 →
      ∀ tr, translate s (fld w.reg 63 52) va true false (some false) = .ok tr → fwDenied s .phys tr.pa 8 = false →
        Keyed s tr.pa 8 tr.kd →
        ∃ t w', exec i s = .next t ∧ Stored s t .phys tr.pa ((toBytes 8 h.value.toNat).map some) ∧
          (dieOf t die).watches.lookup n = some w' ∧ w'.reg = w.reg ∧ ∃ more, w'.held = rest ++ more)

/-- R347, R374, R375: an uncorrectable error of an access poisons its sector, and one of HBM posts a memory error record
with the access's source and ASID, or counts it lost; where the old data of a partial write or the metadata cannot be
read, both sectors of the unit are poisoned. The event carries the address in its bits [51:0], src in [55:52], a failed
metadata fetch in [56] and the ASID in [68:57]. That an error outside HBM posts no record is the model's choice (log 54),
and so is what a partial write that comes after it finds (log 27). -/
def ErrorsPoison : Prop :=
  ∀ (s : State) (sp : Space) (a src asid : Nat) (metadata : Bool), a < 2 ^ 52 → src < 16 → asid < 2 ^ 12 →
    let i : Instr := .uncorrectableError sp (a + src * 2 ^ 52 + (if metadata then 2 ^ 56 else 0) + asid * 2 ^ 57)
    (sp ≠ .phys ∨ inHbm a = false → ∃ t, exec i s = .next t ∧ t = { s with poison := t.poison } ∧
      ∀ x, x ∈ t.poison ↔ x ∈ s.poison ∨ x = (sp, a / 32)) ∧
    (sp = .phys → inHbm a = true → dieOfPa a < s.dies.length →
      let r := (dieOf s (dieOfPa a)).memerr
      let room := baseUsable r.base 32 = true ∧ r.prod.toNat + 1 ≤ r.cons.toNat + 2 ^ fld r.base 4 0
      let slot := fld r.base 51 12 * 4096 + r.prod.toNat % 2 ^ fld r.base 4 0 * 32
      let hit := fun (k : Nat) => if src = 1 ∨ src = 2 ∨ metadata = true then k / 2 = a / 64 else k = a / 32
      ∃ t, exec i s = .next t ∧ t.cores = s.cores ∧ t.ops = s.ops ∧
        (∀ x, (room → x ≠ (.phys, slot / 32)) → (x ∈ t.poison ↔ x ∈ s.poison ∨ x.1 = .phys ∧ hit x.2)) ∧
        (src = 1 ∨ src = 2 → (room → a / 64 ≠ slot / 64) → a / 64 ∈ t.rmwBad) ∧
        (room → (dieOf t (dieOfPa a)).memerr = { r with prod := r.prod + 1 } ∧ t.out = s.out ++ [.irq (dieOfPa a)] ∧
          (Canonical s → fwDenied s .phys slot 32 = false → s.ns < 2 ^ 64 → readN t .phys slot 32 =
            (if metadata then 3 else 1) + src * 2 ^ 4 + a / 0xC00000000 * 2 ^ 8 + a / 64 * 64 * 2 ^ 64 + asid * 2 ^ 128 +
              s.ns * 2 ^ 192)) ∧
        (¬room → t.mem = s.mem ∧
          (dieOf t (dieOfPa a)).memerr = { r with lost := BitVec.ofNat 32 (min 0xFFFFFFFF (r.lost.toNat + 1)) }))

/-! ### Moving pages -/

/-- No move of the page is in progress. -/
def settledPage (s : State) (asid vpage : Nat) : Prop := ∀ m ∈ s.moves, m.isOn asid vpage = false

/-- R368, R369: a resolution makes the page private: it clears cow and mv where the frame has one mapping, and else copies
the page into a frame of the pool, whose count is 1, and drops the old frame's count. With the pool empty the parked records
are posted to the host, mv clears and the resolution ends. -/
def CopyOnWrite : Prop :=
  ∀ (s : State) (die : Nat) (asid : BitVec 12) (vpage e at_ : Nat),
    let i : Instr := .copyOnWriteResolution die asid vpage
    let a := asid.toNat
    let old := e / 2 ^ 16 % 2 ^ 36 * 65536
    (Move.cow die a vpage ∉ s.moves → exec i s = .next s) ∧
    (Move.cow die a vpage ∈ s.moves → walk s a (vpage * 65536) = .leaf 0 e at_ → Canonical s → noFrames s → e < 2 ^ 64 →
      (countOf s old = 1#16 → ∃ t, exec i s = .next t ∧ settledPage t a vpage ∧ t.counts = s.counts ∧
        ∀ k, k < 64 → (readN t .phys at_ 8).testBit k = (e.testBit k && decide (k ≠ 4 ∧ k ≠ 7))) ∧
      (countOf s old ≠ 1#16 → accessPending s a vpage 1 = false → poolPop s a = none →
        ∃ t, exec i s = .next t ∧ settledPage t a vpage ∧ t.counts = s.counts ∧
          (∀ k, k < 64 → (readN t .phys at_ 8).testBit k = (e.testBit k && decide (k ≠ 7))) ∧
          ∀ x ∈ parkedOn s a vpage, x.1.die < s.dies.length →
            ∃ b ∈ (dieOf t x.1.die).fault.waiting, ofBytes b % 2 ^ 256 = x.2.2.bits.toNat) ∧
      ∀ g s1, countOf s old ≠ 1#16 → accessPending s a vpage 1 = false → poolPop s a = some (g, s1) →
        g / 65536 ≠ old / 65536 → g < 2 ^ 52 → ∃ t, exec i s = .next t ∧ settledPage t a vpage ∧ countOf t g = 1#16 ∧
          (countOf t old = if countOf s old = 0xFFFF#16 then 0xFFFF#16 else countOf s old - 1) ∧
          (∀ k, k < 64 → (readN t .phys at_ 8).testBit k =
            if 16 ≤ k ∧ k < 52 then (g / 65536).testBit (k - 16) else (e.testBit k && decide (k ≠ 4 ∧ k ≠ 7))) ∧
          (s.fwlock = false → (∀ u, foreign s u (keyId s (e / 2 ^ 52 % 2 ^ 8)) = false) → s.rmwBad = [] →
            (∀ x, old ≤ x → x < old + 65536 → readByte s1 .phys x = readByte s .phys x) →
            ∀ x, x < 65536 → (g + x < at_ ∨ at_ + 8 ≤ g + x) → readByte t .phys (g + x) = readByte s .phys (old + x)))

/-- R370: a page of a lower tier comes to a frame of the pool: its entry names the frame at tier 0 without mv, and the old
location goes into the reclaim ring. A ring without room makes the move wait. That the firmware lock denies a ring in its
range is the model's choice (log 84). -/
def MovesToTierZero : Prop :=
  ∀ (s : State) (die : Nat) (asid : BitVec 12) (vpage e at_ tier : Nat) (stuck bad : Bool), die < s.dies.length →
    let i : Instr := .tierMove die asid vpage bad
    let a := asid.toNat
    let r := (dieOf s die).reclaim
    let units := 2 ^ fld r.base 4 0
    let room := baseUsable r.base 16 = true ∧ r.prod.toNat + 1 ≤ r.cons.toNat + units
    let slot := fld r.base 51 12 * 4096 + r.prod.toNat % units * 16
    (s.moves.find? (fun m => m.isOn a vpage) = none → exec i s = .next s) ∧
    (s.moves.find? (fun m => m.isOn a vpage) = some (.promote die a vpage tier stuck) →
      walk s a (vpage * 65536) = .leaf 0 e at_ →
      (¬room → stuck = true → exec i s = .next s) ∧
      (¬room → stuck = false → ∃ t, exec i s = .next t ∧ t.mem = s.mem ∧
        t.moves.find? (fun m => m.isOn a vpage) = some (.promote die a vpage tier true)) ∧
      (room → bad = true → ∃ t, exec i s = .next t ∧ (noFrames s → settledPage t a vpage)) ∧
      ∀ g s1, room → bad = false → poolPop s a = some (g, s1) → Canonical s → noFrames s → e < 2 ^ 64 → g < 2 ^ 52 →
        (at_ + 8 ≤ slot / 64 * 64 ∨ slot / 64 * 64 + 64 ≤ at_) → ∃ t, exec i s = .next t ∧ settledPage t a vpage ∧
          (dieOf t die).reclaim = { r with prod := r.prod + 1 } ∧ .irq die ∈ t.out ∧
          (fwDenied s .phys slot 16 = false → readN t .phys slot 16 = (vpage * 65536 + a * 2 ^ 52 + tier * 2 ^ 64 + e / 2 ^ 16 % 2 ^ 36 * 2 ^ 66) % 2 ^ 128) ∧
          ∀ k, k < 64 → (readN t .phys at_ 8).testBit k =
            if 16 ≤ k ∧ k < 52 then (g / 65536).testBit (k - 16)
            else (e.testBit k && decide (k ≠ 7 ∧ k ≠ 60 ∧ k ≠ 61)))

/-- The page of a migration command may be demoted (R371, R407): a present level-0 leaf of tier 0 in the device domain,
neither shared copy-on-write nor mirrored, with a frame of at most one mapping. -/
def MayDemote (s : State) (asid vpage e at_ : Nat) : Prop :=
  walk s asid (vpage * 65536) = .leaf 0 e at_ ∧ e / 2 ^ 60 % 4 = 0 ∧ e.testBit 4 = false ∧ e.testBit 5 = false ∧
    e.testBit 6 = false ∧ (countOf s (e / 2 ^ 16 % 2 ^ 36 * 65536)).toNat ≤ 1

/-- The address of a die's next migration command (R371, R389). -/
def commandAt (d : Die) : Nat := fld d.migbase 51 12 * 4096 + d.mighead.toNat % 2 ^ fld d.migbase 4 0 * 32

/-- R371, R389: the device takes the command at MIGHEAD and starts its first attempt; one for a page that may not be
demoted is abandoned. That a command with a reserved bit set is abandoned too, and so one with another target tier than 1 or
2, with a target outside G-FAM or above 36 bits, or for a page whose move is in progress, is the model's choice (log 76); so
is what the firmware lock does to the ring (log 84). -/
def MigrationCommands : Prop :=
  ∀ (s : State) (die : Nat), die < s.dies.length → Canonical s → fwDenied s .phys (commandAt (dieOf s die)) 32 = false →
    let i : Instr := .migrationCommand die
    let d := dieOf s die
    let c := readN s .phys (commandAt d) 32
    let asid := c / 2 ^ 52 % 2 ^ 12
    let vpage := c / 2 ^ 16 % 2 ^ 36
    let tier := c / 2 ^ 64 % 4
    let target := c / 2 ^ 66 % 2 ^ 62
    let may := d.mighead.toNat < d.migtail.toNat ∧ baseUsable d.migbase 32 = true ∧ demotionOf s die = none
    let legal := c / 2 ^ 134 = 0 ∧ (tier = 2 ∧ target < 2 ^ 36 ∨ tier = 1 ∧ inGfam (target * 65536) = true) ∧
      moveOn s asid vpage = false
    (¬may → exec i s = .next s) ∧
    (may → ∀ e at_, legal → MayDemote s asid vpage e at_ → exec i s = .next { s with
      moves := s.moves ++ [.demote die asid vpage (e / 2 ^ 16 % 2 ^ 36 * 65536) tier target 1 false] }) ∧
    (may → ¬(legal ∧ ∃ e at_, MayDemote s asid vpage e at_) → ∃ t, exec i s = .next t ∧
      t = { s with mem := t.mem, unitKd := t.unitKd, poison := t.poison, rmwBad := t.rmwBad, denied := t.denied,
                   dies := t.dies } ∧
      (dieOf t die).mighead = d.mighead + 1 ∧ HostSees t (commandAt d) 32 ∧
      ∀ k, k < 256 → (readN t .phys (commandAt d) 32).testBit k =
        (decide (k = 129) || c.testBit k && !decide (128 ≤ k ∧ k ≤ 133)))

/-- R371: a demotion whose copy was not written to switches: the entry names the target tier and location, the frame
returns to the pool, and the command is done. After a write to the page the attempt was in vain: another follows, or
the command is abandoned. -/
def DemotionsEnd : Prop :=
  ∀ (s : State) (die asid vpage frame tier target k e at_ : Nat) (dirty : Bool),
    let i : Instr := .demotionCopyDone die
    demotionOf s die = some (.demote die asid vpage frame tier target k dirty) →
    ((∀ e at_, ¬MayDemote s asid vpage e at_) → ∃ t, exec i s = .next t ∧ (noFrames s → settledPage t asid vpage) ∧
      (die < s.dies.length → (dieOf t die).mighead = (dieOf s die).mighead + 1)) ∧
    (MayDemote s asid vpage e at_ → e.testBit 7 = true → e < 2 ^ 64 → noFrames s →
      (accessPending s asid vpage 1 = true → exec i s = .next s) ∧
      (accessPending s asid vpage 1 = false → dirty = false → target < 2 ^ 36 → tier < 4 → ∃ n t,
        (∀ b, b < 64 → n.testBit b =
          if 16 ≤ b ∧ b < 52 then target.testBit (b - 16)
          else if b = 60 ∨ b = 61 then tier.testBit (b - 60)
          else (e.testBit b && decide (b ≠ 7 ∧ ¬(52 ≤ b ∧ b < 60)))) ∧
        exec i s = .next t ∧ settledPage t asid vpage ∧ countOf t frame = 0#16 ∧
        (die < s.dies.length → (dieOf t die).mighead = (dieOf s die).mighead + 1) ∧
        t.mem = (migFinish (poolPush (setCount (writePte s at_ n) frame 0) asid frame) die 1 0 k).mem) ∧
      (accessPending s asid vpage 1 = false → dirty = true → Canonical s →
        (∀ x, at_ ≤ x → x < at_ + 8 → x < s.asidtab.toNat + 64 * asid ∨ s.asidtab.toNat + 64 * asid + 64 ≤ x) →
        (asidEntry s asid / 2 ^ 396 % 16 < k → ∃ t, exec i s = .next t ∧ settledPage t asid vpage ∧
          (die < s.dies.length → (dieOf t die).mighead = (dieOf s die).mighead + 1)) ∧
        (k ≤ asidEntry s asid / 2 ^ 396 % 16 → ∃ t, exec i s = .next t ∧
          .demote die asid vpage frame tier target (k + 1) false ∈ t.moves)))

/-! ### Checkpoints -/

/-- The package is quiet (R410). -/
def quiet410 (s : State) : Prop :=
  (∀ g ∈ s.grids, ∀ h ∈ g.hoods, ∀ b ∈ h.blocks, b.st ≠ .placed) ∧ (∀ c ∈ s.contexts, c.st = 0 ∨ 3 < c.st) ∧
    (∀ o ∈ s.ops, ∀ l r c q, o.kind ≠ .transfer l r c q) ∧ (∀ o ∈ s.ops, ∀ n l t b, o.kind ≠ .ngu n l t b) ∧
    (s.mirrors = [] ∨ s.mirBroken = true)

/-- The code of a checkpoint command, 1 to save and 2 to restore (R411). -/
def ckCode : Instr → Option (Nat × Nat)
  | .checkpointSave cmd => some (1, cmd)
  | .checkpointRestore cmd => some (2, cmd)
  | _ => none

/-- A command runs as the words `c` say: it starts while no command does and the package is quiet, or goes on where it waited
for a page of its shards (R410, R411). -/
def ckRuns (s : State) (op cmd c : Nat) : Prop :=
  c % 4 = op ∧
    (s.ckpt = none ∧ c = readN s .phys cmd 64 ∧ fwDenied s .phys cmd 64 = false ∧ quiet410 s ∧ ckMalformed s cmd c = false ∨
      ∃ err shard, s.ckpt = some ⟨err, shard, some (cmd, c)⟩)

/-- A command that may not start: busy, not quiet, or malformed (R410, R411). One whose shards have pages to wait for is
busy until it is delivered again (R151). -/
def CommandsRefuse : Prop :=
  ∀ (i : Instr) (s : State) (op cmd : Nat), ckCode i = some (op, cmd) → fwDenied s .phys cmd 64 = false →
    let c := readN s .phys cmd 64
    (∀ k, s.ckpt = some k → (∀ x, k.waits = some x → ¬(x.1 = cmd ∧ x.2 % 4 = op)) → exec i s = .next s) ∧
    (c % 4 ≠ 3 - op → s.ckpt = none → ¬quiet410 s → exec i s = .next { s with ckerr := 1 }) ∧
    (c % 4 ≠ 3 - op → s.ckpt = none → quiet410 s → ckMalformed s cmd c = true → exec i s = .next { s with ckerr := 5 })

/-- R411, R412: a save reads its shards in table order and writes them to the store at 64 KiB places; then the manifest
is written. A shard that cannot be read or does not fit ends the command with error 4 and its index. The layout of a manifest
entry with its digest at byte 32 (log 42), and which store a command reaches (log 46), are the model's choice. -/
def CheckpointSaves : Prop :=
  (∀ (s : State) (cmd c : Nat), ckRuns s 1 cmd c →
    let sp := ckStore s c
    let shards := shardsOf s (c / 2 ^ 192 % 2 ^ 64) (c / 2 ^ 160 % 2 ^ 32)
    (∀ s', shardsWait s shards false = some s' →
      exec (.checkpointSave cmd) s = .next { s' with ckpt := some ⟨0, 0, some (cmd, c)⟩ }) ∧
    (shardsWait s shards false = none →
      (∀ k s1, saveShards sp shards 0 (c / 2 ^ 384 % 2 ^ 64) s [] = .error (k, s1) →
        exec (.checkpointSave cmd) s = .next { s1 with ckpt := some ⟨4, BitVec.ofNat 32 k, none⟩ }) ∧
      ∀ s1 off es, saveShards sp shards 0 (c / 2 ^ 384 % 2 ^ 64) s [] = .ok (s1, off, es) →
        (inStore sp off (64 + es.length + 384) = true → ∃ t m, exec (.checkpointSave cmd) s = .next t ∧
          t.ckpt = some ⟨0, 0, none⟩ ∧ t.cores = s1.cores ∧
          m.length = 64 + es.length + 384 ∧ (m.drop 64).take es.length = es ∧
          (Canonical s1 → readBytes t sp off m.length = m)))) ∧
  ∀ (s : State) (sp : Space) (x : Nat × Nat × Nat) (k off : Nat) (bs : List Byte), sp ≠ .phys → Canonical s →
    readShard s x = some bs → inStore sp off x.2.2 = true →
    ∃ t es, saveShards sp [x] k off s [] = .ok (t, off + (x.2.2 + 65535) / 65536 * 65536, es) ∧ t.mem = s.mem ∧
      readBytes t sp off bs.length = bs ∧ es.length = 64 ∧ es.drop 32 = sha256 bs

/-- R411, R413: a restore stops with error 2 on a manifest whose signature does not verify, and with error 3 at a shard
whose digest does not match; else the shards are written. R411: the command completes with its outcome. The layout of a
manifest entry (log 42) and the store that a command reaches (log 46) are the model's choice. -/
def CheckpointRestores : Prop :=
  (∀ (s : State) (cmd c : Nat), ckRuns s 2 cmd c →
    let sp := ckStore s c
    let n := c / 2 ^ 160 % 2 ^ 32
    let off := c / 2 ^ 384 % 2 ^ 64
    let len := 64 + 64 * n
    let m := readBytes s sp off len
    c / 2 ^ 448 % 2 ^ 64 = 0 → inStore sp off (len + 384) = true → isPoisoned s sp off (len + 384) = false →
      (readBytes s sp (off + len) 384 ≠ (List.range 384).map (Config.identitySignature m) →
        exec (.checkpointRestore cmd) s = .next { s with ckpt := some ⟨2, 0, none⟩ }) ∧
      (readBytes s sp (off + len) 384 = (List.range 384).map (Config.identitySignature m) →
        let w := shardsWait s ((manifestShards m n).map fun x => x.1) true
        (∀ s', w = some s' → exec (.checkpointRestore cmd) s = .next { s' with ckpt := some ⟨0, 0, some (cmd, c)⟩ }) ∧
        (w = none →
          let r := restoreShards sp (manifestShards m n) 0 s
          exec (.checkpointRestore cmd) s = .next { r.1 with ckpt := some ⟨r.2.1, BitVec.ofNat 32 r.2.2, none⟩ }))) ∧
  (∀ (s : State) (sp : Space) (x : Nat × Nat × Nat) (off k : Nat) (digest : List Byte), inStore sp off x.2.2 = true →
    isPoisoned s sp off x.2.2 = false →
    let bs := readBytes s sp off x.2.2
    (sha256 bs ≠ digest → restoreShards sp [(x, off, digest)] k s = (s, 3, k)) ∧
    (sha256 bs = digest → ∀ t, writeShard s x bs = some t → restoreShards sp [(x, off, digest)] k s = (t, 0, 0)) ∧
    (sha256 bs = digest → writeShard s x bs = none →
      restoreShards sp [(x, off, digest)] k s = (shardFails s x true, 4, k))) ∧
  ∀ (s : State), (s.ckpt = none → exec .checkpointComplete s = .next s) ∧
    ∀ k, s.ckpt = some k → exec .checkpointComplete s = .next (if k.waits = none then { s with
      ckpt := none, ckerr := BitVec.ofNat 6 k.err, ckshard := k.shard } else s)

/-! ### The fabric -/

/-- A flit of a kind arrives whole, for this node, over a port that is up, for the first time (R394, R395). -/
structure FlitOk (s : State) (port : Nat) (hdr : BitVec 256) (pay : List (BitVec 8 × BitVec 256)) (kind : Nat) : Prop where
  up : ∃ p, s.ports[port]? = some p ∧ p.up = true ∧ fld hdr 127 96 ∉ p.accepted
  mine : fld hdr 95 84 = fld s.fabnode 11 0
  isKind : fld hdr 71 68 = kind
  whole : fld hdr 255 224 = flitCrc hdr.toNat pay

/-- The sequence number was accepted at a port, and the other ports are as they were but for what they send. -/
def Accepted (s t : State) (port : Nat) (hdr : BitVec 256) : Prop :=
  ∀ p, s.ports[port]? = some p → ∃ q, t.ports[port]? = some q ∧ q.up = p.up ∧ q.accepted = fld hdr 127 96 :: p.accepted

/-- A flit went out over a port to a node, of a kind, with an address, a sector mask and a payload (R394 Table 1). -/
def SentFlit (t : State) (port node kind addr mask : Nat) (pay : List (BitVec 8 × BitVec 256)) : Prop :=
  ∃ h, .flit port h pay ∈ t.out ∧ fld h 71 68 = kind ∧ fld h 95 84 = node ∧ fld h 211 160 = addr ∧ fld h 159 152 = mask

/-- The flits with their kinds (R394 Table 2). -/
def flitKind : Instr → Option (Nat × BitVec 256 × List (BitVec 8 × BitVec 256) × Nat)
  | .ngurothPutFlit p h x => some (p, h, x, 1)
  | .getRequest p h x => some (p, h, x, 2)
  | .getData p h x _ _ _ => some (p, h, x, 3)
  | .acknowledgement p h _ _ _ => some (p, h, [], 4)
  | .combine p h x => some (p, h, x, 5)
  | .remoteSignalFlit p h => some (p, h, [], 6)
  | .mirrorFlit p h x => some (p, h, x, 7)
  | _ => none

/-- R395: a flit that is damaged, a duplicate, for another node or over a port that is down has no effect. -/
def FlitsDrop : Prop :=
  ∀ (i : Instr) (s : State) (port kind : Nat) (hdr : BitVec 256) (pay : List (BitVec 8 × BitVec 256)),
    flitKind i = some (port, hdr, pay, kind) → ¬FlitOk s port hdr pay kind → exec i s = .next s

/-- A flit that names one sector arrives from a node that this one serves (R397): its address is `va`. -/
structure OneSector (s : State) (port : Nat) (hdr : BitVec 256) (pay : List (BitVec 8 × BitVec 256)) (kind va : Nat)
    (x : BitVec 8 × BitVec 256) : Prop where
  arrives : FlitOk s port hdr pay kind
  node : s.fabnode.toNat < 2 ^ 12
  one : ∃ j, j < 7 ∧ fld hdr 158 152 = 2 ^ j ∧ va = fld hdr 211 160 + 32 * j
  data : kind = 2 ∨ pay = [x]

/-- The requesting node and ASID are known here (R397). -/
def served (s : State) (hdr : BitVec 256) : Prop :=
  fld hdr 83 72 ∈ s.peermap ∧ asidEntry s (fld hdr 223 212) / 2 ^ 392 % 2 = 1

/-- The bytes of a payload sector, none where its word is not valid. -/
def sectorBytesOf (x : BitVec 8 × BitVec 256) : List (Option Byte) :=
  (List.range 32).map fun b => if x.1.getLsbD (b / 4) then some (BitVec.ofNat 8 (x.2.toNat / 256 ^ b)) else none

/-- R404 Table 5: a target word after a collective step; the arg layout is the model's (log 41). -/
def r404 (step op old x : Nat) : Nat :=
  let mag := fun (a b : Nat) => if (bf16.decode a).isNan || (bf16.decode b).isNan then 0x7FC0 else max (a % 2 ^ 15) (b % 2 ^ 15)
  let si := fun (y : Nat) => if 2 ^ 31 ≤ y then (y : Int) - (2 ^ 32 : Int) else (y : Int)
  if step = 1 then mag (old % 2 ^ 16) (x % 2 ^ 16) + mag (old / 2 ^ 16 % 2 ^ 16) (x / 2 ^ 16 % 2 ^ 16) * 2 ^ 16
  else if step = 2 then (if old = 2 ^ 31 ∨ x = 2 ^ 31 then 2 ^ 31 else (old + x) % 2 ^ 32)
  else match op with
    | 0 => (old + x) % 2 ^ 32
    | 1 => if si old ≤ si x then x else old
    | 2 => r271 11 32 old x 0
    | 3 => (minmaxF fp32 true old x).1
    | _ => r271 12 32 old x 0

/-- R397, R400, R402, R404: what a put, a get and a combine do at the sector's home, and what a refusal leaves. A
refused or served request is acknowledged; a get is answered with data, or without where it ends in error (that the answer
is data without a sector is log 44's choice); a page to be resolved makes the flit wait. -/
def RequestsServe : Prop :=
  ∀ (i : Instr) (s : State) (port kind va : Nat) (hdr : BitVec 256) (pay : List (BitVec 8 × BitVec 256)) (x : BitVec 8 × BitVec 256),
    flitKind i = some (port, hdr, pay, kind) → OneSector s port hdr pay kind va x → kind = 1 ∨ kind = 2 ∨ kind = 5 →
    let asid := fld hdr 223 212
    let src := fld hdr 83 72
    let tr := translate s asid va (kind ≠ 2) false (some false)
    (¬served s hdr → ∃ t, exec i s = .next t ∧ t.mem = s.mem ∧ t.cores = s.cores ∧ Accepted s t port hdr ∧
      (kind ≠ 2 → SentFlit t port src 4 (fld hdr 211 160) (fld hdr 158 152) []) ∧
      (kind = 2 → SentFlit t port src 3 (va % 2 ^ 52) 0 [])) ∧
    (served s hdr → (∀ d, tr = .error d → d.cls = 7 → ∃ t, exec i s = .next t ∧ t.ports = s.ports ∧ t.out = s.out ∧
        moveOn t asid (va / 65536) = true)) ∧
    (served s hdr → (∀ d, tr = .error d → d.cls ≠ 7 → ∃ t, exec i s = .next t ∧ t.mem = s.mem ∧ Accepted s t port hdr ∧
        (kind ≠ 2 → SentFlit t port src 4 (fld hdr 211 160) (fld hdr 158 152) []) ∧
        (kind = 2 → SentFlit t port src 3 (va % 2 ^ 52) 0 []))) ∧
    (served s hdr → ∀ r, tr = .ok r → fwDenied s .phys r.pa 32 = false → Canonical s →
      (kind = 1 → Keyed s r.pa 32 r.kd → ∃ t, exec i s = .next t ∧ Stored s t .phys r.pa (sectorBytesOf x) ∧ t.cores = s.cores ∧
        Accepted s t port hdr ∧ SentFlit t port src 4 (fld hdr 211 160) (fld hdr 158 152) []) ∧
      (kind = 2 → va < 2 ^ 52 → isPoisoned s .phys r.pa 32 = false → tagMismatch s .phys r.pa 32 r.kd = false →
        ∃ t, exec i s = .next t ∧ t.mem = s.mem ∧ Accepted s t port hdr ∧
          SentFlit t port src 3 va 1 [(0xFF#8, BitVec.ofNat 256 (ofBytes (agentBytes s .phys r.pa 32 r.kd)))]) ∧
      (kind = 5 → isPoisoned s .phys r.pa 32 = false → tagMismatch s .phys r.pa 32 r.kd = false → Keyed s r.pa 32 r.kd →
        ∃ t, exec i s = .next t ∧ Accepted s t port hdr ∧
          SentFlit t port src 4 (fld hdr 211 160) (fld hdr 158 152) [] ∧
          Stored s t .phys r.pa ((List.range 32).map fun b => if x.1.getLsbD (b / 4) then
            some (BitVec.ofNat 8 (r404 (fld hdr 137 136) (fld hdr 131 128)
              (ofBytes (((agentBytes s .phys r.pa 32 r.kd).drop (b / 4 * 4)).take 4))
              (x.2.toNat / 2 ^ (32 * (b / 4)) % 2 ^ 32) / 256 ^ (b % 4))) else none)))

/-- R314, R315, R400: a remote signal falls by 1 and the command processors are notified. -/
def RemoteSignals : Prop :=
  ∀ (s : State) (port : Nat) (hdr : BitVec 256), FlitOk s port hdr [] 6 →
    let va := fld hdr 211 160
    (¬served s hdr → ∃ t, exec (.remoteSignalFlit port hdr) s = .next t ∧ t = { s with ports := t.ports } ∧
      Accepted s t port hdr) ∧
    (served s hdr → ∀ r, translate s (fld hdr 223 212) va true false (some false) = .ok r →
      fwDenied s .phys r.pa 8 = false → Canonical s → Keyed s r.pa 8 r.kd →
      let old := ofBytes (agentBytes s .phys r.pa 8 r.kd)
      ∃ t, exec (.remoteSignalFlit port hdr) s = .next t ∧ Accepted s t port hdr ∧ t.cores = s.cores ∧
        Stored s t .phys r.pa ((toBytes 8 ((old + 2 ^ 64 - 1) % 2 ^ 64)).map some) ∧
        ∀ d ∈ t.dies, ∀ p ∈ d.packets, p.kind = 2 → p.rereads = true)

/-- A sector of a Nguroth operation is in flight, and nothing of the operation has failed (R400). -/
structure InFlight (s : State) (op sector : Nat) (o : Op) (n : Ngu) (l : List Machine.Unit) (sent : List (Nat × Nat)) (sg : Bool)
    (u : Machine.Unit) : Prop where
  op_ : opAt s op = some o
  kind : o.kind = .ngu n l sent sg
  sent_ : (sent.lookup sector).isSome = true
  unit : l.find? (fun x => decide (x.tag = sector)) = some u
  here : o.here s = true
  memory : Canonical s

/-- The sector left its operation: the others stay, and the last one ends an operation that owes no signal. -/
def SectorLeaves (t : State) (op sector : Nat) (u : Machine.Unit) (n : Ngu) (l : List Machine.Unit) (sent : List (Nat × Nat))
    (sg failed : Bool) : Prop :=
  let left := l.filter fun x => decide (¬(x.tag = sector ∧ x.recv = u.recv))
  (left = [] → (sg = true ∨ failed = true) → opAt t op = none) ∧
  (left ≠ [] ∨ (sg = false ∧ failed = false) → ∃ o', opAt t op = some o' ∧ o'.kind = .ngu n left sent (sg || failed))

/-- R400, R402, R409: an acknowledged put or combine leaves; get data is written locally and lands; a sector that failed
at its target, or had no answer for 5 ms, lands in error. -/
def AnswersLand : Prop :=
  ∀ (s : State) (op sector : Nat) (o : Op) (n : Ngu) (l : List Machine.Unit) (sent : List (Nat × Nat)) (sg : Bool) (u : Machine.Unit),
    InFlight s op sector o n l sent sg u →
    (∀ port hdr err, FlitOk s port hdr [] 4 → n.kind ≠ 2 → ∃ t,
      exec (.acknowledgement port hdr op sector err) s = .next t ∧ RegsSame s t ∧ Accepted s t port hdr ∧
        t.mem = s.mem ∧ SectorLeaves t op sector u n l sent sg (decide (err ≠ 0)) ∧
        (err = 0 → l = [u] → o.secs.length = 1 → u.secs = o.secs → LandedOne s t o)) ∧
    (∀ port hdr x dp b kd mir va m, FlitOk s port hdr [x] 3 → n.kind = 2 → u.err = none → u.seq = none →
      resolveSegs s o u.segs = .ok [⟨none, some (dp, b, kd, mir, va), m⟩] → fwDenied s dp b m = false →
      (dp = .phys → Keyed s b m kd) →
      let skip := n.remote - 32 * (n.remote / 32 + sector)
      skip + m ≤ 32 → ∃ t, exec (.getData port hdr [x] op sector 0) s = .next t ∧ RegsSame s t ∧ Accepted s t port hdr ∧
        StoredBut (barrierByte o) s t dp b (((List.range 32).map fun j => BitVec.ofNat 8 (x.2.toNat / 256 ^ j)).drop skip |>.take m) ∧
        SectorLeaves t op sector u n l sent sg false) ∧
    (∀ since, sent.lookup sector = some since →
      (s.ns < since + 5000000 → exec (.sectorAckTimeout op sector) s = .next s) ∧
      (since + 5000000 ≤ s.ns → ∃ t, exec (.sectorAckTimeout op sector) s = .next t ∧ RegsSame s t ∧ t.mem = s.mem ∧
        SectorLeaves t op sector u n l sent sg true))

/-- R408: a duplicate inside an enabled MIRIN from its source is applied and acknowledged; another is refused and never
acknowledged. -/
def MirrorsApply : Prop :=
  ∀ (s : State) (port va : Nat) (hdr : BitVec 256) (pay : List (BitVec 8 × BitVec 256)) (x : BitVec 8 × BitVec 256),
    OneSector s port hdr pay 7 va x →
    let lo := fld s.mirin 35 0 * 65536
    let may := s.mirin.getLsbD 127 = true ∧ fld hdr 83 72 = fld s.mirin 123 112 ∧ lo ≤ va ∧
      va + 32 ≤ lo + fld s.mirin 99 64 * 65536
    (¬may → ∃ t, exec (.mirrorFlit port hdr pay) s = .next t ∧ t = { s with ports := t.ports } ∧ Accepted s t port hdr) ∧
    (may → fwDenied s .phys va 32 = false → Canonical s → Keyed s va 32 (keyId s 0) → ∃ t, exec (.mirrorFlit port hdr pay) s = .next t ∧
      Accepted s t port hdr ∧ Stored s t .phys va (sectorBytesOf x) ∧
      SentFlit t port (fld hdr 83 72) 4 (fld hdr 211 160) (fld hdr 158 152) [])

/-- A mirrored write has waited 10 ms (R409). -/
def partnerLate (s : State) : Prop := s.mirBroken = false ∧ ∃ m ∈ s.mirrors, m.since + 10000000 ≤ s.ns

/-- R295, R408, R409: a mirrored write whose duplicate was sent is durable once it is acknowledged, unless the partner is
lost; 10 ms without an acknowledgement lose the partner and interrupt the host. R395: a port comes and goes; what was in
flight over one that goes is sent again. -/
def MirrorsAndPorts : Prop :=
  ∀ (s : State),
    (∀ id,
      (s.mirBroken = true ∨ (∀ m ∈ s.mirrors, m.id = id → m.sent = none) → exec (.mirrorAck id) s = .next s) ∧
      (s.mirBroken = false → (∃ m ∈ s.mirrors, m.id = id ∧ m.sent ≠ none) → exec (.mirrorAck id) s = .next { s with
        mirrors := (s.mirrors.filter fun m => decide (m.id ≠ id)).map fun m => { m with since := s.ns } })) ∧
    (partnerLate s → exec .mirrorAckTimeout s = .next { s with
      mirBroken := true, justSet := .broken :: s.justSet, out := s.out ++ [.irq 0] }) ∧
    (¬partnerLate s → exec .mirrorAckTimeout s = .next s) ∧
    ∀ port up, ∃ t, exec (if up then .portUp port else .portDown port) s = .next t ∧
      t = { s with ports := t.ports, mirrors := t.mirrors } ∧
      (t.mirrors = if up then s.mirrors
        else s.mirrors.map fun m => if m.sent = some port then { m with sent := none } else m) ∧
      ∀ k : Nat, t.ports[k]? = if k = port then s.ports[k]?.map (fun p => { p with up := up }) else s.ports[k]?

/-! ### The machine as a whole -/

/-- The field `[hi:lo]` of a fault record (R147 Table 4). -/
def rec (f : Fault256) (hi lo : Nat) : Nat := f.bits.toNat / 2 ^ lo % 2 ^ (hi + 1 - lo)

/-- R147 Table 4: the record `f` of a fault of class, code and space on these lanes of a path. -/
structure RecordOf (f : Fault256) (p : Path) (x : Flt) : Prop where
  addr : rec f 63 0 = x.addr % 2 ^ 64
  pc : rec f 115 64 = p.pc.toNat
  zero116 : rec f 127 116 = 0
  laneMask : rec f 159 128 = x.lanes.toNat
  pathMask : rec f 191 160 = p.lanes.toNat
  cls : rec f 195 192 = x.cls
  code : rec f 203 196 = x.code
  firstLane : rec f 208 204 = lowLane x.lanes
  slot : rec f 215 209 = p.slot
  zero216 : rec f 223 216 = 0
  space : rec f 226 224 = x.space
  write : rec f 227 227 = if x.write then 1 else 0
  asid : rec f 239 228 = p.grid.asid
  zero240 : rec f 255 240 = 0

/-- A fault as the tables of R147 and R148 admit it: fields within their widths, some lane reported. -/
structure FaultOk (p : Path) (x : Flt) : Prop where
  cls : x.cls < 16
  code : x.code < 256
  space : x.space < 8
  slot : p.slot < 128
  asid : p.grid.asid < 4096
  some : x.lanes ≠ 0#32

/-- R148 Table 5 and R154: what follows a record. -/
def r148 (s : State) (g : Grid) (cls code : Nat) : Disposition :=
  match cls with
  | 6 => .host
  | 7 => .hardware
  | 8 => .killPath
  | 10 => if g.lrec.getLsbD 420 = true ∧ accepted s 10 = true then .host else .fatal
  | 11 => if code = 2 then .killPath else .fatal
  | _ => .fatal

/-- R150: the path parks with its record; its registers stay, and its lookahead counts end (R71). -/
structure Parked (s t : State) (p : Path) (x : Flt) (seq : Option (Nat × Word)) : Prop where
  record : ∃ w f, p.warpIn t = some w ∧ w.faults = p.w.faults ++ [f] ∧ RecordOf f p x ∧ f.lanes = p.lanes ∧ f.seq = seq ∧
    w = { p.w with faults := w.faults, th := w.th }
  lanes : ∀ k, p.laneIn t k = if p.lanes.getLsbD k ∧ k < p.w.th.length then
      { p.th k with wait := .parked, owed := ((p.th k).owed.filter fun o => !o.done).map fun o => { o with rem := 0 } }
    else p.th k
  others : ∀ d q n, ¬(d = p.die ∧ q = p.pos ∧ n = p.slot) → (coreAt t d q).warpAt n = (coreAt s d q).warpAt n

/-- What follows R147 to R152 and R324 of a fault of the path: a state in which the conditions that the disposition reads
are those of `s`. -/
structure MayFault (s : State) (p : Path) (x : Flt) : Prop where
  path : pathOf s = some p
  fault : FaultOk p x
  good : x.bad = 0
  room : p.w.faults.length < 8
  free : clusterArmed s p.die (clusterOf p.pos) = false
  dies : p.die < s.dies.length
  fresh : ∀ f ∈ p.w.faults, f.lanes ≠ p.lanes
  alone : ∀ c ∈ s.cores, ∀ w ∈ c.warps, w.uid = p.w.uid → c.die = p.die ∧ c.pos = p.pos ∧ w.slot = p.slot

/-- R150: a path whose instruction would need a ninth record does not issue. -/
def NinthRecordWaits : Prop :=
  ∀ (s : State) (p : Path) (x : Flt), 8 ≤ p.w.faults.length → raise s p x = s

/-- R147, R150, R324: a fault of host disposition parks the path and posts its record under the die's next sequence
number. -/
def HostFaultsPost : Prop :=
  ∀ (s : State) (p : Path) (x : Flt), MayFault s p x → r148 s p.grid x.cls x.code = .host →
    let t := raise s p x
    let d := dieOf s p.die
    Parked s t p x (some (p.die, d.faultSeq)) ∧ (dieOf t p.die).faultSeq = d.faultSeq + 1 ∧
    (x.unit = none → ∀ sp a, readByte t sp a = readByte s sp a) ∧
    ∃ e, (dieOf t p.die).fault.waiting = d.fault.waiting ++ [e] ∧ e.length = 64 ∧
      ofBytes e / 2 ^ 256 % 2 ^ 32 = d.faultSeq.toNat

/-- R150, R151: a class 7 fault parks the path, starts the resolution of every page it needs and posts no record. -/
def ResolvableFaultsMove : Prop :=
  ∀ (s : State) (p : Path) (x : Flt), MayFault s p x → x.cls = 7 →
    let t := raise s p x
    Parked s t p x none ∧ (∀ d, (dieOf t d).fault = (dieOf s d).fault ∧ (dieOf t d).faultSeq = (dieOf s d).faultSeq) ∧
    (x.unit = none → (clusterAt s p.die (clusterOf p.pos)).stopping = none → t.dies = s.dies) ∧ ∀ q ∈ x.pages, ∃ m ∈ t.moves, m.isOn p.grid.asid q.1 = true

/-- R152: a fatal fault posts its record, kills the block of the faulting lane, and ends the grid with cause 2 and a
partial-completion record. -/
def FatalFaultsEnd : Prop :=
  ∀ (s : State) (p : Path) (x : Flt), MayFault s p x → r148 s p.grid x.cls x.code = .fatal →
    p.grid.ended = none → p.grid.complete = false → p.grid.die < s.dies.length →
    let t := raise s p x
    let blk := (p.th (lowLane x.lanes)).blk
    (∃ g, gridAt t p.grid.id = some g ∧ g.ended = some 2) ∧
    (∃ r ∈ (dieOf t p.grid.die).pcrs, r = ⟨p.grid.id, 2, false⟩) ∧
    (∃ e ∈ (dieOf t p.die).fault.waiting, e.length = 64 ∧ ofBytes e / 2 ^ 256 % 2 ^ 32 = (dieOf s p.die).faultSeq.toNat) ∧
    ∀ b, p.grid.block blk = some b → b.st = .placed → b.die = p.die → b.pos = p.pos →
      ∀ w ∈ (coreAt t p.die p.pos).warps, w.grid = p.grid.id → ∀ k, k < 32 → (w.lane k).blk = blk → (w.lane k).life ≠ .live

/-- R152: a fault of the kill path posts its record. -/
def KillPathFaultsPost : Prop :=
  ∀ (s : State) (p : Path) (x : Flt), MayFault s p x → r148 s p.grid x.cls x.code = .killPath →
    ∃ e ∈ (dieOf (raise s p x) p.die).fault.waiting, e.length = 64 ∧
      ofBytes e / 2 ^ 256 % 2 ^ 32 = (dieOf s p.die).faultSeq.toNat

/-! ### Invariants and steps -/

/-- The state in which the agent of a turn acts: the turn is spent, the arrays have begun the k-steps that the last step
made ready (R227), the caches have counted (R385; log 67), and the turn's time has passed. -/
def atTurn (s : State) (x : Turn) (rest : List Turn) : State :=
  tick (cacheTurn (arraysTurn { s with agenda := rest })) x.ns x.cycles

/-- R415: time passes by the turn's nanoseconds and by each die's own core cycles. What the arrays begin changes only
operations, and what the caches count only counters: their bits set in this cycle and their interrupts (R227, R385). -/
def TimePasses : Prop :=
  (∀ (s : State) (ns : Nat) (cycles : List Nat),
    (tick s ns cycles).ns = s.ns + ns ∧
    ∀ d, d < s.dies.length → (dieOf (tick s ns cycles) d).cycles = (dieOf s d).cycles + cycles.getD d 0) ∧
  ∀ s : State,
    arraysTurn s = { s with ops := (arraysTurn s).ops } ∧ ((∀ o ∈ s.ops, o.mma? = none) → arraysTurn s = s) ∧
    cacheTurn s = { s with pmcs := (cacheTurn s).pmcs, fresh := (cacheTurn s).fresh, justSet := (cacheTurn s).justSet,
                           out := (cacheTurn s).out } ∧
    ((∀ sel ∈ (pmcOf s s.activeVf).sel, sel.getLsbD 31 = false) → cacheTurn s = s)

/-- The state in which the path of an issue turn stands before the agent: the choice of the path is spent. -/
def atIssue (s : State) (die pos slot grp : Nat) (pc : BitVec 52) (lanes : BitVec 32) : State :=
  let c : Cur := ⟨die, pos, slot, grp, lanes, 0, 0⟩
  spendPick { s with cur := c } c pc

/-- R169: a word that a fetch at a physical address may return: the current one, the one the program counter's address
held when the grid was launched, or one that a store has written there since. -/
def mayFetch (s : State) (p : Path) (pa kd w : Nat) : Prop :=
  w = ofBytes (agentBytes s .phys pa 4 kd) ∨
  (∃ old, translate (launchView s p.grid) p.grid.asid p.pc.toNat false true none = .ok old ∧
    w = ofBytes (agentBytes (launchView s p.grid) .phys old.pa 4 old.kd)) ∨
  (pa, w) ∈ s.codeLog.drop p.grid.codeFrom

/-- R67, R383: a word whose opcode (and, of `mma` and of opcode 0x3F, whose function) belongs to an instruction that a
feature the driver did not accept refuses. -/
def r383 (s : State) (w : Nat) : Prop :=
  let opc := w / 2 ^ 26
  let sub := w / 2 ^ 20 % 2 ^ 6
  (opc = 0x3A ∨ opc = 0x3B) ∧ accepted s 0 = false ∨ opc = 0x19 ∧ accepted s 1 = false ∨
    (opc = 0x38 ∧ w % 32 ≠ 0) ∧ accepted s 2 = false ∨ (opc = 0x3F ∧ 1 ≤ sub ∧ sub ≤ 3) ∧ accepted s 4 = false

/-- R29, R67, R166, R169, R251: the turn of a path that a decision of this cycle has chosen, with the choice of its fetch,
fetches a word at its program counter and runs the instruction it decodes to, or raises the class 1 fault of the word, of
code 1 before all others (R67, R383); under the choice that R169 leaves,
the word is any of those that the address has held since the grid was launched. An expired watchdog is raised instead. A
path that no decision has chosen runs nothing. -/
def IssueTurns : Prop :=
  ∀ (s : State) (x : Turn) (rest : List Turn) (die pos slot grp : Nat) (pc : BitVec 52) (lanes : BitVec 32) (choice : Nat),
    s.agenda = x :: rest → x.act = .issue die pos slot grp pc lanes choice → die < 4 → pos < 144 →
    let s0 := atTurn s x rest
    let s1 := atIssue s0 die pos slot grp pc lanes
    let chosen := (⟨slot, grp, pc, lanes, (dieOf s0 die).cycles, choice⟩ : Pick) ∈ (coreAt s0 die pos).picks
    let fin := stepSettled die pos
    (¬chosen → step s = .next s0) ∧
    (chosen → pathOf s1 = none → step s = .next (fin s1)) ∧
    ∀ p, chosen → pathOf s1 = some p →
      let expired := p.core.service = true ∧ p.w.wdog = 0#32 ∧ p.w.wdFired = false
      (p.pc ≠ pc → step s = .next (fin s1)) ∧
      (p.pc = pc → expired → step s = .next (fin (watchdogTrap s1 die pos p.w))) ∧
      (p.pc = pc → ¬expired → ∀ tr, translate s1 p.grid.asid pc.toNat false true none = .ok tr →
        tagMismatch s1 .phys tr.pa 4 tr.kd = false →
        let w := fetchWord s1 p.grid pc.toNat tr choice
        mayFetch s1 p tr.pa tr.kd w ∧ (∀ v, mayFetch s1 p tr.pa tr.kd v → ∃ n, fetchWord s1 p.grid pc.toNat tr n = v) ∧
        (∀ i, decodeWord w = .ok i → step s = after fin (exec i s1)) ∧
        ∀ code, decodeWord w = .error code →
          (¬r383 s1 w → step s = .next (fin (raise s1 p (Flt.plain 1 code p.lanes)))) ∧
          (r383 s1 w → step s = .next (fin (raise s1 p (Flt.plain 1 1 p.lanes)))))

/-- R304, R306, R307, R379: a scheduler core's turn runs the custom-0 word at its program counter, traps with mcause 2 on
one that names no instruction, and does nothing once the core has failed or while its die is in its boot ROM. -/
def SchedulerTurns : Prop :=
  ∀ (s : State) (x : Turn) (rest : List Turn) (die core : Nat),
    s.agenda = x :: rest → x.act = .sched die core → die < 4 → core < 5 →
    let s0 := atTurn s x rest
    let s1 := { s0 with cur := { s0.cur with die := die, core := core } }
    let w := ofBytes (readBytes s1 (.cpLocal die) (sc s1).pc.toNat 4)
    ((sc s1).failed = true ∨ (dieOf s1 die).inRom = true → step s = .next s1) ∧
    ((sc s1).failed = false → (dieOf s1 die).inRom = false → w % 128 = 11 →
      (∀ i, decodeX w = .ok i → step s = exec i s1) ∧
      ∀ e, decodeX w = .error e → step s = .next (schedTrap s1 2 (BitVec.ofNat 64 w)))

/-- Turns of the other agents (log 3), and the only fault: a turn that the part does not have. -/
def OtherTurns : Prop :=
  (∀ s : State, s.agenda = [] → step s = .next s) ∧
  ∀ (s : State) (x : Turn) (rest : List Turn), s.agenda = x :: rest →
    (x.act = .idle → step s = .next (atTurn s x rest)) ∧
    (∀ i, x.act = .event i → fetched i = false → step s = exec i (foresee (atTurn s x rest))) ∧
    (foresee s = { s with cores := (foresee s).cores } ∧
      ((∀ c ∈ s.cores, ∀ w ∈ c.warps, w.faults.length < 7) → foresee s = s)) ∧
    (∀ op sector port, x.act = .transmit op sector port → step s = .next (transmit (atTurn s x rest) op sector port)) ∧
    (∀ op tag recv part, x.act = .ahead op tag recv part → step s = .next (ahead (atTurn s x rest) op tag recv part)) ∧
    (∀ die n, x.act = .freeJournal die n → step s = .next (freeJournal (atTurn s x rest) die n)) ∧
    (∀ die on, x.act = .recovery die on → step s = .next (dieRecovery (atTurn s x rest) die on)) ∧
    (∀ fn bar offset, x.act = .hostRead fn bar offset → step s = .next (hostRead (atTurn s x rest) fn bar offset)) ∧
    (∀ f, step s = .fault f ↔ f = .noSuchTurn ∧
      ((∃ i, x.act = .event i ∧ fetched i = true) ∨
       (∃ die pos slot grp pc lanes choice, x.act = .issue die pos slot grp pc lanes choice ∧ ¬(die < 4 ∧ pos < 144)) ∨
       ∃ die core, x.act = .sched die core ∧ ¬(die < 4 ∧ core < 5)))

/-- R142: the state in which a store with `.inplace` faults: the idempotent bit of its warp is cleared. -/
def r142 (i : Instr) (s : State) (p : Path) : State :=
  let inplace := match i with
    | .stg _ _ _ j _ _ => j = 1#1
    | .sts _ _ _ j _ _ => j = 1#1
    | .sth _ _ _ j _ _ => j = 1#1
    | _ => false
  if inplace && p.any && decide (p.w.faults.length < 8) then p.share s fun h => { h with idem := false } else s

/-- The checks that every thread instruction passes before its own effect, in the order of R68. -/
def ChecksInOrder : Prop :=
  ∀ (i : Instr) (s : State), isThread i = true →
    (pathOf s = none → exec i s = .next s) ∧
    ∀ p, pathOf s = some p →
      (featureIllegal s i = true → exec i s = .next (raise s p (Flt.plain 1 1 p.lanes))) ∧
      (featureIllegal s i = false → wellFormed i = false → exec i s = .next (raise s p (Flt.plain 1 3 p.lanes))) ∧
      (wellFormed i = true → featureIllegal s i = false → ∀ out : BitVec 32,
        (∀ k, k < 32 → out.getLsbD k = ((activeLanes i p).getLsbD k && !(inRange i (p.th k)))) →
        (out ≠ 0#32 → exec i s = .next (raise (r142 i s p) p (Flt.plain 2 1 out))) ∧
        (out = 0#32 →
          ((p.w.restoring ≠ [] ∨ ∃ k, (activeLanes i p).getLsbD k = true ∧ interlocked i (p.th k) = true) →
            exec i s = .next s) ∧
          (p.w.restoring = [] → (∀ k, (activeLanes i p).getLsbD k = true → interlocked i (p.th k) = false) →
            ∀ (bad : BitVec 32),
            (∀ k, k < 32 → bad.getLsbD k = ((activeLanes i p).getLsbD k && decide (violation i (p.th k) ≠ 0))) →
            (∀ c k, bad.getLsbD k = true → violation i (p.th k) = c →
              (∀ j, bad.getLsbD j = true → c ≤ violation i (p.th j)) →
                exec i s = .next (raise (r142 i s p) p (Flt.plain 3 c bad))) ∧
            (bad = 0#32 → waits i s p = true → exec i s = .next s))))

/-- Once the firmware range is locked, the heap of keys, features and integrity tags fixed, only a package reset
changes them (R356, R377, R382, R383, R391). -/
def TrustHolds : Prop :=
  ∀ (s t : State), step s = .next t → (∀ x ∈ s.agenda.head?, x.act ≠ .event .packageReset) →
    (s.fwlock = true → t.fwlock = true ∧ t.fwrange = s.fwrange) ∧
    (s.launched = true → t.launched = true ∧ t.memcfg = s.memcfg ∧ t.fabnode = s.fabnode) ∧
    (∀ k : Nat, s.featWritten[k]? = some true → t.featWritten[k]? = some true ∧ t.featacc[k]? = s.featacc[k]?) ∧
    (s.keypolLocked = true → t.keypolLocked = true ∧ t.keypol.getLsbD 31 = s.keypol.getLsbD 31) ∧
    ((∀ x ∈ s.agenda.head?, ∀ kd key ack, x.act ≠ .event (.keyrel kd key ack)) → t.keys = s.keys) ∧
    t.fuseDigest = s.fuseDigest ∧ t.fuseSvn = s.fuseSvn ∧ t.form = s.form

end Rules

end Sys2Proof

open Sys2Proof Sys2Proof.Machine

/-! ## Integer, predicate and uniform instructions -/

/-- R83, R81: the two-register integer operations of every active lane, modulo 2^32, and their frame. -/
def Sys2Proof.Claim.TwoRegisterInteger : Prop :=
  ∀ (i : Instr) (fn : Nat) (d a b : BitVec 7), Rules.row83 i = some (fn, d, a, b) →
    ∀ (s : State) (p : Path), Ready i s p →
      Completes i s p (fun k t => t.setReg d.toNat (Rules.word (Rules.r83 fn (p.v k a) (p.v k b)))) p.w.sh

/-- R82, R83, R87, R90, R97: the uniform instructions write one `s` register once, when the path has an active lane. -/
def Sys2Proof.Claim.UniformInteger : Prop :=
  (∀ (i : Instr) (fn : Nat) (d a b : BitVec 7), Rules.row83u i = some (fn, d, a, b) →
    ∀ (s : State) (p : Path), Ready i s p →
      Completes i s p (fun _ t => t)
        (p.withUni d.toNat (Rules.word (Rules.r83 fn (p.w.old.s.getD a.toNat 0) (p.w.old.s.getD b.toNat 0))))) ∧
  (∀ (d a : BitVec 7) (n : BitVec 12) (s : State) (p : Path), Ready (.uaddi d a n) s p →
      Completes (.uaddi d a n) s p (fun _ t => t)
        (p.withUni d.toNat (Rules.word (Rules.r83 1 (p.w.old.s.getD a.toNat 0) (Rules.word n.toInt))))) ∧
  (∀ (d : BitVec 7) (n : BitVec 19) (s : State) (p : Path), Ready (.umovi d n) s p →
      Completes (.umovi d n) s p (fun _ t => t) (p.withUni d.toNat (Rules.word n.toInt))) ∧
  (∀ (d a : BitVec 7) (s : State) (p : Path), Ready (.rdfirst d a) s p →
      Completes (.rdfirst d a) s p (fun _ t => t) (p.withUni d.toNat (p.v (lowLane p.act) a)))

/-- R84: multiply, dot products, bit counting and absolute value. -/
def Sys2Proof.Claim.MultiplyAndCount : Prop :=
  ∀ (i : Instr) (d : BitVec 7) (f : Path → Nat → Int), Rules.row84 i = some (d, f) →
    ∀ (s : State) (p : Path), Ready i s p →
      Completes i s p (fun k t => t.setReg d.toNat (Rules.word (f p k))) p.w.sh

/-- R85: `lea` and `leas` write the pair d with (base + idx × 2^k) mod 2^64. -/
def Sys2Proof.Claim.AddressArithmetic : Prop :=
  ∀ (d a b : BitVec 7) (n : BitVec 3) (signed : Bool) (s : State) (p : Path),
    let i : Instr := if signed then .leas d a b n else .lea d a b n
    Ready i s p →
      let x := fun k : Nat => (((p.v k a).toNat + 2 ^ 32 * ((p.th k).reg (a.toNat + 1)).toNat : Nat) +
        (if signed then (p.v k b).toInt else ((p.v k b).toNat : Int)) * 2 ^ n.toNat) % 2 ^ 64
      Completes i s p (fun k t => (t.setReg d.toNat (Rules.word (x k))).setReg (d.toNat + 1)
        (Rules.word (x k / 2 ^ 32))) p.w.sh

/-- R86: the carry chains: the predicate is both the carry in and the carry out, a borrow for `subc`. -/
def Sys2Proof.Claim.CarryChain : Prop :=
  (∀ (d a b : BitVec 7) (q : BitVec 4) (s : State) (p : Path), Ready (.addc d a b q) s p →
    let x := fun k : Nat => (p.v k a).toNat + (p.v k b).toNat + (if p.pr k q.toNat then 1 else 0)
    Completes (.addc d a b q) s p (fun k t => (t.setReg d.toNat (Rules.word (x k))).setPred q.toNat (2 ^ 32 ≤ x k))
      p.w.sh) ∧
  (∀ (d a b : BitVec 7) (q : BitVec 4) (s : State) (p : Path), Ready (.subc d a b q) s p →
    let x := fun k : Nat => ((p.v k a).toNat : Int) - (p.v k b).toNat - (if p.pr k q.toNat then 1 else 0)
    Completes (.subc d a b q) s p (fun k t => (t.setReg d.toNat (Rules.word (x k))).setPred q.toNat (x k < 0))
      p.w.sh)

/-- R87 to R90: the immediate forms. -/
def Sys2Proof.Claim.ImmediateForms : Prop :=
  ∀ (i : Instr) (d : BitVec 7) (f : Path → Nat → Int), Rules.rowImm i = some (d, f) →
    ∀ (s : State) (p : Path), Ready i s p →
      Completes i s p (fun k t => t.setReg d.toNat (Rules.word (f p k))) p.w.sh

/-- R94, R95: comparisons and predicate logic write one predicate of every active lane. -/
def Sys2Proof.Claim.PredicateResults : Prop :=
  ∀ (i : Instr) (d : BitVec 7) (f : Path → Nat → Prop), Rules.rowPred i = some (d, f) →
    ∀ (s : State) (p : Path), Ready i s p → ∀ r : Nat → Bool, (∀ k, r k = true ↔ f p k) →
      Completes i s p (fun k t => t.setPred d.toNat (r k)) p.w.sh

/-- R96, R97: select and broadcast. -/
def Sys2Proof.Claim.SelectAndBroadcast : Prop :=
  ∀ (i : Instr) (d : BitVec 7) (f : Path → Nat → Word), Rules.rowSel i = some (d, f) →
    ∀ (s : State) (p : Path), Ready i s p → Completes i s p (fun k t => t.setReg d.toNat (f p k)) p.w.sh

/-! ## Floating point, conversion and the activation table -/

/-- R112 to R120, R128: the result of every active lane and the lanes' flags, joined into `fl` by R18 and R110. -/
def Sys2Proof.Claim.FloatResultsAndFlags : Prop :=
  ∀ (i : Instr) (d : BitVec 7) (f : Path → Nat → Word × Fl), Rules.rowFloat i = some (d, f) →
    ∀ (s : State) (p : Path), Ready i s p →
      Completes i s p (fun k t => t.setReg d.toNat (f p k).1) (p.withFlags (orFlags ((laneList p.act).map fun k => (f p k).2)))

/-- R116, R117: FP32 comparison into a predicate, and the class mask; `fclass` sets no flag. -/
def Sys2Proof.Claim.CompareAndClassify : Prop :=
  (∀ (q a b : BitVec 7) (c : BitVec 4) (s : State) (p : Path), Ready (.fcmp q a b c) s p →
    let r := fun k : Nat => Rules.r116 c.toNat (fp32.decode (p.v k a).toNat) (fp32.decode (p.v k b).toNat)
    Completes (.fcmp q a b c) s p (fun k t => t.setPred q.toNat (r k).1)
      (p.withFlags (orFlags ((laneList p.act).map fun k => if (r k).2 then flInvalid else 0)))) ∧
  (∀ (d a : BitVec 7) (s : State) (p : Path), Ready (.fclass d a) s p →
    Completes (.fclass d a) s p (fun k t => t.setReg d.toNat (Rules.word (2 ^ Rules.r117 (p.v k a).toNat : Nat))) p.w.sh)

/-- R120 Table 6: the special inputs of the special functions give exactly the results and flags of the table: zeros,
infinities and 1, every negative finite input of `rsqrt`, `sqrt` and `log2`, and every NaN. -/
def Sys2Proof.Claim.SpecialInputs : Prop :=
  (∀ x ∈ Rules.r120, ∀ y ∈ x.2.zip Rules.specials, ∀ r, y.1 = some r → y.2 (fp32.decode x.1) = r) ∧
  (∀ f ∈ [rsqrtF, sqrtF, log2F], ∀ (m : Nat) (e : Int), m ≠ 0 → f (.fin true m e) = (0x7FC00000, flInvalid)) ∧
  ∀ f ∈ Rules.specials, ∀ signalling : Bool, f (.nan signalling) = (0x7FC00000, if signalling then flInvalid else 0)

/-- R45 to R47: a finite value that a format holds rounds to its own code in every rounding mode, and sets no flag. -/
def Sys2Proof.Claim.ExactValuesRoundToThemselves : Prop :=
  ∀ f ∈ [fp32, bf16, fp16, f8e4, f8e5], ∀ (rm x : Nat) (neg : Bool) (m : Nat) (e : Int),
    x < 2 ^ (1 + f.ew + f.t) → f.decode x = .fin neg m e → roundNum f rm false (f.decode x) = (x, 0)

/-- R110, R111: `flrd` reads the flags as they stood at the start of the cycle into every active lane; `flclr` clears
the flags of its mask, once for a path with an active lane, and a bit set in the same cycle stays set. -/
def Sys2Proof.Claim.FlagRegister : Prop :=
  (∀ (d : BitVec 7) (s : State) (p : Path), Ready (.flrd d) s p →
    Completes (.flrd d) s p (fun _ t => t.setReg d.toNat (p.w.old.fl.zeroExtend 32)) p.w.sh) ∧
  (∀ (m : BitVec 7) (s : State) (p : Path), Ready (.flclr m) s p → p.any = true →
    ∃ t w, exec (.flclr m) s = .next t ∧ Untouched s t ∧ Around s t p ∧ p.warpIn t = some w ∧
      (∀ k, (w.lane k).Alike (p.th k)) ∧
      w.sh = { p.w.sh with loops := w.sh.loops,
                           fl := (p.w.old.fl &&& ~~~(p.w.flClr ||| m.extractLsb' 0 6)) ||| p.w.flSet }) ∧
  (∀ (m : BitVec 7) (s : State) (p : Path), Ready (.flclr m) s p → p.any = false →
    Completes (.flclr m) s p (fun _ t => t) p.w.sh)

/-- R122, R123, R125 to R127: with the table grant, `sfe` and `sfe2` evaluate the bank that is active in the cycle;
`sfe2` rounds each element to BF16. Without the grant they raise class 9 code 1. -/
def Sys2Proof.Claim.ActivationTable : Prop :=
  (∀ (d a : BitVec 7) (two : Bool) (s : State) (p : Path),
    let i : Instr := if two then .sfe2 d a else .sfe d a
    Ready i s p → p.any = true → p.kernel.tbl = true →
    let sp := bankSpace p.die p.pos (p.core.bankIn (dieOf s p.die).cycles)
    let one := fun x : Nat => sfeF s sp (fp32.decode x)
    let half := fun x : Nat => let r := sfeF s sp (bf16.decode x)
                               let q := roundNum bf16 0 false (fp32.decode r.1)
                               (q.1, r.2 ||| q.2)
    let r := fun k : Nat => if two then Rules.double fun j => half (Rules.elem (p.v k a) j)
                            else Rules.single (one (p.v k a).toNat)
    Completes i s p (fun k t => t.setReg d.toNat (r k).1) (p.withFlags (orFlags ((laneList p.act).map fun k => (r k).2)))) ∧
  (∀ (d a : BitVec 7) (two : Bool) (s : State) (p : Path),
    let i : Instr := if two then .sfe2 d a else .sfe d a
    Ready i s p → p.any = true → p.kernel.tbl = false → exec i s = .next (raise s p (Flt.plain 9 1 p.act)))

/-! ## Control -/

/-- R98, R99: a branch or call whose target lies in the address space moves the taking lanes there and the others to the
next word; `call` writes the link pair of the taking lanes. A target outside raises class 4 code 2 in the taking
lanes, with the target as the record's address (R149; the record's space is log 18's choice). -/
def Sys2Proof.Claim.BranchAndCall : Prop :=
  ∀ (c : BitVec 4) (o : BitVec 22) (isCall : Bool) (s : State) (p : Path),
    let i : Instr := if isCall then .call c o else .bra c o
    let tgt : Int := p.pc.toNat + 4 * o.toInt
    let m := Rules.takes p c.toNat
    Ready i s p →
      ((∀ k, m k = false) ∨ (0 ≤ tgt ∧ tgt < 2 ^ 52) →
        ∃ t, exec i s = .next t ∧ Untouched s t ∧ Around s t p ∧
          WarpBecomes t p (fun k => if isCall && m k then Rules.linked p (p.th k) else p.th k) p.w.sh ∧
          Rules.Goes t p m fun _ => BitVec.ofInt 52 tgt) ∧
      (∀ j, m j = true → (tgt < 0 ∨ 2 ^ 52 ≤ tgt) →
        exec i s = .next (raise s p { Flt.plain 4 2 (maskOf ((List.range 32).filter m)) with
          space := 4, addr := (tgt % 2 ^ 64).toNat }))

/-- R101: `jmp`, `callr` and `ret` move every active lane to the address in its pair, read before the link is written; a
target that is no multiple of 4, or at or above 2^52, raises class 4, code 1 ahead of code 2, with the target of the
lowest such lane as the record's address (R149; the record's space is log 18's choice). -/
def Sys2Proof.Claim.RegisterTransfer : Prop :=
  ∀ (i : Instr) (n : Nat) (link : Bool), Rules.targetOf i = some (n, link) → ∀ (s : State) (p : Path), Ready i s p →
    let tgt := fun k => ((p.th k).pair n).toNat
    let odd := fun k => p.act.getLsbD k && tgt k % 4 ≠ 0
    let bad := fun k => p.act.getLsbD k && (tgt k % 4 ≠ 0 || 2 ^ 52 ≤ tgt k)
    ((∀ k, bad k = false) →
      ∃ t, exec i s = .next t ∧ Untouched s t ∧ Around s t p ∧
        WarpBecomes t p (fun k => if link && p.act.getLsbD k then Rules.linked p (p.th k) else p.th k) p.w.sh ∧
        Rules.Goes t p p.act.getLsbD fun k => BitVec.ofNat 52 (tgt k)) ∧
    (∀ j, bad j = true →
      let m := maskOf ((List.range 32).filter bad)
      exec i s = .next (raise s p { Flt.plain 4 (if (List.range 32).any odd then 1 else 2) m with
        space := 4, addr := tgt (lowLane m) }))

/-- R72, R417: a guard starts its window in every thread of the path, with the sense of its form. -/
def Sys2Proof.Claim.GuardWindow : Prop :=
  ∀ (q n : BitVec 7) (negated : Bool) (s : State) (p : Path),
    let i : Instr := if negated then .guardN q n else .guard q n
    Ready i s p →
      ∃ t, exec i s = .next t ∧ Untouched s t ∧ Around s t p ∧
        WarpBecomes t p (fun k => if p.lanes.getLsbD k
          then { p.th k with guardEn := p.pr k q.toNat != negated } else p.th k) p.w.sh ∧
        ∀ k, p.lanes.getLsbD k = true → (p.laneIn t k).guardN = n.extractLsb' 0 4

/-- R102: after `exit` no active lane runs any more; a path without an active lane only goes on. -/
def Sys2Proof.Claim.ExitEndsThreads : Prop :=
  ∀ (s : State) (p : Path), Ready .exit s p →
    (p.any = true → ∃ t, exec .exit s = .next t ∧ t.mem = s.mem ∧
      ∀ w, p.warpIn t = some w → w.uid = p.w.uid → ∀ k, p.act.getLsbD k = true → (w.lane k).running = false) ∧
    (p.any = false → Completes .exit s p (fun _ t => t) p.w.sh)

/-- R33, R103: `fuse` on a warp without sprigs only goes on, and so does a path whose lanes a guard disables; on a warp
with sprigs the active lanes wait at it while some group with a thread has none waiting there; no hold at another
address is due. -/
def Sys2Proof.Claim.FuseHolds : Prop :=
  ∀ (s : State) (p : Path), Ready .fuse s p →
    ((p.w.sprigs = 0#8 ∨ p.any = false) → Completes .fuse s p (fun _ t => t) p.w.sh) ∧
    (p.w.sprigs ≠ 0#8 → p.any = true → ∀ j, j < 32 → p.act.getLsbD j = false → (p.th j).running = true →
      (∀ k, k < 32 → p.w.groupOf k = p.w.groupOf j → p.act.getLsbD k = false ∧ p.w.fusing p.pc k = false) →
      (∀ a m, a ≠ p.pc → p.w.fusing a m = true → ∃ i, i < 32 ∧ (p.th i).running = true ∧
        ∀ k, k < 32 → p.w.groupOf k = p.w.groupOf i → p.w.fusing a k = false) →
      ∃ t c, exec .fuse s = .next t ∧ Untouched s t ∧ Around s t p ∧
        ∀ k, p.act.getLsbD k = true → (p.laneIn t k).wait = .fuse c ∧ (p.laneIn t k).pc = p.pc)

/-- R104, R154: `trap` raises the user trap, class 10 with its code, in every active lane; without one it only goes on. -/
def Sys2Proof.Claim.UserTrap : Prop :=
  ∀ (c : BitVec 7) (s : State) (p : Path), Ready (.trap c) s p →
    (p.any = true → exec (.trap c) s = .next (raise s p (Flt.plain 10 c.toNat p.act))) ∧
    (p.any = false → Completes (.trap c) s p (fun _ t => t) p.w.sh)

/-- R22, R194: `loop` with a count of 0 moves the active lanes past the body; with another count it makes the level
active with that count, its body and its members. Its checks read the levels as they stood when the cycle began. -/
def Sys2Proof.Claim.LoopEntry : Prop :=
  ∀ (d a b : BitVec 7) (long : Bool) (s : State) (p : Path),
    let i : Instr := if long then .loopLong d a b else .loop d a b
    let len := b.toNat + if long then 129 else 1
    let last := p.pc.toNat + 4 * len
    let free : Loop := ⟨false, 0, 0, 0, 0, 0⟩
    Ready i s p → p.any = true → p.w.sh.loops.length = 3 → (p.w.old.loops.getD d.toNat free).active = false →
    (∀ m ∈ p.w.sh.loops ++ p.w.old.loops, m.active = true → m.first ≤ p.pc.toNat + 4 ∧ last ≤ m.last) →
      ∃ t, exec i s = .next t ∧ Untouched s t ∧ Around s t p ∧ WarpBecomes t p p.th p.w.sh ∧
        (p.v p.l0 a = 0#32 → Rules.Goes t p p.act.getLsbD fun _ => BitVec.ofNat 52 (last + 4)) ∧
        (p.v p.l0 a ≠ 0#32 → ∃ order,
          (p.sharedIn t).loops.getD d.toNat free = ⟨true, p.v p.l0 a, p.pc.toNat + 4, last, p.act, order⟩ ∧
          ∀ k, p.act.getLsbD k = true → (p.laneIn t k).pc = p.pc + 4)

/-- R195: when the last members of the one active level issue its last word, the count falls by one; while it is not
zero they run the body again, and at zero they go on and the level ends. -/
def Sys2Proof.Claim.LoopAgain : Prop :=
  ∀ (s : State) (p : Path) (n : Nat) (l : Loop), Ready .nop s p → n < 3 → p.w.sh.loops[n]? = some l → l.active = true →
    (∀ m j, p.w.sh.loops[m]? = some j → m ≠ n → j.active = false) → l.members = p.lanes → l.last = p.pc.toNat →
    p.pc.toNat + 4 < 2 ^ 52 →
      ∃ t l', exec .nop s = .next t ∧ (p.sharedIn t).loops[n]? = some l' ∧ l'.lc = l.lc - 1 ∧
        ∀ k, p.lanes.getLsbD k = true → (p.laneIn t k).wait = .none ∧
          if l.lc - 1 ≠ 0#32 then l'.active = true ∧ (p.laneIn t k).pc = BitVec.ofNat 52 l.first
          else l'.active = false ∧ (p.laneIn t k).pc = p.pc + 4

/-- R22, R196: `brk` moves the active lanes past the body of an active level of which they are members, the outermost active
one, and takes them out of it and of the levels entered after it; it reads the level as it stood when the cycle
began. -/
def Sys2Proof.Claim.LoopBreak : Prop :=
  ∀ (d : BitVec 7) (s : State) (p : Path) (l : Loop), Ready (.brk d) s p → p.any = true →
    p.w.old.loops[d.toNat]? = some l → l.active = true → (∀ k, p.act.getLsbD k = true → l.members.getLsbD k = true) →
    (∀ j ∈ p.w.sh.loops, j.active = true → l.order ≤ j.order) →
      ∃ t, exec (.brk d) s = .next t ∧ Untouched s t ∧ Around s t p ∧ WarpBecomes t p p.th p.w.sh ∧
        (∀ (m : Nat) (j : Loop), p.w.sh.loops[m]? = some j → j.active = true →
          ∃ j' : Loop, (p.sharedIn t).loops[m]? = some j' ∧ j'.members = j.members &&& ~~~p.act) ∧
        ∀ k, p.act.getLsbD k = true → (p.laneIn t k).pc = BitVec.ofNat 52 (l.last + 4)

/-- R105, R107: `wbase` sets the base of the active lanes when 16 × n is inside every allocation, and ends their
lookahead counts; else class 2 code 2. `nop` only goes on. -/
def Sys2Proof.Claim.WindowBase : Prop :=
  (∀ (n : BitVec 7) (s : State) (p : Path), Ready (.wbase n) s p →
    let bad := fun k => p.act.getLsbD k && decide ((p.th k).v.length ≤ 16 * n.toNat)
    ((∀ k, bad k = false) →
      Completes (.wbase n) s p (fun _ t => { t with wb := n.extractLsb' 0 4, owed := [] }) p.w.sh) ∧
    (∀ j, bad j = true → exec (.wbase n) s = .next (raise s p (Flt.plain 2 2 (maskOf ((List.range 32).filter bad)))))) ∧
  (∀ (s : State) (p : Path), Ready .nop s p → Completes .nop s p (fun _ t => t) p.w.sh)

/-- R24, R25, R106: `movs` writes the system value of its selector, by the table of R24, into every active lane; the two
low clock halves also latch their high halves. The sprig of a quad has its number, below 8. -/
def Sys2Proof.Claim.SystemValues : Prop :=
  ∀ (d m : BitVec 7) (s : State) (p : Path), Ready (.movs d m) s p →
    Completes (.movs d m) s p (fun k t =>
      let t := t.setReg d.toNat (Rules.r24 s p k m.toNat)
      if m = 22#7 then { t with clkHi := BitVec.ofNat 32 ((dieOf s p.die).cycles / 2 ^ 32) }
      else if m = 24#7 then { t with nsHi := BitVec.ofNat 32 (s.ns / 2 ^ 32) }
      else t) p.w.sh

/-! ## Exchanges between lanes, per-warp state, fences -/

/-- R216 to R218: the exchanges, scans and folds over the active lanes; `pall` and `pany` write a predicate. -/
def Sys2Proof.Claim.LaneExchanges : Prop :=
  (∀ (i : Instr) (d : BitVec 7) (f : Path → Nat → Word), Rules.rowLane i = some (d, f) →
    ∀ (s : State) (p : Path), Ready i s p → Completes i s p (fun k t => t.setReg d.toNat (f p k)) p.w.sh) ∧
  (∀ (d a : BitVec 7) (all : Bool) (s : State) (p : Path),
    let i : Instr := if all then .pall d a else .pany d a
    let l := (Rules.lanesOf p fun _ => true).map fun j => p.pr j a.toNat
    Ready i s p → Completes i s p (fun _ t => t.setPred d.toNat (if all then !l.contains false else l.contains true)) p.w.sh)

/-- R199, R201, R222: `idem`, `idemx` and `lxext` write per-warp state once for a path with an active lane; `lxbase`
writes the low 52 bits, or raises class 5 code 2; `gkrd` reads the gang register. -/
def Sys2Proof.Claim.WarpRegisters : Prop :=
  (∀ (i : Instr) (f : Path → Shared), Rules.rowShared i = some f → ∀ (s : State) (p : Path), Ready i s p →
    Completes i s p (fun _ t => t) (Rules.whenAny p (f p))) ∧
  (∀ (d a : BitVec 7) (s : State) (p : Path), Ready (.lxbase d a) s p →
    let v := ((p.th p.l0).pair a.toNat).toNat
    (v < 2 ^ 52 → Completes (.lxbase d a) s p (fun _ t => t) (Rules.whenAny p { p.w.sh with
      lx := updAt d.toNat (fun x => BitVec.ofNat 192 (x.toNat / 2 ^ 52 * 2 ^ 52 + v)) p.w.sh.lx })) ∧
    (p.any = true → 2 ^ 52 ≤ v →
      exec (.lxbase d a) s = .next (raise s p { Flt.plain 5 2 p.act with space := 0, addr := v }))) ∧
  (∀ (d : BitVec 7) (s : State) (p : Path), Ready (.gkrd d) s p →
    Completes (.gkrd d) s p (fun _ t => t.setPair d.toNat p.w.old.gk) p.w.sh)

/-- R200: `yield` counts the warp as selected in this cycle; in service mode it loads the watchdog with
max(deadline, 1) × 1,024. -/
def Sys2Proof.Claim.YieldLoadsWatchdog : Prop :=
  ∀ (n : BitVec 12) (s : State) (p : Path), Ready (.yield n) s p →
    ∃ t w, exec (.yield n) s = .next t ∧ Untouched s t ∧ Around s t p ∧ p.warpIn t = some w ∧
      (∀ k, (w.lane k).Alike (p.th k)) ∧
      w = { p.w with
        th := w.th, sh := { p.w.sh with loops := w.sh.loops },
        lastSel := if p.any then p.core.sel else p.w.lastSel,
        wdog := if p.any && p.core.service then BitVec.ofNat 32 (max n.toNat 1 * 1024) else p.w.wdog }

/-- R222: `gkset` with 0, or with 2 to 6 members among which the warp is one and all of which its block has, writes the
gang register while no member waits at a rendezvous with it; another value raises class 9 code 32. -/
def Sys2Proof.Claim.GangRegister : Prop :=
  ∀ (a : BitVec 7) (s : State) (p : Path), Ready (.gkset a) s p → p.any = true →
    let v := (p.th p.l0).pair a.toNat
    let members := (List.range 64).filter fun i => v.getLsbD i
    let good : Prop := v = 0#64 ∨ (2 ≤ members.length ∧ members.length ≤ 6 ∧
      (∀ i ∈ members, i < p.grid.warpsPerBlock) ∧ ∃ i ∈ members, p.w.widx = some i)
    (good → (∀ w ∈ (coreAt s p.die p.pos).warps, w.latch = none) →
      Completes (.gkset a) s p (fun _ t => t) { p.w.sh with gk := v }) ∧
    (¬ good → exec (.gkset a) s = .next (raise s p (Flt.plain 9 32 p.act)))

/-- R296: a fence advances the warp's counter and writes the token, counter and kinds, to S[d]; it changes no
operation but the fence that first covers it. -/
def Sys2Proof.Claim.FenceTokens : Prop :=
  ∀ (i : Instr) (kinds : Nat) (d : BitVec 7), Rules.fenceKinds i = some (kinds, d) →
    ∀ (s : State) (p : Path), Ready i s p → p.any = true →
      let c := p.w.sh.fence + 1
      ∃ t, exec i s = .next t ∧ Untouched s { t with ops := s.ops } ∧ Around s t p ∧
        t.ops.map (fun o => { o with cov := 0 }) = s.ops.map (fun o => { o with cov := 0 }) ∧
        WarpBecomes t p p.th
          { p.w.sh with fence := c, s := p.w.sh.s.set d.toNat (BitVec.ofNat 32 (c.toNat * 256 + kinds)) }

/-- R298, R301: `fwait` and `waitc` change nothing once their wait is over; a token with a bit of 7:3 set or without a
kind raises class 9 code 37. -/
def Sys2Proof.Claim.FenceWaits : Prop :=
  (∀ (n : BitVec 6) (s : State) (p : Path), Ready (.waitcLd n) s p →
    Completes (.waitcLd n) s p (fun _ t => t) p.w.sh ∧ (p.any = true → p.w.ldcnt.toNat ≤ n.toNat)) ∧
  (∀ (n : BitVec 6) (s : State) (p : Path), Ready (.waitcSt n) s p →
    Completes (.waitcSt n) s p (fun _ t => t) p.w.sh ∧ (p.any = true → p.w.stcnt.toNat ≤ n.toNat)) ∧
  (∀ (a : BitVec 7) (s : State) (p : Path), Ready (.fwait a) s p →
    let tok := (p.w.old.s.getD a.toNat 0).toNat
    let bad : Prop := tok / 8 % 32 ≠ 0 ∨ tok % 8 = 0
    ((p.any = false ∨ (¬ bad ∧ s.mirBroken = false)) → Completes (.fwait a) s p (fun _ t => t) p.w.sh) ∧
    (p.any = true → bad → exec (.fwait a) s = .next (raise s p (Flt.plain 9 37 p.act))))

/-! ## Long-latency instructions and accesses -/

/-- R91 to R93, R69: a divide starts an operation that holds the result of every active lane, which the lane owes; its
registers are as they were. A path without an active lane only goes on. -/
def Sys2Proof.Claim.DivideStarts : Prop :=
  ∀ (i : Instr) (signed rem : Bool) (la : BitVec 4) (d a b : BitVec 7),
    Rules.rowDiv i = some (signed, rem, la, d, a, b) → ∀ (s : State) (p : Path), Ready i s p →
    (p.any = false → Completes i s p (fun _ t => t) p.w.sh) ∧
    (p.any = true → ∃ t o res, exec i s = .next t ∧ Rules.Launched s t p o ∧ o.kind = .divide res ∧
      ∀ k l, p.act.getLsbD k = true → fieldLoc (p.th k).wb.toNat d.toNat = some l →
        (k, l, Rules.word (if signed then Rules.r91 rem (p.v k a).toInt (p.v k b).toInt
          else Rules.r91 rem (p.v k a).toNat (p.v k b).toNat)) ∈ res ∧
        ⟨o.id, la.toNat, false, [l], []⟩ ∈ (p.laneIn t k).owed)

/-- R92, R93: the results of a divide reach the lanes that still owe them, and nothing else changes but the operation's
end; no flag is set. -/
def Sys2Proof.Claim.DivideResultWrites : Prop :=
  (∀ (s : State) (op : Nat) (o : Op) (res : List (Nat × Loc × Word)), opAt s op = some o → o.kind = .divide res →
    (res.map (·.1)).Nodup →
    ∃ t, exec (.divideResult op) s = .next t ∧ t.ops = s.ops.filter (fun x => x.id ≠ op) ∧
      t = { s with cores := t.cores, ops := t.ops } ∧
      (Rules.Received s t o.uid fun k th => match res.lookup k with
        | some (l, x) => th.receive op [(l, x)]
        | none => th) ∧
      ∀ d q n w, (coreAt s d q).warpAt n = some w → ∃ w', (coreAt t d q).warpAt n = some w' ∧ w'.sh = w.sh) ∧
  (∀ (th : Thread) (op : Nat) (l : Loc) (x : Word), (th.owed.any fun e => e.op = op && !e.done) = true →
    (match l with | .v i => i < th.v.length | .g i => i < th.g.length) → (th.receive op [(l, x)]).get l = x)

/-- R134 to R144, R270 to R273: a load, store or atomic all of whose lanes pass their checks starts one operation with
one access for each active lane, to the checked target, with the data of its registers; it counts in ldcnt or stcnt, and
`.inplace` clears the idempotent bit. -/
def Sys2Proof.Claim.AccessStarts : Prop :=
  ∀ (i : Instr) (f : Rules.AccessForm), Rules.rowAccess i = some f → ∀ (s : State) (p : Path), Ready i s p →
    (p.any = false → Completes i s p (fun _ t => t) p.w.sh) ∧
    (p.any = true → ∀ tg : Nat → Target,
      (∀ k, p.act.getLsbD k = true → checkLane s p f.sp f.write f.size k (f.ea p k) = .ok (tg k)) →
      ∃ t o accs w, exec i s = .next t ∧ Rules.Launched s t p o ∧ o.kind = .access f.load accs ∧ o.lanes = p.act ∧
        p.warpIn t = some w ∧ w.sh.idem = (p.w.sh.idem && !f.inplace) ∧
        w.ldcnt = p.w.ldcnt + (if f.load then 1 else 0) ∧ w.stcnt = p.w.stcnt + (if f.load then 0 else 1) ∧
        accs.map (·.lane) = laneList p.act ∧
        ∀ x ∈ accs, x.kind = f.kind ∧ x.sp = (tg x.lane).sp ∧ x.addr = (tg x.lane).addr ∧ x.gen = (tg x.lane).gen ∧
          x.va = f.ea p x.lane ∧ x.size = f.size ∧
          (f.write = true → x.data = BitVec.ofNat 128 (Rules.words p x.lane f.data.toNat f.size)))

/-- R137, R139, R149: a misaligned lane makes the whole instruction raise class 5 code 1 for the misaligned lanes, with
the address of the lowest; `.inplace` clears the idempotent bit even then (R142), unless the path waits for room in
the fault file (R150). -/
def Sys2Proof.Claim.MisalignedAccess : Prop :=
  ∀ (i : Instr) (f : Rules.AccessForm), Rules.rowAccess i = some f → ∀ (s : State) (p : Path), Ready i s p →
    let odd := maskOf ((List.range 32).filter fun k => p.act.getLsbD k && f.ea p k % f.size ≠ 0)
    odd ≠ 0#32 →
      ∃ x, exec i s = .next (raise (Rules.r142 i s p) p x) ∧
        x.cls = 5 ∧ x.code = 1 ∧ x.space = f.sp.code ∧ x.write = f.write ∧ x.lanes = odd ∧ x.addr = f.ea p (lowLane odd)

/-- R134 to R136, R265: the checks of one lane: alignment first; a scratch offset lies in the carve-out; a window offset
names a member that is not retired and carries its recorded generation; a virtual address lies below 2^52. -/
def Sys2Proof.Claim.LaneChecks : Prop :=
  ∀ (s : State) (p : Path) (sp : Sp) (write : Bool) (size k ea : Nat), 0 < size →
    let chk := checkLane s p sp write size k ea
    let sz := p.scratchBytes
    (ea % size ≠ 0 → chk = .error ⟨5, 1, false, false⟩) ∧
    (ea % size = 0 →
      (sp = .scratch → (ea + size ≤ sz → chk = .ok ⟨.scratch p.die p.pos, ea, 0, false, none⟩) ∧
        (sz < ea + size → chk = .error ⟨5, 3, false, false⟩)) ∧
      (sp = .hood → (p.grid.hoodSize * sz < ea + size → chk = .error ⟨5, 4, false, false⟩) ∧
        ∀ h b, ea + size ≤ p.grid.hoodSize * sz → p.grid.hoodOf (p.th k).blk = some h → h.blocks[ea / sz]? = some b →
          chk = if b.st = .retired then .error ⟨5, 5, false, false⟩
            else .ok ⟨.scratch b.die b.pos, ea % sz, 0, false, some (b.die, b.pos, h.gens.getD (ea / sz) 0)⟩) ∧
      (sp = .global ∨ sp = .system → 2 ^ 52 ≤ ea → chk = .error ⟨5, 2, false, false⟩))

/-- R141, R143, R144, R265: a load that takes its place writes its registers with the bytes read, extended as its size
code says, or with zeros when its window's generation is gone; no byte of any memory changes. Of a system load of 16
bytes the half that was performed ahead is as it was read then. -/
def Sys2Proof.Claim.LoadReturns : Prop :=
  ∀ (s : State) (op lane : Nat) (o : Op) (a : LaneAcc) (n : Nat) (signed : Bool), pendingAt s op lane = some (o, a) →
    a.kind = .load n signed → enabled s o a = true → Rules.noFrames s →
    let i : Instr := if a.gen.isNone then .loadDataReturn op lane else .hoodAccessArrival op lane
    let alive := genCurrent s a.gen
    let left := Rules.leftOf a
    (alive = true → readError s a.sp (a.addr + left.1) left.2 a.kd o.asid = none) →
    ∃ t, exec i s = .next t ∧ t.mem = s.mem ∧ t.locals = s.locals ∧
      Rules.Received s t o.uid fun k th => if k = lane then
        th.receive o.id (if alive then Rules.loaded a.size signed
            (Rules.withAhead a (agentBytes s a.sp (a.addr + left.1) left.2 a.kd)) a.dst
          else a.dst.map fun l => (l, 0))
      else th

/-- R138, R140, R143, R265: a store that is performed writes the bytes that no higher lane covers and no other byte; a byte
in the locked firmware range (R377) is not written, and through a window whose generation is gone nothing is. -/
def Sys2Proof.Claim.StorePerforms : Prop :=
  ∀ (s : State) (op lane : Nat) (o : Op) (a : LaneAcc), pendingAt s op lane = some (o, a) → a.kind = .store →
    enabled s o a = true → Rules.noFrames s → Rules.Canonical s → a.own.length = a.size → a.size ≤ 16 →
    (a.sp = .phys → Rules.Keyed s a.addr a.size a.kd) →
    let i : Instr := if a.system then .systemStoreAcknowledged op lane false
      else if a.gen.isNone then .storePerformed op lane else .hoodAccessArrival op lane
    ∃ t, exec i s = .next t ∧ Rules.Received s t o.uid (fun _ th => th) ∧
      Rules.Stored s t a.sp a.addr
        (if genCurrent s a.gen then
          (List.range a.size).map fun j =>
            if a.own.getD j false && !(fwDenied s a.sp (a.addr + j) 1) then some (BitVec.ofNat 8 (a.data.toNat / 256 ^ j))
            else none
        else [])

/-- R271, R272, R274: an atomic element reads its bytes, writes the new value, and a returning form receives the old one. -/
def Sys2Proof.Claim.AtomicApplies : Prop :=
  ∀ (s : State) (op lane : Nat) (o : Op) (a : LaneAcc) (f n : Nat) (ret : Bool), pendingAt s op lane = some (o, a) →
    a.kind = .atomic f n ret → enabled s o a = true → Rules.noFrames s → Rules.Canonical s → genCurrent s a.gen = true →
    readError s a.sp a.addr n a.kd o.asid = none → 0 < n → (a.sp = .phys → Rules.Keyed s a.addr n a.kd) →
    let i : Instr := if a.gen.isNone then .atomicElementApply op lane else .hoodAccessArrival op lane
    let old := ofBytes (agentBytes s a.sp a.addr n a.kd)
    let new := Rules.r271 f (8 * n) old a.data.toNat a.data2.toNat
    ∃ t, exec i s = .next t ∧
      (Rules.Received s t o.uid fun k th => if k = lane && ret then
        th.receive o.id (a.dst.zip ((List.range a.dst.length).map fun j => BitVec.ofNat 32 (old / 2 ^ (32 * j))))
      else th) ∧
      Rules.Stored s t a.sp a.addr ((List.range n).map fun j =>
        if fwDenied s a.sp (a.addr + j) 1 then none else some (BitVec.ofNat 8 (new / 256 ^ j)))

/-- R145: the cache hints change no architectural state, whatever their address is. -/
def Sys2Proof.Claim.CacheHints : Prop :=
  ∀ (la : BitVec 4) (a : BitVec 7) (i : Instr), (i = .pfl1 la a ∨ i = .pfl2 la a ∨ i = .evl1 la a) →
    ∀ (s : State) (p : Path), Ready i s p → Completes i s p (fun _ t => t) p.w.sh

/-! ## Barriers -/

/-- R213, R214, R269, R322: the active lanes of a barrier arrive; while a thread that the barrier counts has neither
arrived nor exited they wait, and with the last of them they go on; `barg` releases by the last arrival of a block
(`GridBarrierArrival`). A cutting raises class 9 code 27 at every barrier
but `barw`, and `barg` outside a cooperative launch class 9 code 38. -/
def Sys2Proof.Claim.ThreadBarriers : Prop :=
  ∀ (i : Instr) (b : Bar), Rules.rowBar i = some b → ∀ (s : State) (p : Path), Ready i s p →
    let cutting := fun k => p.act.getLsbD k && (p.th k).cutting
    let coop := p.grid.lrec.getLsbD 419
    let arrivedNow := fun (c : Core) (w : Warp) (k : Nat) => (w.lane k).arrived.contains b = true ∨
      (c.die = p.die ∧ c.pos = p.pos ∧ w.slot = p.slot ∧ p.lanes.getLsbD k = true)
    ((b = .w ∨ ∀ k, cutting k = false) → ((∀ k, b ≠ .g k) ∨ p.any = false ∨ coop = true) →
      ∃ t, exec i s = .next t ∧ t.mem = s.mem ∧ t.locals = s.locals ∧ Rules.RegsSame s t ∧
        (∀ j k, p.act.getLsbD k = true → p.lanes.getLsbD j = false → (p.th j).running = true →
          (p.th j).arrived.contains b = false → (b = .w ∨ ((p.th j).cutting = false ∧ (p.th j).blk = (p.th k).blk)) →
          (p.laneIn t k).wait = .bar b ∧ (p.laneIn t k).arrived.contains b = true) ∧
        (b = .w → p.w.looping = false → (∀ j, (p.th j).running = true → arrivedNow p.core p.w j) →
          ∀ k, p.act.getLsbD k = true → (p.laneIn t k).wait = .none ∧ (p.laneIn t k).pc = p.pc + 4 ∧
            (p.laneIn t k).arrived.contains b = false) ∧
        (b = .b → p.w.looping = false → ∀ k, p.act.getLsbD k = true →
          (∀ c ∈ s.cores, ∀ w ∈ c.warps, w.grid = p.grid.id → ∀ j, (w.lane j).running = true →
            (w.lane j).cutting = false → (w.lane j).blk = (p.th k).blk → arrivedNow c w j) →
          (p.laneIn t k).wait = .none ∧ (p.laneIn t k).pc = p.pc + 4) ∧
        (∀ n, b = .c n → p.w.looping = false → ∀ (k : Nat) (h : Hood), p.act.getLsbD k = true →
          p.grid.hoodOf (p.th k).blk = some h → (p.th k).blk ∈ h.blocks.map (·.idx) →
          (∀ m ∈ h.blocks, m.st = .placed ∨ m.st = .retired) →
          (∀ c ∈ s.cores, ∀ w ∈ c.warps, w.grid = p.grid.id → ∀ j, (w.lane j).running = true →
            (w.lane j).cutting = false → (w.lane j).blk ∈ h.blocks.map (·.idx) → arrivedNow c w j) →
          (p.laneIn t k).wait = .none ∧ (p.laneIn t k).pc = p.pc + 4)) ∧
    (∀ k, b ≠ .w → ((∀ n, b ≠ .g n) ∨ coop = true) → cutting k = true →
      exec i s = .next (raise s p (Flt.plain 9 27 (maskOf ((List.range 32).filter cutting))))) ∧
    (∀ n, b = .g n → p.any = true → coop = false → exec i s = .next (raise s p (Flt.plain 9 38 p.act)))

/-- R322: the arrival of a block at a counter of the grid barrier is counted, while another block has not arrived. When
every other block has arrived or retired, it releases every thread that waits at the counter, which goes on, and the
counter begins again; that it waits while a block is saved is the model's choice (log 75). -/
def Sys2Proof.Claim.GridBarrierArrival : Prop :=
  ∀ (s : State) (grid blk k : Nat) (g : Grid) (b : Block), gridAt s grid = some g → g.block blk = some b → k < 4 →
    g.lrec.getLsbD 419 = true → b.st = .placed → (k, blk) ∉ g.barg →
    let blks := g.hoods.flatMap (·.blocks)
    (∀ x ∈ blks, blockArrived s g blk k = true → x.st ≠ .retired → x.idx ≠ blk → (k, x.idx) ∉ g.barg →
      exec (.gridBarrierBlockArrival grid blk k) s =
        .next (modGrid s grid fun g => { g with barg := (k, blk) :: g.barg })) ∧
    (blks.length = g.blockCount →
      (∀ x ∈ blks, x.st = .retired ∨ x.st ≠ .saved ∧ (x.idx = blk ∨ (k, x.idx) ∈ g.barg)) →
      (∀ c ∈ s.cores, ∀ w ∈ c.warps, w.grid = grid → ∀ j, (w.lane j).running = true → (w.lane j).cutting = false →
        (w.lane j).arrived.contains (.g k) = true) →
      ∃ t, exec (.gridBarrierBlockArrival grid blk k) s = .next t ∧ t = { s with cores := t.cores, grids := t.grids } ∧
        gridAt t grid = some { g with barg := g.barg.filter fun x => decide (x.1 ≠ k) } ∧
        ∀ d q n w j, (coreAt s d q).warpAt n = some w → w.grid = grid → w.looping = false → (w.lane j).running = true →
          (w.lane j).cutting = false → (w.lane j).blk ∈ blks.map (·.idx) → (w.lane j).wait = .bar (.g k) →
          ∃ w', (coreAt t d q).warpAt n = some w' ∧ (w'.lane j).wait = .none ∧ (w'.lane j).pc = (w.lane j).pc + 4)

/-- R188 to R190, R209, R210: the transaction-barrier instructions write the barrier that R209 gives at their address
and no other byte; `tbarr` here with every active lane at one barrier. A misaligned address, one outside the
carve-out, reserved bits that are set, and a value out of range raise their class 5 or 9 code instead. `tbwait`
changes nothing once its phase has passed. The model's choice (log 62): the class 9 records of codes 20 and 21 name
space 1 and the barrier's address. Completes (under these conditions on the state and the operands alone, `exec`
answers a next state with the effect): `tbinit`, `tbarr`, `tbarrOne`, `tbexp`, `tbwait`. -/
def Obligations.TransactionBarriers : Prop :=
  (∀ (i : Instr) (a : BitVec 7) (reads : Bool) (f : Path → Nat → Option Nat), Rules.rowTb i = some (a, reads, f) →
    ∀ (s : State) (p : Path), Ready i s p → p.any = true → Rules.Canonical s →
    let ad := (p.v p.l0 a).toNat
    let b := ofBytes (readBytes s p.scratch ad 16)
    let stop := fun (cls code : Nat) => exec i s =
      .next (raise s p { Flt.plain cls code p.act with space := 1, write := true, addr := ad })
    (∀ k, p.act.getLsbD k = true → p.v k a = p.v p.l0 a) →
    (ad % 16 ≠ 0 → stop 5 1) ∧
    (ad % 16 = 0 → p.scratchBytes < ad + 16 → stop 5 3) ∧
    (ad % 16 = 0 → ad + 16 ≤ p.scratchBytes →
      (reads = true → ¬ Rules.barrierClean b → stop 9 20) ∧
      ((reads = true → Rules.barrierClean b) →
        (f p b = none → stop 9 21) ∧
        ∀ x, f p b = some x → ∃ t, exec i s = .next t ∧ Rules.RegsSame s t ∧
          Rules.Stored s t p.scratch ad ((List.range 16).map fun j => some (BitVec.ofNat 8 (x / 256 ^ j)))))) ∧
  (∀ (la : BitVec 4) (a b : BitVec 7) (s : State) (p : Path), Ready (.tbwait la a b) s p →
    let ad := (p.v p.l0 a).toNat
    (p.any = true → ad % 16 = 0 ∧ ad + 16 ≤ p.scratchBytes ∧ Rules.barrierClean (ofBytes (readBytes s p.scratch ad 16))) →
    clusterArmed s p.die (clusterOf p.pos) = false →
    Completes (.tbwait la a b) s p (fun _ t => t) p.w.sh)

/-! ## Engine instructions -/

/-- R202 to R204, R181: `cpy` with all its lanes in range starts one copy per active lane; without a charge it names no
barrier. -/
def Sys2Proof.Claim.CopyStarts : Prop :=
  ∀ (la : BitVec 4) (a b : BitVec 7) (n : BitVec 1) (r z : BitVec 2) (s : State) (p : Path),
    let i : Instr := .cpy la a b n r z
    let size := 4 * 2 ^ z.toNat
    let g := fun k => ((p.th k).pair a.toNat).toNat
    let l := fun k => (p.v k b).toNat
    Ready i s p → p.any = true → (∀ k, p.act.getLsbD k = true → Rules.copyOk p size r.toNat (g k) (l k)) →
    (n = 0#1 → Rules.r0 p b 1 % 16 = 0 ∧ Rules.r0 p b 1 + 16 ≤ p.scratchBytes) →
      Rules.StartsEngine i s p (if n = 0#1 then some (Rules.r0 p b 1) else none) fun kind =>
        ∃ us, kind = .units us ∧ us.map (·.tag) = laneList p.act ∧
          ∀ u ∈ us, (∀ k, p.act.getLsbD k = true → k ≤ u.tag) →
            let here := Rules.copyPlace p r.toNat (l u.tag)
            let there := Place.virt p.grid.asid (g u.tag)
            u.segs = [if r = 1#2 then ⟨some here, some there, size⟩ else ⟨some there, some here, size⟩]

/-- R206 to R208: `tld` and `tst` with a sound layout record start the parts of the tile and charge its barrier. -/
def Sys2Proof.Claim.TensorCopyStarts : Prop :=
  ∀ (la : BitVec 4) (a b : BitVec 7) (x : BitVec 3) (load : Bool) (s : State) (p : Path) (d : Nat) (t : Tile),
    let i : Instr := if load then .tld la a b x else .tst la a b x
    let lx := (p.w.old.lx.getD x.toNat 0).toNat
    let bar := Rules.r0 p b 1
    let dst := Rules.r0 p b 0
    let tgt := dst / 2 ^ 30
    let ad := if tgt = 1 then dst % 2 ^ 16 else dst % 2 ^ 30
    let sz := t.count * t.e
    Ready i s p → p.any = true → Rules.descriptor s p (Rules.p0 p a 0) d → layoutBad d = false →
    t = { rec_ := d, base := lx % 2 ^ 52, ext := (List.range 4).map (fun j => lx / 2 ^ (64 + 32 * j) % 2 ^ 32),
          c0 := ((p.th p.l0).reg (b.toNat + 2)).toInt, c1 := ((p.th p.l0).reg (b.toNat + 3)).toInt,
          c2 := ((p.th p.l0).reg (a.toNat + 2)).toInt, c3 := ((p.th p.l0).reg (a.toNat + 3)).toInt } →
    t.base % t.e = 0 → ad % t.e = 0 → Rules.chargeable s p bar →
    (tgt = 0 ∧ ad + sz ≤ p.scratchBytes ∨
     load = true ∧ tgt = 2 ∧ ad + sz ≤ p.kernel.wst * 4096 ∨
     load = true ∧ tgt = 1 ∧ dst / 2 ^ 20 % 2 ^ 10 = 0 ∧ dst / 2 ^ 16 % 16 < p.kernel.slots ∧
       ad + sz ≤ 4096 * p.core.halves ∧ p.kernel.owner.lookup (dst / 2 ^ 16 % 16) = some p.w.uid) →
      Rules.StartsEngine i s p (some bar) fun kind =>
        kind = .units (t.units load p.grid.asid (if tgt = 0 then p.scratch else if tgt = 1
          then .slot p.die p.pos p.grid.id (dst / 2 ^ 16 % 16) else .weight p.die p.pos p.grid.id) ad)

/-- R265 to R268: `mcast` sends each 16-byte chunk of the source to every member of the mask, with the generation that is
recorded of the member. -/
def Sys2Proof.Claim.MulticastStarts : Prop :=
  ∀ (la : BitVec 4) (a b : BitVec 7) (s : State) (p : Path) (h : Hood),
    let i : Instr := .mcast la a b
    let src := Rules.r0 p a 0
    let dst := Rules.r0 p a 1
    let m := Rules.r0 p a 2
    let bar := Rules.r0 p a 3
    let ks := (List.range 24).filter fun k => (Rules.r0 p b 0).testBit k
    let far := fun (x n y : Nat) => x + n ≤ y ∨ y + m ≤ x
    Ready i s p → p.any = true → p.grid.hoodOf (p.th p.l0).blk = some h → ks ≠ [] → Rules.r0 p b 0 < 2 ^ 24 →
    Rules.r0 p b 1 = 0 → 0 < m → m ≤ 65536 → src % 16 = 0 → dst % 16 = 0 → m % 16 = 0 → bar % 16 = 0 →
    src + m ≤ p.scratchBytes → dst + m ≤ p.scratchBytes → bar + 16 ≤ p.scratchBytes →
    (∀ k ∈ ks, k < p.grid.hoodSize ∧ ∃ x, h.blocks[k]? = some x ∧ x.st ≠ .retired) → far bar 16 dst →
    ((p.th p.l0).blk % p.grid.hoodSize ∈ ks → far src m dst) →
      Rules.StartsEngine i s p (some bar) fun kind => ∃ us, kind = .mcast us ∧ us.length = ks.length * (m / 16) ∧
        ∀ k ∈ ks, ∀ x, h.blocks[k]? = some x → ∀ c, c < m / 16 → ∃ u ∈ us, u.tag = c ∧ u.recv = k ∧
          u.segs = [⟨some (.at p.scratch (src + 16 * c)), some (.at (.scratch x.die x.pos) (dst + 16 * c)), 16⟩] ∧
          u.gen = some (x.die, x.pos, h.gens.getD k 0)

/-- R234 to R241: `accst`, `tdec`, `tdec.q` and `venc` whose operands pass the checks of their rule start their
operation and charge their barrier. -/
def Sys2Proof.Claim.ConvertingEnginesStart : Prop :=
  (∀ (la : BitVec 4) (d a : BitVec 7) (f : BitVec 3) (s : State) (p : Path),
    let i : Instr := .accst la d a f
    let dst := Rules.r0 p d 0
    let bar := Rules.r0 p d 1
    let src := Rules.r0 p a 0
    let n := Rules.r0 p a 1
    let e := elemBytes (Rules.fmtOf p f.toNat)
    Ready i s p → p.any = true → Rules.fmtOf p f.toNat ≤ 10 → n % 8 = 0 → 8 ≤ n → n ≤ 65536 → src % 4 = 0 →
    dst % e = 0 → src + 4 * n ≤ p.kernel.acc * 4096 → dst + n * e ≤ p.scratchBytes → Rules.chargeable s p bar →
      Rules.StartsEngine i s p (some bar) fun kind =>
        kind = .accst ⟨p.grid.fslot f.toNat, src, dst, n, 0, []⟩ (sectorsOf dst (n * e))) ∧
  (∀ (la : BitVec 4) (a b : BitVec 7) (x : BitVec 3) (queue : Bool) (s : State) (p : Path),
    let i : Instr := if queue then .tdecQ la a x else .tdec la a b x
    let base := Rules.r0 p a 0
    let sc := Rules.r0 p a 1
    let nb := Rules.r0 p a 2
    let bar := Rules.r0 p a 3
    let od := Rules.r0 p b 0
    let q := Rules.blockOf p x.toNat
    let e := if od.testBit 4 then 4 else 2
    let off := od / 2 ^ 5 % 2 ^ 16
    let n := nb * q.1
    let wide := 64 * (p.core.halves / 2)
    Ready i s p → p.any = true → (Rules.fmtOf p x.toNat = 11 ∨ Rules.fmtOf p x.toNat = 12) →
    base % (if Rules.fmtOf p x.toNat = 12 then 8 else 32) = 0 → sc % 2 = 0 → base + nb * q.2.1 ≤ p.kernel.wst * 4096 →
    sc + nb * q.2.2 ≤ p.kernel.wst * 4096 → 1 ≤ nb → nb ≤ 256 → Rules.chargeable s p bar →
    (queue = true → 2 ≤ p.core.halves → n % wide = 0 →
      Rules.StartsEngine i s p (some bar) fun kind => ∃ t, kind = .tdecQ t 0 (n / wide) ∧
        t.fmt = p.grid.fslot x.toNat ∧ t.base = base ∧ t.scales = sc ∧ t.nb = nb ∧ t.gang = p.w.gang) ∧
    (queue = false → off % e = 0 → od < 2 ^ 21 → od % 16 < p.kernel.slots → off + n * e ≤ 4096 * p.core.halves →
      p.kernel.owner.lookup (od % 16) = some p.w.uid →
      Rules.StartsEngine i s p (some bar) fun kind => ∃ t, kind = .tdec t (sectorsOf off (n * e)) ∧
        t.fmt = p.grid.fslot x.toNat ∧ t.base = base ∧ t.scales = sc ∧ t.nb = nb ∧ t.slot = od % 16 ∧
        t.fp32 = od.testBit 4 ∧ t.offset = off)) ∧
  (∀ (la : BitVec 4) (a b : BitVec 7) (x : BitVec 3) (s : State) (p : Path),
    let i : Instr := .venc la a b x
    let tgt := Rules.r0 p a 0
    let w := Rules.r0 p a 1
    let v := Rules.r0 p a 2
    let bar := Rules.r0 p a 3
    let errs := Rules.r0 p b 0
    let dst := w % 2 ^ 23
    let nb := v % 2 ^ 8 + 1
    let q := v / 2 ^ 8 % 2 ^ 5
    Ready i s p → p.any = true → Rules.fmtOf p x.toNat = 12 → tgt % 2 = 0 → dst % 8 = 0 → errs % 4 = 0 →
    tgt + 520 * nb ≤ p.scratchBytes → errs + 4 * nb ≤ p.scratchBytes →
    dst + nb * (Rules.blockOf p x.toNat).2.1 ≤ (if w.testBit 31 then p.kernel.wst * 4096 else p.scratchBytes) →
    w / 2 ^ 23 % 2 ^ 8 = 0 → v / 2 ^ 13 % 2 ^ 3 = 0 → q ≤ fsWin (p.grid.fslot x.toNat) → Rules.chargeable s p bar →
      Rules.StartsEngine i s p (some bar) fun kind =>
        kind = .venc ⟨p.grid.fslot x.toNat, tgt, w.testBit 31, dst, nb, q, v / 2 ^ 16, errs, none, [], []⟩ 0)

/-- R233, R238: `accld` and `twget` whose lanes pass their checks start one late access per active lane, count in ldcnt,
and each lane owes its registers. -/
def Sys2Proof.Claim.LateReadsStart : Prop :=
  (∀ (la : BitVec 4) (d a : BitVec 7) (z : BitVec 3) (s : State) (p : Path),
    let i : Instr := .accld la d a z
    let size := 4 * 2 ^ z.toNat
    let ea := fun k => (p.v k a).toNat
    Ready i s p → p.any = true →
    (∀ k, p.act.getLsbD k = true → ea k % size = 0 ∧ ea k + size ≤ p.kernel.acc * 4096) →
      ∃ t o accs w, exec i s = .next t ∧ Rules.Launched s t p o ∧ o.kind = .late accs ∧
        p.warpIn t = some w ∧ w.ldcnt = p.w.ldcnt + 1 ∧ accs.map (·.lane) = laneList p.act ∧
        ∀ x ∈ accs, x.kind = .accum ∧ x.sp = .acc p.die p.pos p.grid.id ∧ x.addr = ea x.lane ∧ x.size = size ∧
          x.dst = (List.range (size / 4)).filterMap fun j => fieldLoc (p.th x.lane).wb.toNat (d.toNat + j)) ∧
  (∀ (la : BitVec 4) (d a : BitVec 7) (f : BitVec 3) (s : State) (p : Path),
    let i : Instr := .twget la d a f
    let ba := fun k => (p.v k a).toNat
    let x := fun k => ((p.th k).reg (a.toNat + 1)).toNat
    let sc := fun k => x k % 2 ^ 21 + x k / 2 ^ 24 / 64 * 2
    let bb := (Rules.blockOf p f.toNat).2.1
    Ready i s p → p.any = true → Rules.fmtOf p f.toNat = 12 →
    (∀ k, p.act.getLsbD k = true → ba k % 8 = 0 ∧ x k % 2 = 0 ∧ x k / 2 ^ 21 % 8 = 0 ∧
      ba k + bb ≤ p.kernel.wst * 4096 ∧ sc k + 2 ≤ p.kernel.wst * 4096) →
      ∃ t o accs w, exec i s = .next t ∧ Rules.Launched s t p o ∧ o.kind = .late accs ∧
        p.warpIn t = some w ∧ w.ldcnt = p.w.ldcnt + 1 ∧ accs.map (·.lane) = laneList p.act ∧
        ∀ y ∈ accs, y.kind = .weight (p.grid.fslot f.toNat) (x y.lane / 2 ^ 24) (sc y.lane) ∧
          y.sp = .weight p.die p.pos p.grid.id ∧ y.addr = ba y.lane ∧ y.size = bb)

/-- R398 to R405: `nput`, `nget` and the collective steps within an open window start their operation over the aligned
sectors of the remote range and charge their barrier. -/
def Sys2Proof.Claim.FabricOperationsStart : Prop :=
  (∀ (a b : BitVec 7) (w : BitVec 6) (put : Bool) (s : State) (p : Path),
    let i : Instr := if put then .nput a b w else .nget a b w
    let va := Rules.p0 p a 0
    let n := Rules.r0 p a 2
    let bar := Rules.r0 p a 3
    let off := Rules.p0 p b 0
    let sig := Rules.p0 p b 2
    Ready i s p → p.any = true → Rules.windowOk s p w (if put then 126 else 125) off n sig → va % 4 = 0 → off % 4 = 0 →
    n % 4 = 0 → 4 ≤ n → n ≤ 2 ^ 30 → va + n ≤ 2 ^ 52 → Rules.chargeable s p bar →
      let x := Rules.nguOf s w (if put then 1 else 2) 0 0 va 0 0 n off sig
      Rules.StartsEngine i s p (some bar) fun kind => kind = .ngu x (x.units p.grid.asid) [] (decide (sig = 2 ^ 64 - 1))) ∧
  (∀ (i : Instr) (step each far : Nat) (a b : BitVec 7) (w : BitVec 6),
    Rules.rowColl i = some (step, each, far, a, b, w) → ∀ (s : State) (p : Path) (d : Nat),
    let count := d / 2 ^ 256 % 2 ^ 32
    let src := d % 2 ^ 64
    let off := d / 2 ^ 64 % 2 ^ 64
    let scl := d / 2 ^ 128 % 2 ^ 64
    let agr := d / 2 ^ 192 % 2 ^ 64
    let sig := d / 2 ^ 320 % 2 ^ 64
    let bar := Rules.r0 p b 0
    Ready i s p → p.any = true → Rules.descriptor s p (Rules.p0 p a 0) d → collBad step d = false →
    Rules.windowOk s p w 126 off (far * count) sig → src + each * count ≤ 2 ^ 52 →
    (step = 5 → scl + 2 * count ≤ 2 ^ 52 ∧ agr + 2 * count ≤ 2 ^ 52) → Rules.chargeable s p bar →
      let x := Rules.nguOf s w step (d / 2 ^ 288 % 16) (d / 2 ^ 292 % 16) src scl agr (far * count) off sig
      Rules.StartsEngine i s p (some bar) fun kind => kind = .ngu x (x.units p.grid.asid) [] (decide (sig = 2 ^ 64 - 1)))

/-- R313, R317, R318: a signal instruction whose address passes the check of an atomic starts its update, and its path
waits for it; `dxfer` with a well-formed packet of at least one byte starts its transfer. -/
def Sys2Proof.Claim.SignalsAndTransfersStart : Prop :=
  (∀ (a b : BitVec 7) (add : Bool) (s : State) (p : Path) (tr : Tr),
    let i : Instr := if add then .sigadd a b else .sigst a b
    let va := Rules.p0 p a 0
    Ready i s p → p.any = true → va % 8 = 0 → translate s p.grid.asid va true false (some false) = .ok tr →
      ∃ t o acc, exec i s = .next t ∧ Rules.Launched s t p o ∧ o.kind = .signal acc add ∧ acc.addr = tr.pa ∧
        acc.sp = .phys ∧ acc.size = 8 ∧ acc.data = BitVec.ofNat 128 (Rules.p0 p b 0) ∧
        ∀ k, p.lanes.getLsbD k = true → (p.laneIn t k).wait = .signal o.id) ∧
  (∀ (a : BitVec 7) (s : State) (p : Path) (d : Nat),
    let src := d / 2 ^ 64 % 2 ^ 64
    let dst := d / 2 ^ 128 % 2 ^ 64
    let n := d / 2 ^ 192 % 2 ^ 64
    Ready (.dxfer a) s p → p.any = true → Rules.descriptor s p (Rules.p0 p a 0) d → d % 2 ^ 64 = 4 → d < 2 ^ 320 →
    0 < n → n ≤ 2 ^ 40 → d / 2 ^ 256 % 8 = 0 →
      Rules.StartsEngine (.dxfer a) s p none fun kind => ∃ us,
        kind = .transfer us (decide (src < dst + n ∧ dst < src + n)) (d / 2 ^ 256 % 2 ^ 64) none ∧ us ≠ [])

/-! ## Tables, conversion to N4X, slots, cuttings, matrix, frames, scheduler cores -/

/-- R121, R124 to R127: with the table grant `tblsw` switches the active bank from the next cycle on; `tblld` copies a
sound header into the other bank and starts the copy of its 256 entries, each of which TBLLD_COPY performs from the
scratch of the issuing block (R178). A header in poisoned sectors raises class 8 code 1 (R347). -/
def Sys2Proof.Claim.TableLoadAndSwitch : Prop :=
  (∀ (s : State) (p : Path), Ready .tblsw s p → p.any = true →
    (p.kernel.tbl = false → exec .tblsw s = .next (raise s p (Flt.plain 9 1 p.act))) ∧
    (p.kernel.tbl = true → ∃ t, exec .tblsw s = .next t ∧ (∀ k, (p.laneIn t k).Alike (p.th k)) ∧
      Rules.CoreBecomes s t p { p.core with
        bank := !p.core.bank,
        bankWas := some ((dieOf s p.die).cycles, p.core.bankIn (dieOf s p.die).cycles) })) ∧
  (∀ (a : BitVec 7) (s : State) (p : Path), Ready (.tblld a) s p → p.any = true → p.kernel.tbl = true → Rules.Canonical s →
    let ad := (p.v p.l0 a).toNat
    ad % 64 = 0 → ad + 4160 ≤ p.scratchBytes →
    (isPoisoned s p.scratch ad 64 = true →
      exec (.tblld a) s = .next (raise s p { Flt.plain 8 1 p.act with space := 1, addr := ad })) ∧
    (isPoisoned s p.scratch ad 64 = false → headerBad (readN s p.scratch ad 64) = false →
      ∃ t o, exec (.tblld a) s = .next t ∧ t.ops = s.ops ++ [o] ∧ o.kind = .table (List.range 256) ad (!p.core.bank) ∧
        o.die = p.die ∧ o.pos = p.pos ∧ o.uid = p.w.uid ∧ Rules.RegsSame s t ∧
        Rules.Stored s t (.bank p.die p.pos (if p.core.bank then 0 else 1)) 0 ((readBytes s p.scratch ad 64).map some))) ∧
  (∀ (die pos entry : Nat) (s : State) (o : Op) (left : List Nat) (src : Nat) (b : Bool), o ∈ s.ops → o.die = die →
    o.pos = pos → o.kern = o.grid → o.kind = .table left src b → entry ∈ left → Rules.Canonical s →
    (∀ x ∈ s.ops, x.die = die → x.pos = pos → (∃ l y c, x.kind = .table l y c) → x = o) →
    let sp := o.place s (.scratch die pos)
    let ad := src + 64 + 16 * entry
    (isPoisoned s sp ad 16 = true → exec (.tblldCopy die pos entry) s =
      .next (memoryError s o 1 1 false (BitVec.ofNat 32 (2 ^ o.l0)) ad)) ∧
    (isPoisoned s sp ad 16 = false →
      ∃ t, exec (.tblldCopy die pos entry) s = .next t ∧ t.cores = s.cores ∧
        Rules.Stored s t (.bank die pos (if b then 1 else 0)) (64 + 16 * entry)
          ((readBytes s sp ad 16).map some) ∧
        (left.filter (· ≠ entry) = [] → t.ops = s.ops.filter fun x => x.id ≠ o.id) ∧
        (left.filter (· ≠ entry) ≠ [] → opAt s o.id = some o →
          opAt t o.id = some { o with kind := .table (left.filter (· ≠ entry)) src b })))

/-- R129 to R132: `cvto` writes the packed slots, the length of the side list and the outlier predicate, and stores the
side list at its address; without outliers a slot is the rounded quotient clamped to 7 in magnitude. -/
def Sys2Proof.Claim.ConvertToN4x : Prop :=
  ∀ (d a b : BitVec 7) (x : BitVec 1) (q : BitVec 4) (s : State) (p : Path),
    let i : Instr := .cvto d a b x q
    let val := fun (w : Word) => if x = 1#1 then bf16.decode (w.toNat % 2 ^ 16) else fp32.decode w.toNat
    let v := fun k => if p.act.getLsbD k then val (p.v k a) else .fin false 0 0
    let top := val (p.v p.l0 b)
    let scale := bf16.decode (Rules.r0 p b 1 % 2 ^ 16)
    let r := quantise p.act.getLsbD v top scale
    let ad := Rules.r0 p b 2
    Ready i s p → p.any = true → Rules.Canonical s → (r.side ≠ [] → ad % 4 = 0 ∧ ad + 4 * r.side.length ≤ p.scratchBytes) →
      (∃ t, exec i s = .next t ∧ Rules.Stored s t p.scratch ad ((r.side.flatMap (toBytes 4)).map some) ∧
        WarpBecomes t p (p.lanesWith fun k th =>
          ((th.setReg d.toNat (Rules.word ((List.range 8).map fun j => ((r.slots.getD (k / 8 * 8 + j) 0 * 16 ^ j : Nat) : Int)).sum)).setReg
            (d.toNat + 1) (Rules.word r.side.length)).setPred q.toNat (r.out.getD k false)) (p.withFlags r.fl)) ∧
      ((scale.isZero || scale.isInf || scale.isNan) = false → (∀ k, p.act.getLsbD k = true → withinT (v k) top = true) →
        r.side = [] ∧ ∀ k, k < 32 → r.out.getD k false = false ∧
          r.slots.getD k 0 = if p.act.getLsbD k then
            ((max (-7) (min 7 (quotInt (v k) scale).1)) % 16).toNat else 0)

/-- R211, R212: `slot.claim` takes a free slot, goes on with a slot the warp owns, and joins the waiting claims of
another owner's; `slot.rel` gives an owned slot up, to the first waiting claim. A slot outside the quota raises class
9 code 18, and the release of a slot that the warp does not own code 25. -/
def Sys2Proof.Claim.OperandSlots : Prop :=
  ∀ (la k : BitVec 4) (s : State) (p : Path) (kn : Kernel), p.any = true → p.core.kernelOf p.grid.id = some kn →
    let g := p.grid.id
    let mine := (k.toNat, p.w.uid)
    (Ready (.slotClaim la k) s p →
      (kn.slots ≤ k.toNat → exec (.slotClaim la k) s = .next (raise s p (Flt.plain 9 18 p.act))) ∧
      (k.toNat < kn.slots → kn.owner.lookup k.toNat = none → ∃ t, exec (.slotClaim la k) s = .next t ∧
        (∀ j, (p.laneIn t j).Alike (p.th j)) ∧
        Rules.CoreBecomes s t p (Rules.withKernel p.core g fun x => { x with owner := mine :: x.owner })) ∧
      (k.toNat < kn.slots → kn.owner.lookup k.toNat = some p.w.uid →
        Completes (.slotClaim la k) s p (fun _ t => t) p.w.sh) ∧
      (∀ u, k.toNat < kn.slots → kn.owner.lookup k.toNat = some u → u ≠ p.w.uid →
        ∃ t c, exec (.slotClaim la k) s = .next t ∧ (coreAt t p.die p.pos).warps = p.core.warps ∧
          (coreAt t p.die p.pos).kernelOf g = some { kn with claims := addClaim kn.claims c } ∧
          c.slot = k.toNat ∧ c.warp = p.w.uid ∧ c.lanes = p.lanes)) ∧
    (Ready (.slotRel la k) s p →
      (kn.slots ≤ k.toNat → exec (.slotRel la k) s = .next (raise s p (Flt.plain 9 18 p.act))) ∧
      (k.toNat < kn.slots → kn.owner.lookup k.toNat ≠ some p.w.uid →
        exec (.slotRel la k) s = .next (raise s p (Flt.plain 9 25 p.act))) ∧
      (k.toNat < kn.slots → kn.owner.lookup k.toNat = some p.w.uid →
        ∃ t x, exec (.slotRel la k) s = .next t ∧ Rules.RegsSame s t ∧ t.mem = s.mem ∧
          (coreAt t p.die p.pos).kernelOf g = some x ∧
          x.owner.lookup k.toNat = (kn.claims.find? fun c => c.slot = k.toNat).map fun c => c.warp))

/-- R35, R170, R197, R198: `spawn` puts the cuttings of its active lanes, all of one entry here, into the bed of that entry
or a free bed; entries that are no instruction addresses raise class 4 with the entry as the record's address (R149; its
space is log 18's choice), and a kernel without beds class 9 code 16. -/
def Sys2Proof.Claim.SpawnFillsBeds : Prop :=
  ∀ (a b : BitVec 7) (s : State) (p : Path), Ready (.spawn a b) s p → p.any = true →
    let ent := fun k => ((p.th k).pair a.toNat).toNat
    let odd := fun k => p.act.getLsbD k && ent k % 4 ≠ 0
    let bad := fun k => p.act.getLsbD k && (ent k % 4 ≠ 0 || 2 ^ 52 ≤ ent k)
    let e := BitVec.ofNat 52 (ent p.l0)
    let n := (laneList p.act).length
    let key := fun (x : Bed) => x.grid = p.grid.id ∧ x.entry = e
    (∀ j, bad j = true →
      let m := maskOf ((List.range 32).filter bad)
      exec (.spawn a b) s = .next (raise s p { Flt.plain 4 (if (List.range 32).any odd then 1 else 2) m with
        space := 4, addr := ent (lowLane m) })) ∧
    ((∀ j, bad j = false) → p.kernel.beds = 0 → exec (.spawn a b) s = .next (raise s p (Flt.plain 9 16 p.act))) ∧
    ((∀ j, bad j = false) → p.kernel.beds ≠ 0 → (∀ k, p.act.getLsbD k = true → ent k = ent p.l0) →
      (∀ l x r, p.core.beds = l ++ x :: r → key x → (∀ y ∈ l ++ r, ¬ key y) → x.cuttings.length + n ≤ 32 →
        ∃ (t : State) (new : List Cutting), exec (.spawn a b) s = .next t ∧ (∀ k, (p.laneIn t k).Alike (p.th k)) ∧ new.length = n ∧
          (∀ (j : Nat) (y : Cutting) (k : Nat), new[j]? = some y → (laneList p.act)[j]? = some k → Rules.cuttingOf p b e k y) ∧
          Rules.CoreBecomes s t p { p.core with
            spawned := some ((dieOf s p.die).cycles, p.slot), beds := l ++ { x with cuttings := x.cuttings ++ new } :: r }) ∧
      ((∀ x ∈ p.core.beds, ¬ key x) → p.core.beds.length < 16 →
        (p.core.beds.filter fun x => x.grid = p.grid.id).length < p.kernel.beds →
        ∃ (t : State) (new : List Cutting), exec (.spawn a b) s = .next t ∧ (∀ k, (p.laneIn t k).Alike (p.th k)) ∧ new.length = n ∧
          (∀ (j : Nat) (y : Cutting) (k : Nat), new[j]? = some y → (laneList p.act)[j]? = some k → Rules.cuttingOf p b e k y) ∧
          Rules.CoreBecomes s t p { p.core with
            spawned := some ((dieOf s p.die).cycles, p.slot), beds := p.core.beds ++ [⟨p.grid.id, e, new, (dieOf s p.die).cycles⟩] }))

/-- R223 to R227: a solo `mma` of the warp's only path, within the limits of its rule, starts its operation. R231:
`mmack` reads the progress of the warp's last one, and `mmack.cut` cuts it: it ends at once between k-steps, and after
the one in progress otherwise. Completes (under these conditions on the state and the operands alone, `exec` answers a
next state with the effect): `mma`, `mmack`, `mmackCut`. -/
def Obligations.MatrixOperations : Prop :=
  (∀ (la : BitVec 4) (a b : BitVec 7) (f x : BitVec 3) (s : State) (p : Path), Ready (.mma la a b f x) s p →
    let d := (p.th p.l0).pair a.toNat
    let fb := d.toNat / 2 ^ 13 % 8
    let acc := Rules.r0 p b 0
    p.any = true → p.w.sh.gk = 0#64 → (∀ k, k < 32 → (p.th k).running = true → p.lanes.getLsbD k = true) →
    (∀ c ∈ mmaChecks p x.toNat (p.grid.fslot f.toNat) (p.grid.fslot fb) d acc, c.1 = false) →
    p.kernel.owner.lookup (d.toNat % 16) = some p.w.uid →
    (d.toNat.testBit 8 = true ∨ p.kernel.owner.lookup (d.toNat / 2 ^ 4 % 16) = some p.w.uid) →
      ∃ t o, exec (.mma la a b f x) s = .next t ∧ Rules.RegsSame s t ∧ t.mem = s.mem ∧ o ∈ t.ops ∧ o.id = s.nextId ∧
        (∀ w, p.warpIn t = some w → w.mmaOp = s.nextId) ∧
        (Rules.freshIds s → ∃ m, o.kind = .mma m ∧ m.desc = d ∧ m.fn = x.toNat ∧ m.acc = acc ∧
          m.fmtA = p.grid.fslot f.toNat ∧ m.fmtB = p.grid.fslot fb ∧ m.members = [(p.w.uid, p.w.sh.fence + 1)] ∧
          m.next = d.toNat / 2 ^ 48 % 2 ^ 8 ∧ m.cut = false ∧ m.fl = 0)) ∧
  (∀ (la : BitVec 4) (d : BitVec 7) (s : State) (p : Path), Ready (.mmack la d) s p →
    (∀ o m, opAt s p.w.mmaOp = some o → o.kind = .mma m →
      Completes (.mmack la d) s p (fun _ t => t.setReg d.toNat (Rules.r231 m.next false false false)) p.w.sh) ∧
    (opAt s p.w.mmaOp = none → Completes (.mmack la d) s p (fun _ t => t.setReg d.toNat p.w.mmaAck) p.w.sh)) ∧
  (∀ (la : BitVec 4) (d : BitVec 7) (s : State) (p : Path), Ready (.mmackCut la d) s p → p.any = true →
    (opAt s p.w.mmaOp = none → Completes (.mmackCut la d) s p (fun _ t => t.setReg d.toNat p.w.mmaAck) p.w.sh) ∧
    (∀ o m, opAt s p.w.mmaOp = some o → o.kind = .mma m → Rules.freshIds s →
      (∀ x ∈ s.ops, ∀ l, x.kind ≠ .mmack l o.id) →
      (m.began = false → ∃ t, exec (.mmackCut la d) s = .next t ∧ opAt t o.id = none ∧ t.mem = s.mem ∧
        ∀ k, (p.laneIn t k).Alike (p.lanesWith (fun _ th => th.setReg d.toNat (Rules.r231 m.next true true m.clr)) k)) ∧
      (m.began = true → ∃ t c, exec (.mmackCut la d) s = .next t ∧ t.locals = s.locals ∧ c ∈ t.ops ∧
        (∃ lanes, c.kind = .mmack lanes o.id) ∧ (∀ k, (p.laneIn t k).Alike (p.th k)) ∧
        opAt t o.id = some { o with kind := .mma { m with cut := m.cut || decide (m.next + 1 < m.desc.toNat / 2 ^ 32 % 2 ^ 16 / 16) } })))

/-- R364 to R367: `pq` writes the status words of the page of each active lane, 0 for a page that is not mapped; a
`pshare` or `prel` of one page that no access has to be waited for changes its entries and counts. Completes (under
these conditions on the state and the operands alone, `exec` answers a next state with the effect): `pshare`,
`pshareRo`, `prel`, `pq`. -/
def Obligations.FrameInstructions : Prop :=
  (∀ (a d : BitVec 7) (s : State) (p : Path), Ready (.pq a d) s p → ∀ st : Nat → BitVec 64,
    let va := fun k => ((p.th k).pair a.toNat).toNat
    (∀ k, p.act.getLsbD k = true → va k < 2 ^ 52 ∧
      ((∃ level e ad, walk s p.grid.asid (va k) = .leaf level e ad ∧ level ≤ 2 ∧
          st k = Rules.r367 level e (va k) (countOf s (Rules.pageAt level e (va k))).toNat) ∨
        (walk s p.grid.asid (va k) = .unmapped false false ∧ st k = 0))) →
      Completes (.pq a d) s p (fun k t => t.setPair d.toNat (st k)) p.w.sh) ∧
  (∀ (a b : BitVec 7) (ro : Bool) (s : State) (p : Path) (e at1 at2 : Nat),
    let i : Instr := if ro then .pshareRo a b else .pshare a b
    let src := Rules.p0 p a 0
    let dst := Rules.p0 p b 0
    let asid := p.grid.asid
    Ready i s p → p.any = true → Rules.freshIds s → Rules.Canonical s → (asidEntry s asid).testBit 393 = true → Rules.r0 p b 2 = 1 →
    src % 65536 = 0 → dst % 65536 = 0 → src + 65536 ≤ 2 ^ 52 → dst + 65536 ≤ 2 ^ 52 → src ≠ dst →
    (∃ tr, translate s asid src false false (some false) = .ok tr) → walk s asid src = .leaf 0 e at1 →
    frameShared s asid src = true → entryOf s asid dst = some at2 → (readN s .phys at2 8).testBit 0 = false →
    fwDenied s .phys at2 8 = false →
    (at1 + 8 ≤ at2 ∨ at2 + 8 ≤ at1) → pageWaits s asid src true = false → countOf s (e / 2 ^ 16 % 2 ^ 36 * 2 ^ 16) ≠ 0xFFFF#16 →
      ∃ t, exec i s = .next t ∧ Rules.RegsSame s t ∧ t.ops = s.ops ∧
        (let e' := if e.testBit 4 then e else e + 2 ^ 4
         readN t .phys at1 8 = e' ∧ readN t .phys at2 8 = (if ro then
            e' - 2 ^ 4 - (if e.testBit 2 then 2 ^ 2 else 0) else e')) ∧
        countOf t (e / 2 ^ 16 % 2 ^ 36 * 2 ^ 16) = countOf s (e / 2 ^ 16 % 2 ^ 36 * 2 ^ 16) + 1 ∧
        ∀ k, p.lanes.getLsbD k = true → p.w.looping = false → (p.laneIn t k).wait = .none) ∧
  (∀ (a b : BitVec 7) (s : State) (p : Path) (e ad : Nat),
    let va := Rules.p0 p a 0
    let asid := p.grid.asid
    let frame := e / 2 ^ 16 % 2 ^ 36 * 2 ^ 16
    Ready (.prel a b) s p → p.any = true → Rules.freshIds s → Rules.Canonical s → (asidEntry s asid).testBit 393 = true → Rules.r0 p b 0 = 1 →
    va % 65536 = 0 → va + 65536 ≤ 2 ^ 52 → walk s asid va = .leaf 0 e ad → frameShared s asid va = true →
    pageWaits s asid va false = false → 1#16 < countOf s frame → countOf s frame ≠ 0xFFFF#16 →
      ∃ t, exec (.prel a b) s = .next t ∧ Rules.RegsSame s t ∧ t.ops = s.ops ∧
        Rules.Stored s t .phys ad ((List.range 8).map fun j => some (BitVec.ofNat 8 ((e - 1) / 256 ^ j))) ∧
        countOf t frame = countOf s frame - 1 ∧
        ∀ k, p.lanes.getLsbD k = true → p.w.looping = false → (p.laneIn t k).wait = .none)

/-- R305, R306: the Xlorekq instructions of a scheduler core, with the traps of their checks; an `xdisp` that meets a
page whose fault hardware resolves (R151) waits and starts its move. The model's choices: the grid of `xdisp` takes
queue and ASID of the buffered packet (log 21), a page of a side table that is to be resolved makes `xdisp` wait (log
35), and the traps enter through mstatus, mepc and mtvec (log 8). Completes (under these conditions on the state and
the operands alone, `exec` answers a next state with the effect): `xrf`, `xbfx`, `xsw`, `xdisp`, `xjr`. -/
def Obligations.SchedulerCoreInstructions : Prop :=
  (∀ (d r : BitVec 5) (s : State),
    let v := (Rules.xr s r).toNat
    let die := s.cur.die
    let x := qdesc s die v
    (4096 ≤ v → exec (.xrf r d) s = .next (Rules.scTrap s 1)) ∧
    (v < 4096 → x / 2 ^ 238 % 4 ≠ 1 → exec (.xrf r d) s = .next (Rules.scTrap s 2)) ∧
    (v < 4096 → x / 2 ^ 238 % 4 = 1 →
      (x / 2 ^ 64 % 2 ^ 64 = x / 2 ^ 128 % 2 ^ 64 → exec (.xrf r d) s = .next (Rules.scDone s d (BitVec.allOnes 64))) ∧
      (∀ tr, x / 2 ^ 64 % 2 ^ 64 ≠ x / 2 ^ 128 % 2 ^ 64 →
        isPoisoned s .phys tr.pa 64 = false → tagMismatch s .phys tr.pa 64 tr.kd = false →
        translate s (x / 2 ^ 216 % 2 ^ 12)
          (x % 2 ^ 64 + x / 2 ^ 64 % 2 ^ 64 % 2 ^ (x / 2 ^ 208 % 2 ^ 5) * 64) false false none = .ok tr →
        exec (.xrf r d) s = .next (Rules.scDone
          (Rules.withSc s fun c => { c with buf := agentBytes s .phys tr.pa 64 tr.kd, bufq := (v, x / 2 ^ 64 % 2 ^ 64) }) d
          (BitVec.ofNat 64 (x / 2 ^ 64)))))) ∧
  (∀ (n : BitVec 12) (d r : BitVec 5) (s : State),
    let pos := n.toNat % 2 ^ 6
    let len := n.toNat / 2 ^ 6 + 1
    (64 < pos + len → exec (.xbfx n r d) s = .next (Rules.scTrap s 3)) ∧
    (pos + len ≤ 64 → exec (.xbfx n r d) s = .next (Rules.scDone s d
      (BitVec.ofNat 64 ((Rules.xr s r).toNat / 2 ^ pos % 2 ^ len))))) ∧
  (∀ (t r d : BitVec 5) (s : State),
    let a := (Rules.xr s r).toNat
    let v := BitVec.ofNat 64 (readN s .phys a 8)
    (a % 8 ≠ 0 → exec (.xsw t r d) s = .next (Rules.scTrap s 4)) ∧
    (a % 8 = 0 → Config.hbmEnd < a + 8 → exec (.xsw t r d) s = .next (Rules.scTrap s 5)) ∧
    (a % 8 = 0 → a + 8 ≤ Config.hbmEnd →
      (v.toInt ≤ (Rules.xr s t).toInt →
        exec (.xsw t r d) s = .next (Rules.scDone (Rules.withSc s fun c => { c with wait := none }) d v)) ∧
      ((Rules.xr s t).toInt < v.toInt → (Rules.sc s).wait = none →
        exec (.xsw t r d) s = .next (Rules.withSc s fun c => { c with wait := some (d.toNat, a, Rules.xr s t, s.ns) })))) ∧
  (∀ (d r : BitVec 5) (s : State),
    let a := (Rules.xr s r).toNat
    let die := s.cur.die
    let c := Rules.sc s
    let x := qdesc s die c.bufq.1
    let rec_ := BitVec.ofNat 2048 (readN s (.cpLocal die) a 256)
    let n := launchCheck s die (x / 2 ^ 216 % 2 ^ 12) rec_
    let later := launchPending s die (x / 2 ^ 216 % 2 ^ 12) rec_
    (a % 256 ≠ 0 → exec (.xdisp r d) s = .next (Rules.scTrap s 6)) ∧
    (∀ ad e, a % 256 = 0 → later = some (ad, e) →
      exec (.xdisp r d) s = .next (startMove s die (x / 2 ^ 216 % 2 ^ 12) (ad / 65536) e.code)) ∧
    (a % 256 = 0 → later = none → n ≠ 0 → exec (.xdisp r d) s = .next
      (Rules.scDone (launchNotes s die (x / 2 ^ 216 % 2 ^ 12) rec_) d (BitVec.ofNat 64 n))) ∧
    (a % 256 = 0 → later = none → n = 0 → ∃ t g, exec (.xdisp r d) s = .next t ∧ t.grids = s.grids ++ [g] ∧ g.lrec = rec_ ∧
      g.queue = c.bufq.1 ∧ g.asid = x / 2 ^ 216 % 2 ^ 12 ∧ g.die = die ∧ t.mem = s.mem ∧ t.launched = true)) ∧
  (∀ (t r d : BitVec 5) (s : State),
    let j := (dieOf s s.cur.die).journal
    let n := (dieOf s s.cur.die).journalSeq
    (4096 ≤ j.length → exec (.xjr t r d) s = .next (Rules.scTrap s 7)) ∧
    (j.length < 4096 → exec (.xjr t r d) s = .next (Rules.scDone
      { s with dies := updAt s.cur.die (fun x => { x with
          journal := x.journal ++ [(n, Rules.xr s r, Rules.xr s t)], journalSeq := n + 1 }) s.dies } d (BitVec.ofNat 64 n))))

/-- R377, R383, R391: the firmware lock, feature acceptance, the integrity switch and the key policy. Completes (under
these conditions on the state and the operands alone, `exec` answers a next state with the effect): `fwrangeWrite`,
`feataccWrite`, `memcfgWrite`, `keypolWrite`. -/
def Obligations.TrustRegisters : Prop :=
  Rules.FirmwareLock ∧ Rules.FeatureAcceptance ∧ Rules.IntegritySwitch ∧ Rules.KeyPolicy

/-- R265, R336, R362, R387, R388, R389, R391: what a host write leaves in the other registers. The model's choices
(log 39): a write of MIGBASE leaves MIGTAIL and MIGHEAD, and QDESC_BASE counts as written whatever the value.
Completes (under these conditions on the state and the operands alone, `exec` answers a next state with the effect):
`ctxheapWrite`, `heapbwWrite`, `vfsliceWrite`, `pwrcapWrite`, `qdescBaseWrite`, `rcwinWrite`, `hooddropClear`,
`ringBaseWrite`, `ringConsWrite`, `migtailWrite`, `registerWrite`. -/
def Obligations.HostRegisters : Prop :=
  Rules.HeapRegisters ∧ Rules.SliceAndPower ∧ Rules.DieRegisters ∧ Rules.RingRegisters ∧ Rules.ReferenceCounts ∧
    Rules.PlainRegisters

/-- R161, R315, R345, R361, R363, R407: cluster kinds, changes of translation, pools, watches, mirroring and
notifications. The model's choices: a watch that is given other addresses holds no value (log 53), and of MIRCFG only
en is protected (log 39). Completes (under these conditions on the state and the operands alone, `exec` answers a next
state with the effect): `mircfgWrite`, `clkindWrite`, `clusterRebind`, `tlbinvWrite`, `tlbinvComplete`,
`pooladdWrite`, `confwatchWrite`, `signotifyWrite`. -/
def Obligations.HostControls : Prop :=
  Rules.KindChangeStarts ∧ Rules.KindChangeEnds ∧ Rules.TranslationChange ∧ Rules.PoolGrows ∧ Rules.WatchWrite ∧
    Rules.MirrorSwitch ∧ Rules.SignalNotified

/-- R10, R294, R308, R324, R355, R356, R374, R384: accesses by the host and by peers, writes of a part of a unit that
fails its tag, replies to posted faults, function-level reset. The model's choices: src, kind and ASID of the record
of a torn write (log 27), key domain 0 of the host path (log 37), the queues that a function-level reset reaches (log
50), and that nothing answers an access outside the regions (log 77). Completes (under these conditions on the state
and the operands alone, `exec` answers a next state with the effect): `faultreplyResume`, `faultreplyKill`,
`functionLevelReset`, `peerMemoryAccess`. -/
def Obligations.HostActions : Prop := Rules.PeerAccesses ∧ Rules.TornWrites ∧ Rules.FaultReplies ∧ Rules.FunctionReset

/-- R377 to R379, R386: reset, the boot ROM's verification and the start of firmware. The model's choices: memory and
stores are kept over a package reset (log 1), the reset values that no rule names (log 5), the details of boot and
that listed units are stored under a key that is gone (log 49). Completes (under these conditions on the state and the
operands alone, `exec` answers a next state with the effect): `packageReset`, `bootRomReady`, `firmwareVerify`. -/
def Obligations.ResetAndBoot : Prop := Rules.ResetAll ∧ Rules.Boot

/-- R380 to R382: attestation and key release. The model's choices: the order of the requests, and block 3 without the
locked bit (log 43); the contents that the spec leaves open are free (log 13). Completes (under these conditions on
the state and the operands alone, `exec` answers a next state with the effect): `getVersion`, `getCapabilities`,
`negotiateAlgorithms`, `getDigests`, `getCertificate`, `challenge`, `getMeasurements`, `keyExchange`, `finish`,
`keyrel`, `unsupportedRequest`. -/
def Obligations.Attestation : Prop := Rules.Exchange ∧ Rules.Measurements ∧ Rules.KeyRelease

/-- R384: the switch between virtual functions at the end of a slice. -/
def Sys2Proof.Claim.WorldSwitch : Prop := Rules.SliceEnds

/-- R308, R309, R325: doorbells, the start and the reset of a queue. -/
def Sys2Proof.Claim.QueueControl0 : Prop :=
  Rules.Doorbell ∧ Rules.QueueStarts ∧ Rules.QueueResets ∧ Rules.QueueResetReports

/-- R310 to R315: the four packet kinds, waiting barrier packets and owed signal updates. The model's choice (log 35):
a page of the side table that is to be resolved makes the launch check wait. Completes (under these conditions on the
state and the operands alone, `exec` answers a next state with the effect): `packetDispatch`, `packetBarrier`,
`barrierReevaluate`, `barrierRereadTimeout`, `packetSignal`, `packetDieTransfer`, `completionSignalUpdate`. -/
def Obligations.Packets : Prop :=
  Rules.SignalPacket ∧ Rules.TransferPacket ∧ Rules.DispatchPacket ∧ Rules.BarrierPacket ∧ Rules.BarrierRereads ∧
    Rules.SignalUpdates

/-- R305, R307: failing scheduler cores, the standby, and the end of a wait. -/
def Sys2Proof.Claim.SchedulerFailures : Prop := Rules.Standby ∧ Rules.WaitEnds

/-- R204, R208, R268, R313, R317: what the units of copies, transfers and multicasts move, and the signal
instructions' updates. The model's choice (log 70): a multicast reads its chunk where the block left it. Completes
(under these conditions on the state and the operands alone, `exec` answers a next state with the effect):
`signalInstructionUpdate`, `copyUnitPerformed`, `tensorCopyPart`, `mcastChunk`, `dieTransferPart`. -/
def Obligations.CopiesAndTransfersMove : Prop :=
  Rules.CopiesMove ∧ Rules.TransfersMove ∧ Rules.ChunksMove ∧ Rules.SignalInstructionPerforms

/-- R55, R228 to R231, R253: the k-steps of a matrix operation, its end, and the reset of a hung array. The model's choice
(log 90): which sums of a k-step set invalid where a quiet NaN meets infinities of opposite sign. Completes (under
these conditions on the state and the operands alone, `exec` answers a next state with the effect):
`mmaKstepComplete`, `arrayHangReset`. -/
def Obligations.MatrixSteps : Prop := Rules.PlusTimesKStep ∧ Rules.KStepsComplete ∧ Rules.HungArrayResets

/-- R179, R233, R234, R236 to R241: accumulator loads and stores, decoded and encoded weights. Completes (under these
conditions on the state and the operands alone, `exec` answers a next state with the effect): `tdecSector`,
`tdecQRow`, `vencBlock`, `accstSector`, `accldRead`, `twgetResult`. -/
def Obligations.ConvertingEnginesMove : Prop := Rules.AccumulatorMoves ∧ Rules.WeightsDecode ∧ Rules.WeightsEncode

/-- R29 to R33, R166: splits, forced paths, `fuse` holds that expire, the choice of a warp and of its paths. Completes
(under these conditions on the state and the operands alone, `exec` answers a next state with the effect):
`schedulingDecision`, `quadSplit`, `pathForced`, `fuseHoldExpiry`. -/
def Obligations.Scheduling : Prop :=
  Rules.SplitsAndForces ∧ Rules.FuseExpires ∧ Rules.LeastRecentWarp ∧ Rules.PathChoice

/-- R36, R150, R151, R171, R251, R324: beds, watchdogs, replays, and fault records that reach their ring. Completes
(under these conditions on the state and the operands alone, `exec` answers a next state with the effect):
`bedTimerExpiry`, `bedLaunch`, `watchdogExpiry`, `pathReplay`, `faultRecordPost`. -/
def Obligations.BedsWatchdogsReplays : Prop :=
  Rules.BedsLaunch ∧ Rules.WatchdogFires ∧ Rules.ParkedPathsReplay ∧ Rules.FaultRecordsPost

/-- R278 to R282: the debug controller stops, releases, steps, reads and writes. The model's choices: a step written
while step_busy is set makes no selection (log 30), a lane that is not live is refused (log 58), and what sets overrun
in the same cycle wins (log 89). Completes (under these conditions on the state and the operands alone, `exec` answers
a next state with the effect): `clusterStopped`, `debugGo`, `debugStep`, `dbgaccRead`, `dbgaccWrite`. -/
def Obligations.DebugController : Prop :=
  Rules.ClustersStop ∧ Rules.DebugGoes ∧ Rules.DebugSteps ∧ Rules.DebugAccesses

/-- R248, R263, R327, R328: placement rounds, starvation, and cuttings that return to beds. -/
def Sys2Proof.Claim.Placement0 : Prop := Rules.PlacementRounds ∧ Rules.Starvation ∧ Rules.RestoreLists

/-- R243 to R246, R250, R332, R337, R341: saves, flushes and saved contexts. Completes (under these conditions on the
state and the operands alone, `exec` answers a next state with the effect): `saveCapture`, `saveToDrain`,
`blockFlush`, `contextSaved`, `contextDiscard`. -/
def Obligations.Preemption : Prop :=
  Rules.SavesCapture ∧ Rules.SavedRegisters ∧ Rules.SavesDrain ∧ Rules.Flushes ∧ Rules.ContextsEnd

/-- R251, R342 to R344, R346: the coppice rotation and its scans. The model's choices: one report for each failing half (log
52), one entry for each block (log 80), and what a slot does whose closed core still scans or is free (log 57).
Completes (under these conditions on the state and the operands alone, `exec` answers a next state with the effect):
`coppiceSlot`, `coppiceScanStart`, `coppiceScanDone`. -/
def Obligations.Coppice : Prop := Rules.CoppiceSlots ∧ Rules.ScansStart ∧ Rules.ScansEnd

/-- R345 to R349, R375, R390: suspect reports, confirmed shadows, uncorrectable errors, partial-completion records.
The model's choices: an uncorrectable error outside HBM posts no memory error record (log 54), which data errors are
of a partial write (log 27), and what the firmware lock does to the device's own structures (log 84). Completes (under
these conditions on the state and the operands alone, `exec` answers a next state with the effect):
`partialCompletionRecord`, `suspectReport`, `confirmedShadowCopy`, `uncorrectableError`. -/
def Obligations.SilentErrors : Prop :=
  Rules.SuspectReports ∧ Rules.ShadowsCopy ∧ Rules.ErrorsPoison ∧ Rules.PartialRecords

/-- R368 to R371: copy-on-write, moves to tier 0, migration commands and demotions. The model's choices: a command for
an illegal target tier, for a target outside G-FAM or above 36 bits, with a reserved bit set, or for a page with a
move in progress is abandoned (log 76), and what the firmware lock does to the device's own structures (log 84).
Completes (under these conditions on the state and the operands alone, `exec` answers a next state with the effect):
`copyOnWriteResolution`, `tierMove`, `migrationCommand`, `demotionCopyDone`. -/
def Obligations.PagesMove : Prop :=
  Rules.CopyOnWrite ∧ Rules.MovesToTierZero ∧ Rules.MigrationCommands ∧ Rules.DemotionsEnd

/-- R410 to R413: checkpoint commands. The model's choices: a manifest entry has its digest at byte 32 (log 42), and
which store holds the shards (log 46). Completes (under these conditions on the state and the operands
alone, `exec` answers a next state with the effect): `checkpointSave`, `checkpointRestore`, `checkpointComplete`. -/
def Obligations.Checkpoints : Prop := Rules.CommandsRefuse ∧ Rules.CheckpointSaves ∧ Rules.CheckpointRestores

/-- R394, R395, R397, R400, R402, R404: flits of requests at their target. The model's choices: a combine flit carries
operation and step in arg (log 41), and a sector that ends in error is answered without data (log 44). Completes
(under these conditions on the state and the operands alone, `exec` answers a next state with the effect):
`ngurothPutFlit`, `getRequest`, `getData`, `acknowledgement`, `combine`, `remoteSignalFlit`, `mirrorFlit`. -/
def Obligations.FabricRequests : Prop := Rules.FlitsDrop ∧ Rules.RequestsServe ∧ Rules.RemoteSignals

/-- R295, R395, R400, R402, R408, R409: answers, mirrored writes and ports. The model's choices: a lost partner
interrupts by die 0 (log 45), and only a duplicate that was sent can be acknowledged (log 44). Completes (under these
conditions on the state and the operands alone, `exec` answers a next state with the effect): `getData`,
`acknowledgement`, `mirrorFlit`, `mirrorAck`, `mirrorAckTimeout`, `sectorAckTimeout`, `portDown`, `portUp`. -/
def Obligations.FabricAnswers : Prop := Rules.AnswersLand ∧ Rules.MirrorsApply ∧ Rules.MirrorsAndPorts

/-! ## The machine as a whole -/

/-- R19, R20: a written register field reads back, field 127 reads 0 and keeps nothing, and a write leaves every other
register, predicate and part of the thread as it was. -/
def Obligations.RegistersHold : Prop :=
  ∀ (t : Thread) (n : Nat) (x : Word), n < 128 → t.g.length = 15 →
    (n < 112 → 16 * t.wb.toNat + n < t.v.length →
      (t.setReg n x).reg n = x ∧ t.setReg n x = { t with v := t.v.set (16 * t.wb.toNat + n) x } ∧
      t.reg n = t.v.getD (16 * t.wb.toNat + n) 0) ∧
    (112 ≤ n → n < 127 →
      (t.setReg n x).reg n = x ∧ t.setReg n x = { t with g := t.g.set (n - 112) x } ∧ t.reg n = t.g.getD (n - 112) 0) ∧
    (n = 127 → t.setReg n x = t ∧ t.reg n = 0#32) ∧
    (∀ m, m < 128 → m ≠ n → (t.setReg n x).reg m = t.reg m)

/-- R9: bytes written read back little-endian, every other byte of every space is as it was, and memory keeps its
canonical form (log 1). -/
def Obligations.MemoryReadsBack : Prop :=
  ∀ (s : State), Rules.Canonical s → ∀ (sp : Space) (a n v : Nat),
    let t := writeN s sp a n v
    Rules.Canonical t ∧ readN t sp a n = v % 256 ^ n ∧
    ∀ sp' x, ¬(sp' = sp ∧ a ≤ x ∧ x < a + n) → readByte t sp' x = readByte s sp' x

/-- R29, R67, R169, R304, R415: a step takes the next turn of the agenda; time passes, and the agent of the turn runs the
instruction that the word it fetches decodes to. The agenda is the model's own (log 3). -/
def Obligations.StepRunsTheDecodedInstruction : Prop :=
  Rules.TimePasses ∧ Rules.IssueTurns ∧ Rules.SchedulerTurns ∧ Rules.OtherTurns

/-- R147 to R152, R324: taking an exception. -/
def Obligations.ExceptionEntry : Prop :=
  Rules.NinthRecordWaits ∧ Rules.HostFaultsPost ∧ Rules.ResolvableFaultsMove ∧ Rules.FatalFaultsEnd ∧
    Rules.KillPathFaultsPost

/-- R20, R28, R67, R68, R70, R383: what stands before the effect of every thread instruction, in order. -/
def Obligations.ChecksBeforeIssue : Prop := Rules.ChecksInOrder

/-- R265, R336, R356, R377, R387, R389, R391, R415: what the spec gives a value at reset, and BADPTE. That BADPTE is 0 is the
model's choice (log 5): no rule gives it a value. -/
def Obligations.ResetValues : Prop :=
  let s := State.reset
  s.ns = 0 ∧ s.dies.length = 4 ∧ (∀ d ∈ s.dies, d.cycles = 0 ∧ d.qdescBase = 0 ∧ d.copFails = 0 ∧ d.badpte = 0) ∧
  s.memcfg = 1#32 ∧ s.launched = false ∧ s.vfslice.toNat / 2 ^ 17 = 1000 ∧ s.vfslice.toNat % 2 ^ 17 = 10000 ∧
  s.keypol.toNat % 2 ^ 8 = 255 ∧ s.heapbw = 64#32 ∧ s.peermap = [] ∧ s.fwlock = false ∧ s.keys = [] ∧
  s.featWritten = [false, false, false, false]

/-- The state after reset meets the invariants of this file: canonical memory, and no operation with an id still to be
given. -/
def Obligations.ResetMeetsInvariants : Prop := Rules.Canonical State.reset ∧ Rules.freshIds State.reset

/-- Every step keeps memory and every local store in canonical form (log 1), so equal contents are equal data. -/
def Obligations.MemoryStaysCanonical : Prop := ∀ s t : State, step s = .next t → Rules.Canonical s → Rules.Canonical t

/-- Every step keeps the ids of operations, running and saved, below the next id to be given, so that no two operations
are taken for one (R291). -/
def Obligations.IdsStayFresh : Prop := ∀ s t : State, step s = .next t → Rules.freshIds s → Rules.freshIds t

/-- R356, R377, R382, R383, R391: what is locked stays until a package reset, and only a key release loads keys. -/
def Obligations.LockedTrustHolds : Prop := Rules.TrustHolds

/-- R16, R147 to R154: every instruction answers a next state from every state; the part records its faults and goes on. -/
def Obligations.EveryInstructionGoesOn : Prop := ∀ (i : Instr) (s : State), ∃ t, exec i s = .next t

/-- R61 to R67: decoding reads back what encoding wrote, for every well-formed thread instruction and every Xlorekq
instruction (R304), and every word that decodes is the encoding of what it decodes to. -/
def Obligations.EncodingRoundTrip : Prop :=
  (∀ i : Instr, isThread i = true → wellFormed i = true → encode i < 2 ^ 32 ∧ decodeWord (encode i) = .ok i) ∧
  (∀ i : Instr, fetched i = true → isThread i = false → encodeX i < 2 ^ 32 ∧ encodeX i % 128 = 11 ∧
    decodeX (encodeX i) = .ok i) ∧
  (∀ (w : Nat) (i : Instr), decodeWord w = .ok i → isThread i = true ∧ wellFormed i = true ∧ encode i = w) ∧
  (∀ (w : Nat) (i : Instr), decodeX w = .ok i → fetched i = true ∧ isThread i = false ∧ encodeX i = w)

/-- R61 to R74: words of the spec's tables and programs decode to the instructions they stand for, and the all-zero and
all-one words to none (R67). -/
def Obligations.DecodeWords : Prop :=
  decodeWord 0x00184E41 = .ok (.add 3 4 114) ∧ decodeWord 0x0C083082 = .ok (.cmp 1 3 4 2) ∧
  decodeWord 0x702860E1 = .ok (.uadd 5 6 7) ∧ decodeWord 0x3817FFFB = .ok (.movi 2 0x7FFFB) ∧
  decodeWord 0xF8001046 = .ok (.guard 1 2) ∧ decodeWord 0x00780089 = .ok (.sra 15 0 4) ∧
  decodeWord 0x18820506 = .ok (.div 2 4 5 6) ∧ decodeWord 0x44307100 = .ok (.ffma 6 7 8 0) ∧
  decodeWord 0xF8000003 = .ok .exit ∧ decodeWord 0 = .error 1 ∧ decodeWord 0xFFFFFFFF = .error 1 ∧
  decodeX 0x0005850B = .ok (.xrf 11 10) ∧ decodeX 0x0005B50B = .ok (.xdisp 11 10)

/-! ## Families together -/

/-- R81, R83 to R90, R96, R97: two-register, immediate, multiply, count, select, broadcast, address and carry
instructions. Completes (under these conditions on the state and the operands alone, `exec` answers a next state with
the effect): `add`, `sub`, `and`, `or`, `xor`, `andn`, `shl`, `shr`, `sra`, `rotl`, `min`, `max`, `minu`, `maxu`,
`addsat`, `subsat`, `mul`, `mulhi`, `mulhu`, `dot4s`, `dot4u`, `popc`, `clz`, `ctz`, `brev`, `abs`, `lea`, `leas`,
`addc`, `subc`, `sel`, `seln`, `addi`, `andi`, `ori`, `xori`, `shli`, `shri`, `srai`, `rotli`, `bfx`, `bfxs`, `bfi`,
`movi`, `movhi`, `bcast`. -/
def Obligations.IntegerArithmetic : Prop :=
  Claim.TwoRegisterInteger ∧ Claim.MultiplyAndCount ∧ Claim.ImmediateForms ∧ Claim.SelectAndBroadcast ∧ Claim.AddressArithmetic ∧ Claim.CarryChain

/-- R82, R83, R87, R90, R94, R95, R97: uniform instructions, comparisons and the operations on predicates. Completes
(under these conditions on the state and the operands alone, `exec` answers a next state with the effect): `uadd`,
`usub`, `uand`, `uor`, `uxor`, `uandn`, `ushl`, `ushr`, `usra`, `urotl`, `umin`, `umax`, `uminu`, `umaxu`, `uaddsat`,
`usubsat`, `cmp`, `pand`, `por`, `pxor`, `pandn`, `pnot`, `pmov`, `pset`, `pclr`, `uaddi`, `umovi`, `rdfirst`. -/
def Obligations.UniformsAndPredicates : Prop :=
  Claim.UniformInteger ∧ Claim.PredicateResults

/-- R112 to R120, R128: floating-point results with their flags, comparisons and classes. Completes (under these
conditions on the state and the operands alone, `exec` answers a next state with the effect): `fadd`, `fsub`, `fmul`,
`fmin`, `fmax`, `ffma`, `ffms`, `ffnma`, `bfadd2`, `bfsub2`, `bfmul2`, `bfmin2`, `bfmax2`, `bffma2`, `bffms2`,
`bffnma2`, `fcmp`, `fabs`, `fneg`, `fclass`, `bfabs2`, `bfneg2`, `rcp`, `rsqrt`, `sqrt`, `exp2`, `log2`, `sin`, `cos`,
`cvt`. -/
def Obligations.FloatArithmetic : Prop :=
  Claim.FloatResultsAndFlags ∧ Claim.CompareAndClassify

/-- R45 to R47, R120: special functions at the inputs of their table, and rounding of exact values. -/
def Obligations.SpecialFunctions : Prop :=
  Claim.SpecialInputs ∧ Claim.ExactValuesRoundToThemselves

/-- R110, R111, R122, R123, R125 to R127: the flag register, and the activation tables. Completes (under these
conditions on the state and the operands alone, `exec` answers a next state with the effect): `sfe`, `sfe2`, `flrd`,
`flclr`. -/
def Obligations.FlagsAndActivation : Prop :=
  Claim.FlagRegister ∧ Claim.ActivationTable

/-- R98, R99, R101: branches, calls, jumps and returns. Completes (under these conditions on the state and the
operands alone, `exec` answers a next state with the effect): `bra`, `call`, `jmp`, `callr`, `ret`. -/
def Obligations.ControlTransfer : Prop :=
  Claim.BranchAndCall ∧ Claim.RegisterTransfer

/-- R33, R72, R103, R105, R107, R145, R417: guards, `fuse`, the window base, cache hints and `nop`. Completes (under
these conditions on the state and the operands alone, `exec` answers a next state with the effect): `pfl1`, `pfl2`,
`evl1`, `fuse`, `guard`, `guardN`, `wbase`, `nop`. -/
def Obligations.GuardsAndHints : Prop :=
  Claim.GuardWindow ∧ Claim.FuseHolds ∧ Claim.WindowBase ∧ Claim.CacheHints

/-- R102, R104, R154: the user trap, and threads that end. Completes (under these conditions on the state and the
operands alone, `exec` answers a next state with the effect): `exit`, `trap`. -/
def Obligations.TrapsAndExits : Prop :=
  Claim.UserTrap ∧ Claim.ExitEndsThreads

/-- R22, R194 to R196: loop entry, the way back and the way out. Completes (under these conditions on the state and the
operands alone, `exec` answers a next state with the effect): `loop`, `loopLong`, `brk`, `nop`. -/
def Obligations.Loops : Prop :=
  Claim.LoopEntry ∧ Claim.LoopAgain ∧ Claim.LoopBreak

/-- R24, R25, R106, R216 to R218: system values, and exchanges between lanes. Completes (under these conditions on the
state and the operands alone, `exec` answers a next state with the effect): `xlaneAt`, `xlaneBack`, `xlaneFwd`,
`xlaneSwz`, `push`, `scanAdd`, `scanAddx`, `scanMin`, `scanMax`, `pgath`, `pall`, `pany`, `lsame`, `lsameAll`,
`lfoldAdd`, `lfoldMin`, `lfoldMax`, `lfoldAnd`, `lfoldOr`, `lfoldXor`, `movs`. -/
def Obligations.ValuesAndExchanges : Prop :=
  Claim.SystemValues ∧ Claim.LaneExchanges

/-- R199 to R201, R222: per-warp registers, `yield` and the gang register. Completes (under these conditions on the
state and the operands alone, `exec` answers a next state with the effect): `idem`, `idemx`, `yield`, `lxbase`,
`lxext0`, `lxext1`, `lxext2`, `lxext3`, `gkset`, `gkrd`. -/
def Obligations.WarpState : Prop :=
  Claim.WarpRegisters ∧ Claim.YieldLoadsWatchdog ∧ Claim.GangRegister

/-- R296 to R298, R301: fence tokens and the waits for them. Completes (under these conditions on the state and the
operands alone, `exec` answers a next state with the effect): `fenceEng`, `fenceSys`, `fenceMir`, `fenceAll`, `fwait`,
`waitcLd`, `waitcSt`. -/
def Obligations.Fences : Prop :=
  Claim.FenceTokens ∧ Claim.FenceWaits

/-- R69, R91 to R93: what divisions start and what they write. Completes (under these conditions on the state and the
operands alone, `exec` answers a next state with the effect): `div`, `divu`, `rem`, `remu`, `divideResult`. -/
def Obligations.Divisions : Prop :=
  Claim.DivideStarts ∧ Claim.DivideResultWrites

/-- R134 to R144, R149, R265, R270 to R273: how loads, stores and atomics issue, and what their checks raise.
Completes (under these conditions on the state and the operands alone, `exec` answers a next state with the effect):
`ldg`, `lds`, `ldh`, `stg`, `sts`, `sth`, `ldsys`, `stsys`, `atomg`, `atoms`, `atomh`. -/
def Obligations.AccessIssue : Prop :=
  Claim.AccessStarts ∧ Claim.MisalignedAccess ∧ Claim.LaneChecks

/-- R140, R141, R143, R144, R265, R271, R272, R274, R377: loads return, stores are performed, atomics apply. Completes
(under these conditions on the state and the operands alone, `exec` answers a next state with the effect):
`loadDataReturn`, `storePerformed`, `atomicElementApply`, `hoodAccessArrival`, `systemStoreAcknowledged`. -/
def Obligations.AccessPerformed : Prop :=
  Claim.LoadReturns ∧ Claim.StorePerforms ∧ Claim.AtomicApplies

/-- R213, R214, R269, R322: warp, block, cluster and grid barriers. Completes (under these conditions on the state and
the operands alone, `exec` answers a next state with the effect): `barw`, `barb`, `barc`, `barg`,
`gridBarrierBlockArrival`. -/
def Obligations.Barriers : Prop :=
  Claim.ThreadBarriers ∧ Claim.GridBarrierArrival

/-- R181, R202 to R204, R206 to R208, R266 to R268: lane copies, tensor copies and multicasts start. Completes (under
these conditions on the state and the operands alone, `exec` answers a next state with the effect): `cpy`, `tld`,
`tst`, `mcast`. -/
def Obligations.CopiesStart : Prop :=
  Claim.CopyStarts ∧ Claim.TensorCopyStarts ∧ Claim.MulticastStarts

/-- R233 to R241: the converting engines and the late reads start. Completes (under these conditions on the state and
the operands alone, `exec` answers a next state with the effect): `accld`, `accst`, `tdec`, `tdecQ`, `venc`, `twget`.
-/
def Obligations.ConvertersStart : Prop :=
  Claim.ConvertingEnginesStart ∧ Claim.LateReadsStart

/-- R313, R317, R318, R398 to R405: fabric operations, signal instructions and die transfers start. Completes (under
these conditions on the state and the operands alone, `exec` answers a next state with the effect): `nput`, `nget`,
`ncoll`, `nscmax`, `nsum`, `dxfer`, `sigst`, `sigadd`. -/
def Obligations.FabricStarts : Prop :=
  Claim.FabricOperationsStart ∧ Claim.SignalsAndTransfersStart

/-- R121, R124 to R127, R129 to R132, R178, R347: table loads and switches, and conversion to n4x. The model's
choices: `cvto` stores its side list in the issuing step (log 24), the poison of a header is raised before the check
of its content (log 19), and an entry is read where the block left it (log 70). Completes (under these conditions on
the state and the operands alone, `exec` answers a next state with the effect): `tblld`, `tblsw`, `cvto`, `tblldCopy`. -/
def Obligations.TablesAndN4x : Prop :=
  Claim.TableLoadAndSwitch ∧ Claim.ConvertToN4x

/-- R35, R170, R197, R198, R211, R212: operand slots and cuttings. Completes (under these conditions on the state and
the operands alone, `exec` answers a next state with the effect): `slotClaim`, `slotRel`, `spawn`. -/
def Obligations.SlotsAndSpawns : Prop :=
  Claim.OperandSlots ∧ Claim.SpawnFillsBeds

/-- R248, R263, R327, R328, R384: placement rounds, starvation, restore lists and the end of a time slice. The model's
choices: the next function is the next in rising cyclic order (log 33), and which cores a starving grid reserves (log
34). Completes (under these conditions on the state and the operands alone, `exec` answers a next state with the
effect): `worldSwitch`, `placementRound`, `restoreListEntry`, `neighbourhoodStarving`. -/
def Obligations.Placement : Prop :=
  Claim.Placement0 ∧ Claim.WorldSwitch

/-- R4, R305, R307 to R309, R325: doorbells, queue commands, and scheduler cores that fail or wait. Completes (under these
conditions on the state and the operands alone, `exec` answers a next state with the effect): `qtailWrite`,
`queueStart`, `queueReset`, `queueResetReport`, `schedulerCoreFailed`, `standbyTakeover`, `xswWaitTimeout`. -/
def Obligations.QueueControl : Prop :=
  Claim.QueueControl0 ∧ Claim.SchedulerFailures
end

