-- ==== Sys2Proof/Laws/Lists.lean ====
section
/-! SUPPORT. Lists, masks and bits: what the helper functions of Machine/Bits.lean compute. -/

namespace Sys2Proof.Laws

open Sys2Proof.Machine

theorem mem_laneList {m : BitVec 32} {k : Nat} : k ∈ laneList m ↔ m.getLsbD k = true := by
  simp only [laneList, List.mem_filter, List.mem_range]
  constructor
  · exact fun h => h.2
  · exact fun h => ⟨BitVec.lt_of_getLsbD h, h⟩

theorem getLsbD_foldl_or (l : List Nat) (m : BitVec 32) (k : Nat) :
    (l.foldl (fun m k => m ||| BitVec.ofNat 32 (2 ^ k)) m).getLsbD k =
      (m.getLsbD k || decide (k < 32 ∧ k ∈ l)) := by
  induction l generalizing m with
  | nil => simp
  | cons a t ih =>
    simp only [List.foldl_cons, ih, BitVec.getLsbD_or, BitVec.getLsbD_ofNat, Nat.testBit_two_pow,
      List.mem_cons]
    by_cases h1 : a = k
    · subst h1; by_cases h2 : a < 32 <;> simp [h2]
    · have : k ≠ a := fun h => h1 h.symm
      simp [h1, this]

theorem getLsbD_maskOf (l : List Nat) (k : Nat) : (maskOf l).getLsbD k = decide (k < 32 ∧ k ∈ l) := by
  unfold maskOf; rw [getLsbD_foldl_or]; simp

theorem getLsbD_pathAct {s : State} {p : Path} (h : pathOf s = some p) {k : Nat} :
    p.act.getLsbD k = (p.lanes.getLsbD k && (p.th k).enabled) := by
  unfold pathOf at h
  simp only at h
  split at h
  · cases h
  · split at h
    · cases h
    · split at h
      · cases h
        simp only [getLsbD_maskOf, List.mem_filter, mem_laneList, Path.th]
        by_cases hk : k < 32
        · simp [hk]
        · simp [hk, BitVec.getLsbD_of_ge s.cur.lanes k (by omega)]
      · cases h

theorem updAt_map_self {α β : Type} (g : α → β) (i : Nat) (f : α → α) (l : List α) (h : ∀ x, g (f x) = g x) :
    (updAt i f l).map g = l.map g := by
  apply List.ext_getElem
  · simp [updAt]
  · intro n h1 h2
    simp only [updAt, List.getElem_mapIdx, List.getElem_map]
    split <;> simp [h]

theorem updWhere_map_self {α β : Type} (g : α → β) (q : α → Bool) (f : α → α) (l : List α) (h : ∀ x, g (f x) = g x) :
    (updWhere q f l).map g = l.map g := by
  unfold updWhere
  rw [List.map_map]
  apply List.map_congr_left
  intro x _
  simp only [Function.comp]
  split <;> simp [h]

theorem getD_mapIdx {α : Type} (f : Nat → α → α) (l : List α) (k : Nat) (d : α) :
    (l.mapIdx f).getD k d = if k < l.length then f k (l.getD k d) else d := by
  simp only [List.getD_eq_getElem?_getD, List.getElem?_mapIdx]
  split
  · rename_i h
    simp [List.getElem?_eq_getElem h]
  · rename_i h
    simp [List.getElem?_eq_none (Nat.le_of_not_lt h)]

theorem find?_map_of {α : Type} (q : α → Bool) (f : α → α) (l : List α) (h : ∀ x, q (f x) = q x) :
    (l.map f).find? q = (l.find? q).map f := by
  induction l with
  | nil => rfl
  | cons a t ih =>
    simp only [List.map_cons, List.find?_cons, h]
    split <;> simp [ih]

end Sys2Proof.Laws
end

