-- ==== Sys2Proof/Laws/State.lean ====
section
/-! SUPPORT. What each named update leaves of the state: one lemma for each field that it does not touch, and the value
it gives the field that it does. -/

namespace Sys2Proof.Laws

open Sys2Proof.Machine

variable (s : State)

/-! ### `setCore` -/

@[simp] theorem setCore_agenda (c : Core) : (setCore s c).agenda = s.agenda := rfl
@[simp] theorem setCore_cur (c : Core) : (setCore s c).cur = s.cur := rfl
@[simp] theorem setCore_ns (c : Core) : (setCore s c).ns = s.ns := rfl
@[simp] theorem setCore_mem (c : Core) : (setCore s c).mem = s.mem := rfl
@[simp] theorem setCore_locals (c : Core) : (setCore s c).locals = s.locals := rfl
@[simp] theorem setCore_poison (c : Core) : (setCore s c).poison = s.poison := rfl
@[simp] theorem setCore_keyGen (c : Core) : (setCore s c).keyGen = s.keyGen := rfl
@[simp] theorem setCore_unitKd (c : Core) : (setCore s c).unitKd = s.unitKd := rfl
@[simp] theorem setCore_rmwBad (c : Core) : (setCore s c).rmwBad = s.rmwBad := rfl
@[simp] theorem setCore_codeLog (c : Core) : (setCore s c).codeLog = s.codeLog := rfl
@[simp] theorem setCore_keys (c : Core) : (setCore s c).keys = s.keys := rfl
@[simp] theorem setCore_counts (c : Core) : (setCore s c).counts = s.counts := rfl
@[simp] theorem setCore_poolHead (c : Core) : (setCore s c).poolHead = s.poolHead := rfl
@[simp] theorem setCore_dies (c : Core) : (setCore s c).dies = s.dies := rfl
@[simp] theorem setCore_grids (c : Core) : (setCore s c).grids = s.grids := rfl
@[simp] theorem setCore_ops (c : Core) : (setCore s c).ops = s.ops := rfl
@[simp] theorem setCore_contexts (c : Core) : (setCore s c).contexts = s.contexts := rfl
@[simp] theorem setCore_moves (c : Core) : (setCore s c).moves = s.moves := rfl
@[simp] theorem setCore_mirrors (c : Core) : (setCore s c).mirrors = s.mirrors := rfl
@[simp] theorem setCore_ports (c : Core) : (setCore s c).ports = s.ports := rfl
@[simp] theorem setCore_out (c : Core) : (setCore s c).out = s.out := rfl
@[simp] theorem setCore_nextId (c : Core) : (setCore s c).nextId = s.nextId := rfl
@[simp] theorem setCore_fresh (c : Core) : (setCore s c).fresh = s.fresh := rfl
@[simp] theorem setCore_form (c : Core) : (setCore s c).form = s.form := rfl
@[simp] theorem setCore_fuseDigest (c : Core) : (setCore s c).fuseDigest = s.fuseDigest := rfl
@[simp] theorem setCore_fuseSvn (c : Core) : (setCore s c).fuseSvn = s.fuseSvn := rfl
@[simp] theorem setCore_measFw (c : Core) : (setCore s c).measFw = s.measFw := rfl
@[simp] theorem setCore_fwpass (c : Core) : (setCore s c).fwpass = s.fwpass := rfl
@[simp] theorem setCore_badrange (c : Core) : (setCore s c).badrange = s.badrange := rfl
@[simp] theorem setCore_denied (c : Core) : (setCore s c).denied = s.denied := rfl
@[simp] theorem setCore_ready (c : Core) : (setCore s c).ready = s.ready := rfl
@[simp] theorem setCore_passed (c : Core) : (setCore s c).passed = s.passed := rfl
@[simp] theorem setCore_fwrange (c : Core) : (setCore s c).fwrange = s.fwrange := rfl
@[simp] theorem setCore_fwlock (c : Core) : (setCore s c).fwlock = s.fwlock := rfl
@[simp] theorem setCore_measgen (c : Core) : (setCore s c).measgen = s.measgen := rfl
@[simp] theorem setCore_keypol (c : Core) : (setCore s c).keypol = s.keypol := rfl
@[simp] theorem setCore_keypolLocked (c : Core) : (setCore s c).keypolLocked = s.keypolLocked := rfl
@[simp] theorem setCore_memcfg (c : Core) : (setCore s c).memcfg = s.memcfg := rfl
@[simp] theorem setCore_featacc (c : Core) : (setCore s c).featacc = s.featacc := rfl
@[simp] theorem setCore_featWritten (c : Core) : (setCore s c).featWritten = s.featWritten := rfl
@[simp] theorem setCore_ctxBase (c : Core) : (setCore s c).ctxBase = s.ctxBase := rfl
@[simp] theorem setCore_ctxSize (c : Core) : (setCore s c).ctxSize = s.ctxSize := rfl
@[simp] theorem setCore_heapbw (c : Core) : (setCore s c).heapbw = s.heapbw := rfl
@[simp] theorem setCore_pwrcap (c : Core) : (setCore s c).pwrcap = s.pwrcap := rfl
@[simp] theorem setCore_vfslice (c : Core) : (setCore s c).vfslice = s.vfslice := rfl
@[simp] theorem setCore_fabnode (c : Core) : (setCore s c).fabnode = s.fabnode := rfl
@[simp] theorem setCore_asidtab (c : Core) : (setCore s c).asidtab = s.asidtab := rfl
@[simp] theorem setCore_tlbinv (c : Core) : (setCore s c).tlbinv = s.tlbinv := rfl
@[simp] theorem setCore_tlbBusy (c : Core) : (setCore s c).tlbBusy = s.tlbBusy := rfl
@[simp] theorem setCore_launched (c : Core) : (setCore s c).launched = s.launched := rfl
@[simp] theorem setCore_mircfg (c : Core) : (setCore s c).mircfg = s.mircfg := rfl
@[simp] theorem setCore_mirin (c : Core) : (setCore s c).mirin = s.mirin := rfl
@[simp] theorem setCore_mirBroken (c : Core) : (setCore s c).mirBroken = s.mirBroken := rfl
@[simp] theorem setCore_ckerr (c : Core) : (setCore s c).ckerr = s.ckerr := rfl
@[simp] theorem setCore_ckshard (c : Core) : (setCore s c).ckshard = s.ckshard := rfl
@[simp] theorem setCore_ckpt (c : Core) : (setCore s c).ckpt = s.ckpt := rfl
@[simp] theorem setCore_fabwin (c : Core) : (setCore s c).fabwin = s.fabwin := rfl
@[simp] theorem setCore_peermap (c : Core) : (setCore s c).peermap = s.peermap := rfl
@[simp] theorem setCore_activeVf (c : Core) : (setCore s c).activeVf = s.activeVf := rfl
@[simp] theorem setCore_sliceNs (c : Core) : (setCore s c).sliceNs = s.sliceNs := rfl
@[simp] theorem setCore_pmcs (c : Core) : (setCore s c).pmcs = s.pmcs := rfl
@[simp] theorem setCore_spdm (c : Core) : (setCore s c).spdm = s.spdm := rfl
@[simp] theorem setCore_justSet (c : Core) : (setCore s c).justSet = s.justSet := rfl

/-! ### `modCore` -/

@[simp] theorem modCore_agenda (d q : Nat) (f : Core → Core) : (modCore s d q f).agenda = s.agenda := rfl
@[simp] theorem modCore_cur (d q : Nat) (f : Core → Core) : (modCore s d q f).cur = s.cur := rfl
@[simp] theorem modCore_ns (d q : Nat) (f : Core → Core) : (modCore s d q f).ns = s.ns := rfl
@[simp] theorem modCore_mem (d q : Nat) (f : Core → Core) : (modCore s d q f).mem = s.mem := rfl
@[simp] theorem modCore_locals (d q : Nat) (f : Core → Core) : (modCore s d q f).locals = s.locals := rfl
@[simp] theorem modCore_poison (d q : Nat) (f : Core → Core) : (modCore s d q f).poison = s.poison := rfl
@[simp] theorem modCore_keyGen (d q : Nat) (f : Core → Core) : (modCore s d q f).keyGen = s.keyGen := rfl
@[simp] theorem modCore_unitKd (d q : Nat) (f : Core → Core) : (modCore s d q f).unitKd = s.unitKd := rfl
@[simp] theorem modCore_rmwBad (d q : Nat) (f : Core → Core) : (modCore s d q f).rmwBad = s.rmwBad := rfl
@[simp] theorem modCore_codeLog (d q : Nat) (f : Core → Core) : (modCore s d q f).codeLog = s.codeLog := rfl
@[simp] theorem modCore_keys (d q : Nat) (f : Core → Core) : (modCore s d q f).keys = s.keys := rfl
@[simp] theorem modCore_counts (d q : Nat) (f : Core → Core) : (modCore s d q f).counts = s.counts := rfl
@[simp] theorem modCore_poolHead (d q : Nat) (f : Core → Core) : (modCore s d q f).poolHead = s.poolHead := rfl
@[simp] theorem modCore_dies (d q : Nat) (f : Core → Core) : (modCore s d q f).dies = s.dies := rfl
@[simp] theorem modCore_grids (d q : Nat) (f : Core → Core) : (modCore s d q f).grids = s.grids := rfl
@[simp] theorem modCore_ops (d q : Nat) (f : Core → Core) : (modCore s d q f).ops = s.ops := rfl
@[simp] theorem modCore_contexts (d q : Nat) (f : Core → Core) : (modCore s d q f).contexts = s.contexts := rfl
@[simp] theorem modCore_moves (d q : Nat) (f : Core → Core) : (modCore s d q f).moves = s.moves := rfl
@[simp] theorem modCore_mirrors (d q : Nat) (f : Core → Core) : (modCore s d q f).mirrors = s.mirrors := rfl
@[simp] theorem modCore_ports (d q : Nat) (f : Core → Core) : (modCore s d q f).ports = s.ports := rfl
@[simp] theorem modCore_out (d q : Nat) (f : Core → Core) : (modCore s d q f).out = s.out := rfl
@[simp] theorem modCore_nextId (d q : Nat) (f : Core → Core) : (modCore s d q f).nextId = s.nextId := rfl
@[simp] theorem modCore_fresh (d q : Nat) (f : Core → Core) : (modCore s d q f).fresh = s.fresh := rfl
@[simp] theorem modCore_form (d q : Nat) (f : Core → Core) : (modCore s d q f).form = s.form := rfl
@[simp] theorem modCore_fuseDigest (d q : Nat) (f : Core → Core) : (modCore s d q f).fuseDigest = s.fuseDigest := rfl
@[simp] theorem modCore_fuseSvn (d q : Nat) (f : Core → Core) : (modCore s d q f).fuseSvn = s.fuseSvn := rfl
@[simp] theorem modCore_measFw (d q : Nat) (f : Core → Core) : (modCore s d q f).measFw = s.measFw := rfl
@[simp] theorem modCore_fwpass (d q : Nat) (f : Core → Core) : (modCore s d q f).fwpass = s.fwpass := rfl
@[simp] theorem modCore_badrange (d q : Nat) (f : Core → Core) : (modCore s d q f).badrange = s.badrange := rfl
@[simp] theorem modCore_denied (d q : Nat) (f : Core → Core) : (modCore s d q f).denied = s.denied := rfl
@[simp] theorem modCore_ready (d q : Nat) (f : Core → Core) : (modCore s d q f).ready = s.ready := rfl
@[simp] theorem modCore_passed (d q : Nat) (f : Core → Core) : (modCore s d q f).passed = s.passed := rfl
@[simp] theorem modCore_fwrange (d q : Nat) (f : Core → Core) : (modCore s d q f).fwrange = s.fwrange := rfl
@[simp] theorem modCore_fwlock (d q : Nat) (f : Core → Core) : (modCore s d q f).fwlock = s.fwlock := rfl
@[simp] theorem modCore_measgen (d q : Nat) (f : Core → Core) : (modCore s d q f).measgen = s.measgen := rfl
@[simp] theorem modCore_keypol (d q : Nat) (f : Core → Core) : (modCore s d q f).keypol = s.keypol := rfl
@[simp] theorem modCore_keypolLocked (d q : Nat) (f : Core → Core) : (modCore s d q f).keypolLocked = s.keypolLocked := rfl
@[simp] theorem modCore_memcfg (d q : Nat) (f : Core → Core) : (modCore s d q f).memcfg = s.memcfg := rfl
@[simp] theorem modCore_featacc (d q : Nat) (f : Core → Core) : (modCore s d q f).featacc = s.featacc := rfl
@[simp] theorem modCore_featWritten (d q : Nat) (f : Core → Core) : (modCore s d q f).featWritten = s.featWritten := rfl
@[simp] theorem modCore_ctxBase (d q : Nat) (f : Core → Core) : (modCore s d q f).ctxBase = s.ctxBase := rfl
@[simp] theorem modCore_ctxSize (d q : Nat) (f : Core → Core) : (modCore s d q f).ctxSize = s.ctxSize := rfl
@[simp] theorem modCore_heapbw (d q : Nat) (f : Core → Core) : (modCore s d q f).heapbw = s.heapbw := rfl
@[simp] theorem modCore_pwrcap (d q : Nat) (f : Core → Core) : (modCore s d q f).pwrcap = s.pwrcap := rfl
@[simp] theorem modCore_vfslice (d q : Nat) (f : Core → Core) : (modCore s d q f).vfslice = s.vfslice := rfl
@[simp] theorem modCore_fabnode (d q : Nat) (f : Core → Core) : (modCore s d q f).fabnode = s.fabnode := rfl
@[simp] theorem modCore_asidtab (d q : Nat) (f : Core → Core) : (modCore s d q f).asidtab = s.asidtab := rfl
@[simp] theorem modCore_tlbinv (d q : Nat) (f : Core → Core) : (modCore s d q f).tlbinv = s.tlbinv := rfl
@[simp] theorem modCore_tlbBusy (d q : Nat) (f : Core → Core) : (modCore s d q f).tlbBusy = s.tlbBusy := rfl
@[simp] theorem modCore_launched (d q : Nat) (f : Core → Core) : (modCore s d q f).launched = s.launched := rfl
@[simp] theorem modCore_mircfg (d q : Nat) (f : Core → Core) : (modCore s d q f).mircfg = s.mircfg := rfl
@[simp] theorem modCore_mirin (d q : Nat) (f : Core → Core) : (modCore s d q f).mirin = s.mirin := rfl
@[simp] theorem modCore_mirBroken (d q : Nat) (f : Core → Core) : (modCore s d q f).mirBroken = s.mirBroken := rfl
@[simp] theorem modCore_ckerr (d q : Nat) (f : Core → Core) : (modCore s d q f).ckerr = s.ckerr := rfl
@[simp] theorem modCore_ckshard (d q : Nat) (f : Core → Core) : (modCore s d q f).ckshard = s.ckshard := rfl
@[simp] theorem modCore_ckpt (d q : Nat) (f : Core → Core) : (modCore s d q f).ckpt = s.ckpt := rfl
@[simp] theorem modCore_fabwin (d q : Nat) (f : Core → Core) : (modCore s d q f).fabwin = s.fabwin := rfl
@[simp] theorem modCore_peermap (d q : Nat) (f : Core → Core) : (modCore s d q f).peermap = s.peermap := rfl
@[simp] theorem modCore_activeVf (d q : Nat) (f : Core → Core) : (modCore s d q f).activeVf = s.activeVf := rfl
@[simp] theorem modCore_sliceNs (d q : Nat) (f : Core → Core) : (modCore s d q f).sliceNs = s.sliceNs := rfl
@[simp] theorem modCore_pmcs (d q : Nat) (f : Core → Core) : (modCore s d q f).pmcs = s.pmcs := rfl
@[simp] theorem modCore_spdm (d q : Nat) (f : Core → Core) : (modCore s d q f).spdm = s.spdm := rfl
@[simp] theorem modCore_justSet (d q : Nat) (f : Core → Core) : (modCore s d q f).justSet = s.justSet := rfl

/-! ### `modWarp` -/

@[simp] theorem modWarp_agenda (d q n : Nat) (f : Warp → Warp) : (modWarp s d q n f).agenda = s.agenda := rfl
@[simp] theorem modWarp_cur (d q n : Nat) (f : Warp → Warp) : (modWarp s d q n f).cur = s.cur := rfl
@[simp] theorem modWarp_ns (d q n : Nat) (f : Warp → Warp) : (modWarp s d q n f).ns = s.ns := rfl
@[simp] theorem modWarp_mem (d q n : Nat) (f : Warp → Warp) : (modWarp s d q n f).mem = s.mem := rfl
@[simp] theorem modWarp_locals (d q n : Nat) (f : Warp → Warp) : (modWarp s d q n f).locals = s.locals := rfl
@[simp] theorem modWarp_poison (d q n : Nat) (f : Warp → Warp) : (modWarp s d q n f).poison = s.poison := rfl
@[simp] theorem modWarp_keyGen (d q n : Nat) (f : Warp → Warp) : (modWarp s d q n f).keyGen = s.keyGen := rfl
@[simp] theorem modWarp_unitKd (d q n : Nat) (f : Warp → Warp) : (modWarp s d q n f).unitKd = s.unitKd := rfl
@[simp] theorem modWarp_rmwBad (d q n : Nat) (f : Warp → Warp) : (modWarp s d q n f).rmwBad = s.rmwBad := rfl
@[simp] theorem modWarp_codeLog (d q n : Nat) (f : Warp → Warp) : (modWarp s d q n f).codeLog = s.codeLog := rfl
@[simp] theorem modWarp_keys (d q n : Nat) (f : Warp → Warp) : (modWarp s d q n f).keys = s.keys := rfl
@[simp] theorem modWarp_counts (d q n : Nat) (f : Warp → Warp) : (modWarp s d q n f).counts = s.counts := rfl
@[simp] theorem modWarp_poolHead (d q n : Nat) (f : Warp → Warp) : (modWarp s d q n f).poolHead = s.poolHead := rfl
@[simp] theorem modWarp_dies (d q n : Nat) (f : Warp → Warp) : (modWarp s d q n f).dies = s.dies := rfl
@[simp] theorem modWarp_grids (d q n : Nat) (f : Warp → Warp) : (modWarp s d q n f).grids = s.grids := rfl
@[simp] theorem modWarp_ops (d q n : Nat) (f : Warp → Warp) : (modWarp s d q n f).ops = s.ops := rfl
@[simp] theorem modWarp_contexts (d q n : Nat) (f : Warp → Warp) : (modWarp s d q n f).contexts = s.contexts := rfl
@[simp] theorem modWarp_moves (d q n : Nat) (f : Warp → Warp) : (modWarp s d q n f).moves = s.moves := rfl
@[simp] theorem modWarp_mirrors (d q n : Nat) (f : Warp → Warp) : (modWarp s d q n f).mirrors = s.mirrors := rfl
@[simp] theorem modWarp_ports (d q n : Nat) (f : Warp → Warp) : (modWarp s d q n f).ports = s.ports := rfl
@[simp] theorem modWarp_out (d q n : Nat) (f : Warp → Warp) : (modWarp s d q n f).out = s.out := rfl
@[simp] theorem modWarp_nextId (d q n : Nat) (f : Warp → Warp) : (modWarp s d q n f).nextId = s.nextId := rfl
@[simp] theorem modWarp_fresh (d q n : Nat) (f : Warp → Warp) : (modWarp s d q n f).fresh = s.fresh := rfl
@[simp] theorem modWarp_form (d q n : Nat) (f : Warp → Warp) : (modWarp s d q n f).form = s.form := rfl
@[simp] theorem modWarp_fuseDigest (d q n : Nat) (f : Warp → Warp) : (modWarp s d q n f).fuseDigest = s.fuseDigest := rfl
@[simp] theorem modWarp_fuseSvn (d q n : Nat) (f : Warp → Warp) : (modWarp s d q n f).fuseSvn = s.fuseSvn := rfl
@[simp] theorem modWarp_measFw (d q n : Nat) (f : Warp → Warp) : (modWarp s d q n f).measFw = s.measFw := rfl
@[simp] theorem modWarp_fwpass (d q n : Nat) (f : Warp → Warp) : (modWarp s d q n f).fwpass = s.fwpass := rfl
@[simp] theorem modWarp_badrange (d q n : Nat) (f : Warp → Warp) : (modWarp s d q n f).badrange = s.badrange := rfl
@[simp] theorem modWarp_denied (d q n : Nat) (f : Warp → Warp) : (modWarp s d q n f).denied = s.denied := rfl
@[simp] theorem modWarp_ready (d q n : Nat) (f : Warp → Warp) : (modWarp s d q n f).ready = s.ready := rfl
@[simp] theorem modWarp_passed (d q n : Nat) (f : Warp → Warp) : (modWarp s d q n f).passed = s.passed := rfl
@[simp] theorem modWarp_fwrange (d q n : Nat) (f : Warp → Warp) : (modWarp s d q n f).fwrange = s.fwrange := rfl
@[simp] theorem modWarp_fwlock (d q n : Nat) (f : Warp → Warp) : (modWarp s d q n f).fwlock = s.fwlock := rfl
@[simp] theorem modWarp_measgen (d q n : Nat) (f : Warp → Warp) : (modWarp s d q n f).measgen = s.measgen := rfl
@[simp] theorem modWarp_keypol (d q n : Nat) (f : Warp → Warp) : (modWarp s d q n f).keypol = s.keypol := rfl
@[simp] theorem modWarp_keypolLocked (d q n : Nat) (f : Warp → Warp) : (modWarp s d q n f).keypolLocked = s.keypolLocked := rfl
@[simp] theorem modWarp_memcfg (d q n : Nat) (f : Warp → Warp) : (modWarp s d q n f).memcfg = s.memcfg := rfl
@[simp] theorem modWarp_featacc (d q n : Nat) (f : Warp → Warp) : (modWarp s d q n f).featacc = s.featacc := rfl
@[simp] theorem modWarp_featWritten (d q n : Nat) (f : Warp → Warp) : (modWarp s d q n f).featWritten = s.featWritten := rfl
@[simp] theorem modWarp_ctxBase (d q n : Nat) (f : Warp → Warp) : (modWarp s d q n f).ctxBase = s.ctxBase := rfl
@[simp] theorem modWarp_ctxSize (d q n : Nat) (f : Warp → Warp) : (modWarp s d q n f).ctxSize = s.ctxSize := rfl
@[simp] theorem modWarp_heapbw (d q n : Nat) (f : Warp → Warp) : (modWarp s d q n f).heapbw = s.heapbw := rfl
@[simp] theorem modWarp_pwrcap (d q n : Nat) (f : Warp → Warp) : (modWarp s d q n f).pwrcap = s.pwrcap := rfl
@[simp] theorem modWarp_vfslice (d q n : Nat) (f : Warp → Warp) : (modWarp s d q n f).vfslice = s.vfslice := rfl
@[simp] theorem modWarp_fabnode (d q n : Nat) (f : Warp → Warp) : (modWarp s d q n f).fabnode = s.fabnode := rfl
@[simp] theorem modWarp_asidtab (d q n : Nat) (f : Warp → Warp) : (modWarp s d q n f).asidtab = s.asidtab := rfl
@[simp] theorem modWarp_tlbinv (d q n : Nat) (f : Warp → Warp) : (modWarp s d q n f).tlbinv = s.tlbinv := rfl
@[simp] theorem modWarp_tlbBusy (d q n : Nat) (f : Warp → Warp) : (modWarp s d q n f).tlbBusy = s.tlbBusy := rfl
@[simp] theorem modWarp_launched (d q n : Nat) (f : Warp → Warp) : (modWarp s d q n f).launched = s.launched := rfl
@[simp] theorem modWarp_mircfg (d q n : Nat) (f : Warp → Warp) : (modWarp s d q n f).mircfg = s.mircfg := rfl
@[simp] theorem modWarp_mirin (d q n : Nat) (f : Warp → Warp) : (modWarp s d q n f).mirin = s.mirin := rfl
@[simp] theorem modWarp_mirBroken (d q n : Nat) (f : Warp → Warp) : (modWarp s d q n f).mirBroken = s.mirBroken := rfl
@[simp] theorem modWarp_ckerr (d q n : Nat) (f : Warp → Warp) : (modWarp s d q n f).ckerr = s.ckerr := rfl
@[simp] theorem modWarp_ckshard (d q n : Nat) (f : Warp → Warp) : (modWarp s d q n f).ckshard = s.ckshard := rfl
@[simp] theorem modWarp_ckpt (d q n : Nat) (f : Warp → Warp) : (modWarp s d q n f).ckpt = s.ckpt := rfl
@[simp] theorem modWarp_fabwin (d q n : Nat) (f : Warp → Warp) : (modWarp s d q n f).fabwin = s.fabwin := rfl
@[simp] theorem modWarp_peermap (d q n : Nat) (f : Warp → Warp) : (modWarp s d q n f).peermap = s.peermap := rfl
@[simp] theorem modWarp_activeVf (d q n : Nat) (f : Warp → Warp) : (modWarp s d q n f).activeVf = s.activeVf := rfl
@[simp] theorem modWarp_sliceNs (d q n : Nat) (f : Warp → Warp) : (modWarp s d q n f).sliceNs = s.sliceNs := rfl
@[simp] theorem modWarp_pmcs (d q n : Nat) (f : Warp → Warp) : (modWarp s d q n f).pmcs = s.pmcs := rfl
@[simp] theorem modWarp_spdm (d q n : Nat) (f : Warp → Warp) : (modWarp s d q n f).spdm = s.spdm := rfl
@[simp] theorem modWarp_justSet (d q n : Nat) (f : Warp → Warp) : (modWarp s d q n f).justSet = s.justSet := rfl

/-! ### `modWarpUid` -/

@[simp] theorem modWarpUid_agenda (u : Nat) (f : Warp → Warp) : (modWarpUid s u f).agenda = s.agenda := rfl
@[simp] theorem modWarpUid_cur (u : Nat) (f : Warp → Warp) : (modWarpUid s u f).cur = s.cur := rfl
@[simp] theorem modWarpUid_ns (u : Nat) (f : Warp → Warp) : (modWarpUid s u f).ns = s.ns := rfl
@[simp] theorem modWarpUid_mem (u : Nat) (f : Warp → Warp) : (modWarpUid s u f).mem = s.mem := rfl
@[simp] theorem modWarpUid_locals (u : Nat) (f : Warp → Warp) : (modWarpUid s u f).locals = s.locals := rfl
@[simp] theorem modWarpUid_poison (u : Nat) (f : Warp → Warp) : (modWarpUid s u f).poison = s.poison := rfl
@[simp] theorem modWarpUid_keyGen (u : Nat) (f : Warp → Warp) : (modWarpUid s u f).keyGen = s.keyGen := rfl
@[simp] theorem modWarpUid_unitKd (u : Nat) (f : Warp → Warp) : (modWarpUid s u f).unitKd = s.unitKd := rfl
@[simp] theorem modWarpUid_rmwBad (u : Nat) (f : Warp → Warp) : (modWarpUid s u f).rmwBad = s.rmwBad := rfl
@[simp] theorem modWarpUid_codeLog (u : Nat) (f : Warp → Warp) : (modWarpUid s u f).codeLog = s.codeLog := rfl
@[simp] theorem modWarpUid_keys (u : Nat) (f : Warp → Warp) : (modWarpUid s u f).keys = s.keys := rfl
@[simp] theorem modWarpUid_counts (u : Nat) (f : Warp → Warp) : (modWarpUid s u f).counts = s.counts := rfl
@[simp] theorem modWarpUid_poolHead (u : Nat) (f : Warp → Warp) : (modWarpUid s u f).poolHead = s.poolHead := rfl
@[simp] theorem modWarpUid_dies (u : Nat) (f : Warp → Warp) : (modWarpUid s u f).dies = s.dies := rfl
@[simp] theorem modWarpUid_grids (u : Nat) (f : Warp → Warp) : (modWarpUid s u f).grids = s.grids := rfl
@[simp] theorem modWarpUid_ops (u : Nat) (f : Warp → Warp) : (modWarpUid s u f).ops = s.ops := rfl
@[simp] theorem modWarpUid_contexts (u : Nat) (f : Warp → Warp) : (modWarpUid s u f).contexts = s.contexts := rfl
@[simp] theorem modWarpUid_moves (u : Nat) (f : Warp → Warp) : (modWarpUid s u f).moves = s.moves := rfl
@[simp] theorem modWarpUid_mirrors (u : Nat) (f : Warp → Warp) : (modWarpUid s u f).mirrors = s.mirrors := rfl
@[simp] theorem modWarpUid_ports (u : Nat) (f : Warp → Warp) : (modWarpUid s u f).ports = s.ports := rfl
@[simp] theorem modWarpUid_out (u : Nat) (f : Warp → Warp) : (modWarpUid s u f).out = s.out := rfl
@[simp] theorem modWarpUid_nextId (u : Nat) (f : Warp → Warp) : (modWarpUid s u f).nextId = s.nextId := rfl
@[simp] theorem modWarpUid_fresh (u : Nat) (f : Warp → Warp) : (modWarpUid s u f).fresh = s.fresh := rfl
@[simp] theorem modWarpUid_form (u : Nat) (f : Warp → Warp) : (modWarpUid s u f).form = s.form := rfl
@[simp] theorem modWarpUid_fuseDigest (u : Nat) (f : Warp → Warp) : (modWarpUid s u f).fuseDigest = s.fuseDigest := rfl
@[simp] theorem modWarpUid_fuseSvn (u : Nat) (f : Warp → Warp) : (modWarpUid s u f).fuseSvn = s.fuseSvn := rfl
@[simp] theorem modWarpUid_measFw (u : Nat) (f : Warp → Warp) : (modWarpUid s u f).measFw = s.measFw := rfl
@[simp] theorem modWarpUid_fwpass (u : Nat) (f : Warp → Warp) : (modWarpUid s u f).fwpass = s.fwpass := rfl
@[simp] theorem modWarpUid_badrange (u : Nat) (f : Warp → Warp) : (modWarpUid s u f).badrange = s.badrange := rfl
@[simp] theorem modWarpUid_denied (u : Nat) (f : Warp → Warp) : (modWarpUid s u f).denied = s.denied := rfl
@[simp] theorem modWarpUid_ready (u : Nat) (f : Warp → Warp) : (modWarpUid s u f).ready = s.ready := rfl
@[simp] theorem modWarpUid_passed (u : Nat) (f : Warp → Warp) : (modWarpUid s u f).passed = s.passed := rfl
@[simp] theorem modWarpUid_fwrange (u : Nat) (f : Warp → Warp) : (modWarpUid s u f).fwrange = s.fwrange := rfl
@[simp] theorem modWarpUid_fwlock (u : Nat) (f : Warp → Warp) : (modWarpUid s u f).fwlock = s.fwlock := rfl
@[simp] theorem modWarpUid_measgen (u : Nat) (f : Warp → Warp) : (modWarpUid s u f).measgen = s.measgen := rfl
@[simp] theorem modWarpUid_keypol (u : Nat) (f : Warp → Warp) : (modWarpUid s u f).keypol = s.keypol := rfl
@[simp] theorem modWarpUid_keypolLocked (u : Nat) (f : Warp → Warp) : (modWarpUid s u f).keypolLocked = s.keypolLocked := rfl
@[simp] theorem modWarpUid_memcfg (u : Nat) (f : Warp → Warp) : (modWarpUid s u f).memcfg = s.memcfg := rfl
@[simp] theorem modWarpUid_featacc (u : Nat) (f : Warp → Warp) : (modWarpUid s u f).featacc = s.featacc := rfl
@[simp] theorem modWarpUid_featWritten (u : Nat) (f : Warp → Warp) : (modWarpUid s u f).featWritten = s.featWritten := rfl
@[simp] theorem modWarpUid_ctxBase (u : Nat) (f : Warp → Warp) : (modWarpUid s u f).ctxBase = s.ctxBase := rfl
@[simp] theorem modWarpUid_ctxSize (u : Nat) (f : Warp → Warp) : (modWarpUid s u f).ctxSize = s.ctxSize := rfl
@[simp] theorem modWarpUid_heapbw (u : Nat) (f : Warp → Warp) : (modWarpUid s u f).heapbw = s.heapbw := rfl
@[simp] theorem modWarpUid_pwrcap (u : Nat) (f : Warp → Warp) : (modWarpUid s u f).pwrcap = s.pwrcap := rfl
@[simp] theorem modWarpUid_vfslice (u : Nat) (f : Warp → Warp) : (modWarpUid s u f).vfslice = s.vfslice := rfl
@[simp] theorem modWarpUid_fabnode (u : Nat) (f : Warp → Warp) : (modWarpUid s u f).fabnode = s.fabnode := rfl
@[simp] theorem modWarpUid_asidtab (u : Nat) (f : Warp → Warp) : (modWarpUid s u f).asidtab = s.asidtab := rfl
@[simp] theorem modWarpUid_tlbinv (u : Nat) (f : Warp → Warp) : (modWarpUid s u f).tlbinv = s.tlbinv := rfl
@[simp] theorem modWarpUid_tlbBusy (u : Nat) (f : Warp → Warp) : (modWarpUid s u f).tlbBusy = s.tlbBusy := rfl
@[simp] theorem modWarpUid_launched (u : Nat) (f : Warp → Warp) : (modWarpUid s u f).launched = s.launched := rfl
@[simp] theorem modWarpUid_mircfg (u : Nat) (f : Warp → Warp) : (modWarpUid s u f).mircfg = s.mircfg := rfl
@[simp] theorem modWarpUid_mirin (u : Nat) (f : Warp → Warp) : (modWarpUid s u f).mirin = s.mirin := rfl
@[simp] theorem modWarpUid_mirBroken (u : Nat) (f : Warp → Warp) : (modWarpUid s u f).mirBroken = s.mirBroken := rfl
@[simp] theorem modWarpUid_ckerr (u : Nat) (f : Warp → Warp) : (modWarpUid s u f).ckerr = s.ckerr := rfl
@[simp] theorem modWarpUid_ckshard (u : Nat) (f : Warp → Warp) : (modWarpUid s u f).ckshard = s.ckshard := rfl
@[simp] theorem modWarpUid_ckpt (u : Nat) (f : Warp → Warp) : (modWarpUid s u f).ckpt = s.ckpt := rfl
@[simp] theorem modWarpUid_fabwin (u : Nat) (f : Warp → Warp) : (modWarpUid s u f).fabwin = s.fabwin := rfl
@[simp] theorem modWarpUid_peermap (u : Nat) (f : Warp → Warp) : (modWarpUid s u f).peermap = s.peermap := rfl
@[simp] theorem modWarpUid_activeVf (u : Nat) (f : Warp → Warp) : (modWarpUid s u f).activeVf = s.activeVf := rfl
@[simp] theorem modWarpUid_sliceNs (u : Nat) (f : Warp → Warp) : (modWarpUid s u f).sliceNs = s.sliceNs := rfl
@[simp] theorem modWarpUid_pmcs (u : Nat) (f : Warp → Warp) : (modWarpUid s u f).pmcs = s.pmcs := rfl
@[simp] theorem modWarpUid_spdm (u : Nat) (f : Warp → Warp) : (modWarpUid s u f).spdm = s.spdm := rfl
@[simp] theorem modWarpUid_justSet (u : Nat) (f : Warp → Warp) : (modWarpUid s u f).justSet = s.justSet := rfl

/-! ### `modKernel` -/

@[simp] theorem modKernel_agenda (d q g : Nat) (f : Kernel → Kernel) : (modKernel s d q g f).agenda = s.agenda := rfl
@[simp] theorem modKernel_cur (d q g : Nat) (f : Kernel → Kernel) : (modKernel s d q g f).cur = s.cur := rfl
@[simp] theorem modKernel_ns (d q g : Nat) (f : Kernel → Kernel) : (modKernel s d q g f).ns = s.ns := rfl
@[simp] theorem modKernel_mem (d q g : Nat) (f : Kernel → Kernel) : (modKernel s d q g f).mem = s.mem := rfl
@[simp] theorem modKernel_locals (d q g : Nat) (f : Kernel → Kernel) : (modKernel s d q g f).locals = s.locals := rfl
@[simp] theorem modKernel_poison (d q g : Nat) (f : Kernel → Kernel) : (modKernel s d q g f).poison = s.poison := rfl
@[simp] theorem modKernel_keyGen (d q g : Nat) (f : Kernel → Kernel) : (modKernel s d q g f).keyGen = s.keyGen := rfl
@[simp] theorem modKernel_unitKd (d q g : Nat) (f : Kernel → Kernel) : (modKernel s d q g f).unitKd = s.unitKd := rfl
@[simp] theorem modKernel_rmwBad (d q g : Nat) (f : Kernel → Kernel) : (modKernel s d q g f).rmwBad = s.rmwBad := rfl
@[simp] theorem modKernel_codeLog (d q g : Nat) (f : Kernel → Kernel) : (modKernel s d q g f).codeLog = s.codeLog := rfl
@[simp] theorem modKernel_keys (d q g : Nat) (f : Kernel → Kernel) : (modKernel s d q g f).keys = s.keys := rfl
@[simp] theorem modKernel_counts (d q g : Nat) (f : Kernel → Kernel) : (modKernel s d q g f).counts = s.counts := rfl
@[simp] theorem modKernel_poolHead (d q g : Nat) (f : Kernel → Kernel) : (modKernel s d q g f).poolHead = s.poolHead := rfl
@[simp] theorem modKernel_dies (d q g : Nat) (f : Kernel → Kernel) : (modKernel s d q g f).dies = s.dies := rfl
@[simp] theorem modKernel_grids (d q g : Nat) (f : Kernel → Kernel) : (modKernel s d q g f).grids = s.grids := rfl
@[simp] theorem modKernel_ops (d q g : Nat) (f : Kernel → Kernel) : (modKernel s d q g f).ops = s.ops := rfl
@[simp] theorem modKernel_contexts (d q g : Nat) (f : Kernel → Kernel) : (modKernel s d q g f).contexts = s.contexts := rfl
@[simp] theorem modKernel_moves (d q g : Nat) (f : Kernel → Kernel) : (modKernel s d q g f).moves = s.moves := rfl
@[simp] theorem modKernel_mirrors (d q g : Nat) (f : Kernel → Kernel) : (modKernel s d q g f).mirrors = s.mirrors := rfl
@[simp] theorem modKernel_ports (d q g : Nat) (f : Kernel → Kernel) : (modKernel s d q g f).ports = s.ports := rfl
@[simp] theorem modKernel_out (d q g : Nat) (f : Kernel → Kernel) : (modKernel s d q g f).out = s.out := rfl
@[simp] theorem modKernel_nextId (d q g : Nat) (f : Kernel → Kernel) : (modKernel s d q g f).nextId = s.nextId := rfl
@[simp] theorem modKernel_fresh (d q g : Nat) (f : Kernel → Kernel) : (modKernel s d q g f).fresh = s.fresh := rfl
@[simp] theorem modKernel_form (d q g : Nat) (f : Kernel → Kernel) : (modKernel s d q g f).form = s.form := rfl
@[simp] theorem modKernel_fuseDigest (d q g : Nat) (f : Kernel → Kernel) : (modKernel s d q g f).fuseDigest = s.fuseDigest := rfl
@[simp] theorem modKernel_fuseSvn (d q g : Nat) (f : Kernel → Kernel) : (modKernel s d q g f).fuseSvn = s.fuseSvn := rfl
@[simp] theorem modKernel_measFw (d q g : Nat) (f : Kernel → Kernel) : (modKernel s d q g f).measFw = s.measFw := rfl
@[simp] theorem modKernel_fwpass (d q g : Nat) (f : Kernel → Kernel) : (modKernel s d q g f).fwpass = s.fwpass := rfl
@[simp] theorem modKernel_badrange (d q g : Nat) (f : Kernel → Kernel) : (modKernel s d q g f).badrange = s.badrange := rfl
@[simp] theorem modKernel_denied (d q g : Nat) (f : Kernel → Kernel) : (modKernel s d q g f).denied = s.denied := rfl
@[simp] theorem modKernel_ready (d q g : Nat) (f : Kernel → Kernel) : (modKernel s d q g f).ready = s.ready := rfl
@[simp] theorem modKernel_passed (d q g : Nat) (f : Kernel → Kernel) : (modKernel s d q g f).passed = s.passed := rfl
@[simp] theorem modKernel_fwrange (d q g : Nat) (f : Kernel → Kernel) : (modKernel s d q g f).fwrange = s.fwrange := rfl
@[simp] theorem modKernel_fwlock (d q g : Nat) (f : Kernel → Kernel) : (modKernel s d q g f).fwlock = s.fwlock := rfl
@[simp] theorem modKernel_measgen (d q g : Nat) (f : Kernel → Kernel) : (modKernel s d q g f).measgen = s.measgen := rfl
@[simp] theorem modKernel_keypol (d q g : Nat) (f : Kernel → Kernel) : (modKernel s d q g f).keypol = s.keypol := rfl
@[simp] theorem modKernel_keypolLocked (d q g : Nat) (f : Kernel → Kernel) : (modKernel s d q g f).keypolLocked = s.keypolLocked := rfl
@[simp] theorem modKernel_memcfg (d q g : Nat) (f : Kernel → Kernel) : (modKernel s d q g f).memcfg = s.memcfg := rfl
@[simp] theorem modKernel_featacc (d q g : Nat) (f : Kernel → Kernel) : (modKernel s d q g f).featacc = s.featacc := rfl
@[simp] theorem modKernel_featWritten (d q g : Nat) (f : Kernel → Kernel) : (modKernel s d q g f).featWritten = s.featWritten := rfl
@[simp] theorem modKernel_ctxBase (d q g : Nat) (f : Kernel → Kernel) : (modKernel s d q g f).ctxBase = s.ctxBase := rfl
@[simp] theorem modKernel_ctxSize (d q g : Nat) (f : Kernel → Kernel) : (modKernel s d q g f).ctxSize = s.ctxSize := rfl
@[simp] theorem modKernel_heapbw (d q g : Nat) (f : Kernel → Kernel) : (modKernel s d q g f).heapbw = s.heapbw := rfl
@[simp] theorem modKernel_pwrcap (d q g : Nat) (f : Kernel → Kernel) : (modKernel s d q g f).pwrcap = s.pwrcap := rfl
@[simp] theorem modKernel_vfslice (d q g : Nat) (f : Kernel → Kernel) : (modKernel s d q g f).vfslice = s.vfslice := rfl
@[simp] theorem modKernel_fabnode (d q g : Nat) (f : Kernel → Kernel) : (modKernel s d q g f).fabnode = s.fabnode := rfl
@[simp] theorem modKernel_asidtab (d q g : Nat) (f : Kernel → Kernel) : (modKernel s d q g f).asidtab = s.asidtab := rfl
@[simp] theorem modKernel_tlbinv (d q g : Nat) (f : Kernel → Kernel) : (modKernel s d q g f).tlbinv = s.tlbinv := rfl
@[simp] theorem modKernel_tlbBusy (d q g : Nat) (f : Kernel → Kernel) : (modKernel s d q g f).tlbBusy = s.tlbBusy := rfl
@[simp] theorem modKernel_launched (d q g : Nat) (f : Kernel → Kernel) : (modKernel s d q g f).launched = s.launched := rfl
@[simp] theorem modKernel_mircfg (d q g : Nat) (f : Kernel → Kernel) : (modKernel s d q g f).mircfg = s.mircfg := rfl
@[simp] theorem modKernel_mirin (d q g : Nat) (f : Kernel → Kernel) : (modKernel s d q g f).mirin = s.mirin := rfl
@[simp] theorem modKernel_mirBroken (d q g : Nat) (f : Kernel → Kernel) : (modKernel s d q g f).mirBroken = s.mirBroken := rfl
@[simp] theorem modKernel_ckerr (d q g : Nat) (f : Kernel → Kernel) : (modKernel s d q g f).ckerr = s.ckerr := rfl
@[simp] theorem modKernel_ckshard (d q g : Nat) (f : Kernel → Kernel) : (modKernel s d q g f).ckshard = s.ckshard := rfl
@[simp] theorem modKernel_ckpt (d q g : Nat) (f : Kernel → Kernel) : (modKernel s d q g f).ckpt = s.ckpt := rfl
@[simp] theorem modKernel_fabwin (d q g : Nat) (f : Kernel → Kernel) : (modKernel s d q g f).fabwin = s.fabwin := rfl
@[simp] theorem modKernel_peermap (d q g : Nat) (f : Kernel → Kernel) : (modKernel s d q g f).peermap = s.peermap := rfl
@[simp] theorem modKernel_activeVf (d q g : Nat) (f : Kernel → Kernel) : (modKernel s d q g f).activeVf = s.activeVf := rfl
@[simp] theorem modKernel_sliceNs (d q g : Nat) (f : Kernel → Kernel) : (modKernel s d q g f).sliceNs = s.sliceNs := rfl
@[simp] theorem modKernel_pmcs (d q g : Nat) (f : Kernel → Kernel) : (modKernel s d q g f).pmcs = s.pmcs := rfl
@[simp] theorem modKernel_spdm (d q g : Nat) (f : Kernel → Kernel) : (modKernel s d q g f).spdm = s.spdm := rfl
@[simp] theorem modKernel_justSet (d q g : Nat) (f : Kernel → Kernel) : (modKernel s d q g f).justSet = s.justSet := rfl

/-! ### `modDie` -/

@[simp] theorem modDie_agenda (d : Nat) (f : Die → Die) : (modDie s d f).agenda = s.agenda := rfl
@[simp] theorem modDie_cur (d : Nat) (f : Die → Die) : (modDie s d f).cur = s.cur := rfl
@[simp] theorem modDie_ns (d : Nat) (f : Die → Die) : (modDie s d f).ns = s.ns := rfl
@[simp] theorem modDie_mem (d : Nat) (f : Die → Die) : (modDie s d f).mem = s.mem := rfl
@[simp] theorem modDie_locals (d : Nat) (f : Die → Die) : (modDie s d f).locals = s.locals := rfl
@[simp] theorem modDie_poison (d : Nat) (f : Die → Die) : (modDie s d f).poison = s.poison := rfl
@[simp] theorem modDie_keyGen (d : Nat) (f : Die → Die) : (modDie s d f).keyGen = s.keyGen := rfl
@[simp] theorem modDie_unitKd (d : Nat) (f : Die → Die) : (modDie s d f).unitKd = s.unitKd := rfl
@[simp] theorem modDie_rmwBad (d : Nat) (f : Die → Die) : (modDie s d f).rmwBad = s.rmwBad := rfl
@[simp] theorem modDie_codeLog (d : Nat) (f : Die → Die) : (modDie s d f).codeLog = s.codeLog := rfl
@[simp] theorem modDie_keys (d : Nat) (f : Die → Die) : (modDie s d f).keys = s.keys := rfl
@[simp] theorem modDie_counts (d : Nat) (f : Die → Die) : (modDie s d f).counts = s.counts := rfl
@[simp] theorem modDie_poolHead (d : Nat) (f : Die → Die) : (modDie s d f).poolHead = s.poolHead := rfl
@[simp] theorem modDie_cores (d : Nat) (f : Die → Die) : (modDie s d f).cores = s.cores := rfl
@[simp] theorem modDie_grids (d : Nat) (f : Die → Die) : (modDie s d f).grids = s.grids := rfl
@[simp] theorem modDie_ops (d : Nat) (f : Die → Die) : (modDie s d f).ops = s.ops := rfl
@[simp] theorem modDie_contexts (d : Nat) (f : Die → Die) : (modDie s d f).contexts = s.contexts := rfl
@[simp] theorem modDie_moves (d : Nat) (f : Die → Die) : (modDie s d f).moves = s.moves := rfl
@[simp] theorem modDie_mirrors (d : Nat) (f : Die → Die) : (modDie s d f).mirrors = s.mirrors := rfl
@[simp] theorem modDie_ports (d : Nat) (f : Die → Die) : (modDie s d f).ports = s.ports := rfl
@[simp] theorem modDie_out (d : Nat) (f : Die → Die) : (modDie s d f).out = s.out := rfl
@[simp] theorem modDie_nextId (d : Nat) (f : Die → Die) : (modDie s d f).nextId = s.nextId := rfl
@[simp] theorem modDie_fresh (d : Nat) (f : Die → Die) : (modDie s d f).fresh = s.fresh := rfl
@[simp] theorem modDie_form (d : Nat) (f : Die → Die) : (modDie s d f).form = s.form := rfl
@[simp] theorem modDie_fuseDigest (d : Nat) (f : Die → Die) : (modDie s d f).fuseDigest = s.fuseDigest := rfl
@[simp] theorem modDie_fuseSvn (d : Nat) (f : Die → Die) : (modDie s d f).fuseSvn = s.fuseSvn := rfl
@[simp] theorem modDie_measFw (d : Nat) (f : Die → Die) : (modDie s d f).measFw = s.measFw := rfl
@[simp] theorem modDie_fwpass (d : Nat) (f : Die → Die) : (modDie s d f).fwpass = s.fwpass := rfl
@[simp] theorem modDie_badrange (d : Nat) (f : Die → Die) : (modDie s d f).badrange = s.badrange := rfl
@[simp] theorem modDie_denied (d : Nat) (f : Die → Die) : (modDie s d f).denied = s.denied := rfl
@[simp] theorem modDie_ready (d : Nat) (f : Die → Die) : (modDie s d f).ready = s.ready := rfl
@[simp] theorem modDie_passed (d : Nat) (f : Die → Die) : (modDie s d f).passed = s.passed := rfl
@[simp] theorem modDie_fwrange (d : Nat) (f : Die → Die) : (modDie s d f).fwrange = s.fwrange := rfl
@[simp] theorem modDie_fwlock (d : Nat) (f : Die → Die) : (modDie s d f).fwlock = s.fwlock := rfl
@[simp] theorem modDie_measgen (d : Nat) (f : Die → Die) : (modDie s d f).measgen = s.measgen := rfl
@[simp] theorem modDie_keypol (d : Nat) (f : Die → Die) : (modDie s d f).keypol = s.keypol := rfl
@[simp] theorem modDie_keypolLocked (d : Nat) (f : Die → Die) : (modDie s d f).keypolLocked = s.keypolLocked := rfl
@[simp] theorem modDie_memcfg (d : Nat) (f : Die → Die) : (modDie s d f).memcfg = s.memcfg := rfl
@[simp] theorem modDie_featacc (d : Nat) (f : Die → Die) : (modDie s d f).featacc = s.featacc := rfl
@[simp] theorem modDie_featWritten (d : Nat) (f : Die → Die) : (modDie s d f).featWritten = s.featWritten := rfl
@[simp] theorem modDie_ctxBase (d : Nat) (f : Die → Die) : (modDie s d f).ctxBase = s.ctxBase := rfl
@[simp] theorem modDie_ctxSize (d : Nat) (f : Die → Die) : (modDie s d f).ctxSize = s.ctxSize := rfl
@[simp] theorem modDie_heapbw (d : Nat) (f : Die → Die) : (modDie s d f).heapbw = s.heapbw := rfl
@[simp] theorem modDie_pwrcap (d : Nat) (f : Die → Die) : (modDie s d f).pwrcap = s.pwrcap := rfl
@[simp] theorem modDie_vfslice (d : Nat) (f : Die → Die) : (modDie s d f).vfslice = s.vfslice := rfl
@[simp] theorem modDie_fabnode (d : Nat) (f : Die → Die) : (modDie s d f).fabnode = s.fabnode := rfl
@[simp] theorem modDie_asidtab (d : Nat) (f : Die → Die) : (modDie s d f).asidtab = s.asidtab := rfl
@[simp] theorem modDie_tlbinv (d : Nat) (f : Die → Die) : (modDie s d f).tlbinv = s.tlbinv := rfl
@[simp] theorem modDie_tlbBusy (d : Nat) (f : Die → Die) : (modDie s d f).tlbBusy = s.tlbBusy := rfl
@[simp] theorem modDie_launched (d : Nat) (f : Die → Die) : (modDie s d f).launched = s.launched := rfl
@[simp] theorem modDie_mircfg (d : Nat) (f : Die → Die) : (modDie s d f).mircfg = s.mircfg := rfl
@[simp] theorem modDie_mirin (d : Nat) (f : Die → Die) : (modDie s d f).mirin = s.mirin := rfl
@[simp] theorem modDie_mirBroken (d : Nat) (f : Die → Die) : (modDie s d f).mirBroken = s.mirBroken := rfl
@[simp] theorem modDie_ckerr (d : Nat) (f : Die → Die) : (modDie s d f).ckerr = s.ckerr := rfl
@[simp] theorem modDie_ckshard (d : Nat) (f : Die → Die) : (modDie s d f).ckshard = s.ckshard := rfl
@[simp] theorem modDie_ckpt (d : Nat) (f : Die → Die) : (modDie s d f).ckpt = s.ckpt := rfl
@[simp] theorem modDie_fabwin (d : Nat) (f : Die → Die) : (modDie s d f).fabwin = s.fabwin := rfl
@[simp] theorem modDie_peermap (d : Nat) (f : Die → Die) : (modDie s d f).peermap = s.peermap := rfl
@[simp] theorem modDie_activeVf (d : Nat) (f : Die → Die) : (modDie s d f).activeVf = s.activeVf := rfl
@[simp] theorem modDie_sliceNs (d : Nat) (f : Die → Die) : (modDie s d f).sliceNs = s.sliceNs := rfl
@[simp] theorem modDie_pmcs (d : Nat) (f : Die → Die) : (modDie s d f).pmcs = s.pmcs := rfl
@[simp] theorem modDie_spdm (d : Nat) (f : Die → Die) : (modDie s d f).spdm = s.spdm := rfl
@[simp] theorem modDie_justSet (d : Nat) (f : Die → Die) : (modDie s d f).justSet = s.justSet := rfl

/-! ### `modCluster` -/

@[simp] theorem modCluster_agenda (d c : Nat) (f : Cluster → Cluster) : (modCluster s d c f).agenda = s.agenda := rfl
@[simp] theorem modCluster_cur (d c : Nat) (f : Cluster → Cluster) : (modCluster s d c f).cur = s.cur := rfl
@[simp] theorem modCluster_ns (d c : Nat) (f : Cluster → Cluster) : (modCluster s d c f).ns = s.ns := rfl
@[simp] theorem modCluster_mem (d c : Nat) (f : Cluster → Cluster) : (modCluster s d c f).mem = s.mem := rfl
@[simp] theorem modCluster_locals (d c : Nat) (f : Cluster → Cluster) : (modCluster s d c f).locals = s.locals := rfl
@[simp] theorem modCluster_poison (d c : Nat) (f : Cluster → Cluster) : (modCluster s d c f).poison = s.poison := rfl
@[simp] theorem modCluster_keyGen (d c : Nat) (f : Cluster → Cluster) : (modCluster s d c f).keyGen = s.keyGen := rfl
@[simp] theorem modCluster_unitKd (d c : Nat) (f : Cluster → Cluster) : (modCluster s d c f).unitKd = s.unitKd := rfl
@[simp] theorem modCluster_rmwBad (d c : Nat) (f : Cluster → Cluster) : (modCluster s d c f).rmwBad = s.rmwBad := rfl
@[simp] theorem modCluster_codeLog (d c : Nat) (f : Cluster → Cluster) : (modCluster s d c f).codeLog = s.codeLog := rfl
@[simp] theorem modCluster_keys (d c : Nat) (f : Cluster → Cluster) : (modCluster s d c f).keys = s.keys := rfl
@[simp] theorem modCluster_counts (d c : Nat) (f : Cluster → Cluster) : (modCluster s d c f).counts = s.counts := rfl
@[simp] theorem modCluster_poolHead (d c : Nat) (f : Cluster → Cluster) : (modCluster s d c f).poolHead = s.poolHead := rfl
@[simp] theorem modCluster_cores (d c : Nat) (f : Cluster → Cluster) : (modCluster s d c f).cores = s.cores := rfl
@[simp] theorem modCluster_grids (d c : Nat) (f : Cluster → Cluster) : (modCluster s d c f).grids = s.grids := rfl
@[simp] theorem modCluster_ops (d c : Nat) (f : Cluster → Cluster) : (modCluster s d c f).ops = s.ops := rfl
@[simp] theorem modCluster_contexts (d c : Nat) (f : Cluster → Cluster) : (modCluster s d c f).contexts = s.contexts := rfl
@[simp] theorem modCluster_moves (d c : Nat) (f : Cluster → Cluster) : (modCluster s d c f).moves = s.moves := rfl
@[simp] theorem modCluster_mirrors (d c : Nat) (f : Cluster → Cluster) : (modCluster s d c f).mirrors = s.mirrors := rfl
@[simp] theorem modCluster_ports (d c : Nat) (f : Cluster → Cluster) : (modCluster s d c f).ports = s.ports := rfl
@[simp] theorem modCluster_out (d c : Nat) (f : Cluster → Cluster) : (modCluster s d c f).out = s.out := rfl
@[simp] theorem modCluster_nextId (d c : Nat) (f : Cluster → Cluster) : (modCluster s d c f).nextId = s.nextId := rfl
@[simp] theorem modCluster_fresh (d c : Nat) (f : Cluster → Cluster) : (modCluster s d c f).fresh = s.fresh := rfl
@[simp] theorem modCluster_form (d c : Nat) (f : Cluster → Cluster) : (modCluster s d c f).form = s.form := rfl
@[simp] theorem modCluster_fuseDigest (d c : Nat) (f : Cluster → Cluster) : (modCluster s d c f).fuseDigest = s.fuseDigest := rfl
@[simp] theorem modCluster_fuseSvn (d c : Nat) (f : Cluster → Cluster) : (modCluster s d c f).fuseSvn = s.fuseSvn := rfl
@[simp] theorem modCluster_measFw (d c : Nat) (f : Cluster → Cluster) : (modCluster s d c f).measFw = s.measFw := rfl
@[simp] theorem modCluster_fwpass (d c : Nat) (f : Cluster → Cluster) : (modCluster s d c f).fwpass = s.fwpass := rfl
@[simp] theorem modCluster_badrange (d c : Nat) (f : Cluster → Cluster) : (modCluster s d c f).badrange = s.badrange := rfl
@[simp] theorem modCluster_denied (d c : Nat) (f : Cluster → Cluster) : (modCluster s d c f).denied = s.denied := rfl
@[simp] theorem modCluster_ready (d c : Nat) (f : Cluster → Cluster) : (modCluster s d c f).ready = s.ready := rfl
@[simp] theorem modCluster_passed (d c : Nat) (f : Cluster → Cluster) : (modCluster s d c f).passed = s.passed := rfl
@[simp] theorem modCluster_fwrange (d c : Nat) (f : Cluster → Cluster) : (modCluster s d c f).fwrange = s.fwrange := rfl
@[simp] theorem modCluster_fwlock (d c : Nat) (f : Cluster → Cluster) : (modCluster s d c f).fwlock = s.fwlock := rfl
@[simp] theorem modCluster_measgen (d c : Nat) (f : Cluster → Cluster) : (modCluster s d c f).measgen = s.measgen := rfl
@[simp] theorem modCluster_keypol (d c : Nat) (f : Cluster → Cluster) : (modCluster s d c f).keypol = s.keypol := rfl
@[simp] theorem modCluster_keypolLocked (d c : Nat) (f : Cluster → Cluster) : (modCluster s d c f).keypolLocked = s.keypolLocked := rfl
@[simp] theorem modCluster_memcfg (d c : Nat) (f : Cluster → Cluster) : (modCluster s d c f).memcfg = s.memcfg := rfl
@[simp] theorem modCluster_featacc (d c : Nat) (f : Cluster → Cluster) : (modCluster s d c f).featacc = s.featacc := rfl
@[simp] theorem modCluster_featWritten (d c : Nat) (f : Cluster → Cluster) : (modCluster s d c f).featWritten = s.featWritten := rfl
@[simp] theorem modCluster_ctxBase (d c : Nat) (f : Cluster → Cluster) : (modCluster s d c f).ctxBase = s.ctxBase := rfl
@[simp] theorem modCluster_ctxSize (d c : Nat) (f : Cluster → Cluster) : (modCluster s d c f).ctxSize = s.ctxSize := rfl
@[simp] theorem modCluster_heapbw (d c : Nat) (f : Cluster → Cluster) : (modCluster s d c f).heapbw = s.heapbw := rfl
@[simp] theorem modCluster_pwrcap (d c : Nat) (f : Cluster → Cluster) : (modCluster s d c f).pwrcap = s.pwrcap := rfl
@[simp] theorem modCluster_vfslice (d c : Nat) (f : Cluster → Cluster) : (modCluster s d c f).vfslice = s.vfslice := rfl
@[simp] theorem modCluster_fabnode (d c : Nat) (f : Cluster → Cluster) : (modCluster s d c f).fabnode = s.fabnode := rfl
@[simp] theorem modCluster_asidtab (d c : Nat) (f : Cluster → Cluster) : (modCluster s d c f).asidtab = s.asidtab := rfl
@[simp] theorem modCluster_tlbinv (d c : Nat) (f : Cluster → Cluster) : (modCluster s d c f).tlbinv = s.tlbinv := rfl
@[simp] theorem modCluster_tlbBusy (d c : Nat) (f : Cluster → Cluster) : (modCluster s d c f).tlbBusy = s.tlbBusy := rfl
@[simp] theorem modCluster_launched (d c : Nat) (f : Cluster → Cluster) : (modCluster s d c f).launched = s.launched := rfl
@[simp] theorem modCluster_mircfg (d c : Nat) (f : Cluster → Cluster) : (modCluster s d c f).mircfg = s.mircfg := rfl
@[simp] theorem modCluster_mirin (d c : Nat) (f : Cluster → Cluster) : (modCluster s d c f).mirin = s.mirin := rfl
@[simp] theorem modCluster_mirBroken (d c : Nat) (f : Cluster → Cluster) : (modCluster s d c f).mirBroken = s.mirBroken := rfl
@[simp] theorem modCluster_ckerr (d c : Nat) (f : Cluster → Cluster) : (modCluster s d c f).ckerr = s.ckerr := rfl
@[simp] theorem modCluster_ckshard (d c : Nat) (f : Cluster → Cluster) : (modCluster s d c f).ckshard = s.ckshard := rfl
@[simp] theorem modCluster_ckpt (d c : Nat) (f : Cluster → Cluster) : (modCluster s d c f).ckpt = s.ckpt := rfl
@[simp] theorem modCluster_fabwin (d c : Nat) (f : Cluster → Cluster) : (modCluster s d c f).fabwin = s.fabwin := rfl
@[simp] theorem modCluster_peermap (d c : Nat) (f : Cluster → Cluster) : (modCluster s d c f).peermap = s.peermap := rfl
@[simp] theorem modCluster_activeVf (d c : Nat) (f : Cluster → Cluster) : (modCluster s d c f).activeVf = s.activeVf := rfl
@[simp] theorem modCluster_sliceNs (d c : Nat) (f : Cluster → Cluster) : (modCluster s d c f).sliceNs = s.sliceNs := rfl
@[simp] theorem modCluster_pmcs (d c : Nat) (f : Cluster → Cluster) : (modCluster s d c f).pmcs = s.pmcs := rfl
@[simp] theorem modCluster_spdm (d c : Nat) (f : Cluster → Cluster) : (modCluster s d c f).spdm = s.spdm := rfl
@[simp] theorem modCluster_justSet (d c : Nat) (f : Cluster → Cluster) : (modCluster s d c f).justSet = s.justSet := rfl

/-! ### `modGrid` -/

@[simp] theorem modGrid_agenda (g : Nat) (f : Grid → Grid) : (modGrid s g f).agenda = s.agenda := rfl
@[simp] theorem modGrid_cur (g : Nat) (f : Grid → Grid) : (modGrid s g f).cur = s.cur := rfl
@[simp] theorem modGrid_ns (g : Nat) (f : Grid → Grid) : (modGrid s g f).ns = s.ns := rfl
@[simp] theorem modGrid_mem (g : Nat) (f : Grid → Grid) : (modGrid s g f).mem = s.mem := rfl
@[simp] theorem modGrid_locals (g : Nat) (f : Grid → Grid) : (modGrid s g f).locals = s.locals := rfl
@[simp] theorem modGrid_poison (g : Nat) (f : Grid → Grid) : (modGrid s g f).poison = s.poison := rfl
@[simp] theorem modGrid_keyGen (g : Nat) (f : Grid → Grid) : (modGrid s g f).keyGen = s.keyGen := rfl
@[simp] theorem modGrid_unitKd (g : Nat) (f : Grid → Grid) : (modGrid s g f).unitKd = s.unitKd := rfl
@[simp] theorem modGrid_rmwBad (g : Nat) (f : Grid → Grid) : (modGrid s g f).rmwBad = s.rmwBad := rfl
@[simp] theorem modGrid_codeLog (g : Nat) (f : Grid → Grid) : (modGrid s g f).codeLog = s.codeLog := rfl
@[simp] theorem modGrid_keys (g : Nat) (f : Grid → Grid) : (modGrid s g f).keys = s.keys := rfl
@[simp] theorem modGrid_counts (g : Nat) (f : Grid → Grid) : (modGrid s g f).counts = s.counts := rfl
@[simp] theorem modGrid_poolHead (g : Nat) (f : Grid → Grid) : (modGrid s g f).poolHead = s.poolHead := rfl
@[simp] theorem modGrid_cores (g : Nat) (f : Grid → Grid) : (modGrid s g f).cores = s.cores := rfl
@[simp] theorem modGrid_dies (g : Nat) (f : Grid → Grid) : (modGrid s g f).dies = s.dies := rfl
@[simp] theorem modGrid_ops (g : Nat) (f : Grid → Grid) : (modGrid s g f).ops = s.ops := rfl
@[simp] theorem modGrid_contexts (g : Nat) (f : Grid → Grid) : (modGrid s g f).contexts = s.contexts := rfl
@[simp] theorem modGrid_moves (g : Nat) (f : Grid → Grid) : (modGrid s g f).moves = s.moves := rfl
@[simp] theorem modGrid_mirrors (g : Nat) (f : Grid → Grid) : (modGrid s g f).mirrors = s.mirrors := rfl
@[simp] theorem modGrid_ports (g : Nat) (f : Grid → Grid) : (modGrid s g f).ports = s.ports := rfl
@[simp] theorem modGrid_out (g : Nat) (f : Grid → Grid) : (modGrid s g f).out = s.out := rfl
@[simp] theorem modGrid_nextId (g : Nat) (f : Grid → Grid) : (modGrid s g f).nextId = s.nextId := rfl
@[simp] theorem modGrid_fresh (g : Nat) (f : Grid → Grid) : (modGrid s g f).fresh = s.fresh := rfl
@[simp] theorem modGrid_form (g : Nat) (f : Grid → Grid) : (modGrid s g f).form = s.form := rfl
@[simp] theorem modGrid_fuseDigest (g : Nat) (f : Grid → Grid) : (modGrid s g f).fuseDigest = s.fuseDigest := rfl
@[simp] theorem modGrid_fuseSvn (g : Nat) (f : Grid → Grid) : (modGrid s g f).fuseSvn = s.fuseSvn := rfl
@[simp] theorem modGrid_measFw (g : Nat) (f : Grid → Grid) : (modGrid s g f).measFw = s.measFw := rfl
@[simp] theorem modGrid_fwpass (g : Nat) (f : Grid → Grid) : (modGrid s g f).fwpass = s.fwpass := rfl
@[simp] theorem modGrid_badrange (g : Nat) (f : Grid → Grid) : (modGrid s g f).badrange = s.badrange := rfl
@[simp] theorem modGrid_denied (g : Nat) (f : Grid → Grid) : (modGrid s g f).denied = s.denied := rfl
@[simp] theorem modGrid_ready (g : Nat) (f : Grid → Grid) : (modGrid s g f).ready = s.ready := rfl
@[simp] theorem modGrid_passed (g : Nat) (f : Grid → Grid) : (modGrid s g f).passed = s.passed := rfl
@[simp] theorem modGrid_fwrange (g : Nat) (f : Grid → Grid) : (modGrid s g f).fwrange = s.fwrange := rfl
@[simp] theorem modGrid_fwlock (g : Nat) (f : Grid → Grid) : (modGrid s g f).fwlock = s.fwlock := rfl
@[simp] theorem modGrid_measgen (g : Nat) (f : Grid → Grid) : (modGrid s g f).measgen = s.measgen := rfl
@[simp] theorem modGrid_keypol (g : Nat) (f : Grid → Grid) : (modGrid s g f).keypol = s.keypol := rfl
@[simp] theorem modGrid_keypolLocked (g : Nat) (f : Grid → Grid) : (modGrid s g f).keypolLocked = s.keypolLocked := rfl
@[simp] theorem modGrid_memcfg (g : Nat) (f : Grid → Grid) : (modGrid s g f).memcfg = s.memcfg := rfl
@[simp] theorem modGrid_featacc (g : Nat) (f : Grid → Grid) : (modGrid s g f).featacc = s.featacc := rfl
@[simp] theorem modGrid_featWritten (g : Nat) (f : Grid → Grid) : (modGrid s g f).featWritten = s.featWritten := rfl
@[simp] theorem modGrid_ctxBase (g : Nat) (f : Grid → Grid) : (modGrid s g f).ctxBase = s.ctxBase := rfl
@[simp] theorem modGrid_ctxSize (g : Nat) (f : Grid → Grid) : (modGrid s g f).ctxSize = s.ctxSize := rfl
@[simp] theorem modGrid_heapbw (g : Nat) (f : Grid → Grid) : (modGrid s g f).heapbw = s.heapbw := rfl
@[simp] theorem modGrid_pwrcap (g : Nat) (f : Grid → Grid) : (modGrid s g f).pwrcap = s.pwrcap := rfl
@[simp] theorem modGrid_vfslice (g : Nat) (f : Grid → Grid) : (modGrid s g f).vfslice = s.vfslice := rfl
@[simp] theorem modGrid_fabnode (g : Nat) (f : Grid → Grid) : (modGrid s g f).fabnode = s.fabnode := rfl
@[simp] theorem modGrid_asidtab (g : Nat) (f : Grid → Grid) : (modGrid s g f).asidtab = s.asidtab := rfl
@[simp] theorem modGrid_tlbinv (g : Nat) (f : Grid → Grid) : (modGrid s g f).tlbinv = s.tlbinv := rfl
@[simp] theorem modGrid_tlbBusy (g : Nat) (f : Grid → Grid) : (modGrid s g f).tlbBusy = s.tlbBusy := rfl
@[simp] theorem modGrid_launched (g : Nat) (f : Grid → Grid) : (modGrid s g f).launched = s.launched := rfl
@[simp] theorem modGrid_mircfg (g : Nat) (f : Grid → Grid) : (modGrid s g f).mircfg = s.mircfg := rfl
@[simp] theorem modGrid_mirin (g : Nat) (f : Grid → Grid) : (modGrid s g f).mirin = s.mirin := rfl
@[simp] theorem modGrid_mirBroken (g : Nat) (f : Grid → Grid) : (modGrid s g f).mirBroken = s.mirBroken := rfl
@[simp] theorem modGrid_ckerr (g : Nat) (f : Grid → Grid) : (modGrid s g f).ckerr = s.ckerr := rfl
@[simp] theorem modGrid_ckshard (g : Nat) (f : Grid → Grid) : (modGrid s g f).ckshard = s.ckshard := rfl
@[simp] theorem modGrid_ckpt (g : Nat) (f : Grid → Grid) : (modGrid s g f).ckpt = s.ckpt := rfl
@[simp] theorem modGrid_fabwin (g : Nat) (f : Grid → Grid) : (modGrid s g f).fabwin = s.fabwin := rfl
@[simp] theorem modGrid_peermap (g : Nat) (f : Grid → Grid) : (modGrid s g f).peermap = s.peermap := rfl
@[simp] theorem modGrid_activeVf (g : Nat) (f : Grid → Grid) : (modGrid s g f).activeVf = s.activeVf := rfl
@[simp] theorem modGrid_sliceNs (g : Nat) (f : Grid → Grid) : (modGrid s g f).sliceNs = s.sliceNs := rfl
@[simp] theorem modGrid_pmcs (g : Nat) (f : Grid → Grid) : (modGrid s g f).pmcs = s.pmcs := rfl
@[simp] theorem modGrid_spdm (g : Nat) (f : Grid → Grid) : (modGrid s g f).spdm = s.spdm := rfl
@[simp] theorem modGrid_justSet (g : Nat) (f : Grid → Grid) : (modGrid s g f).justSet = s.justSet := rfl

/-! ### `modHood` -/

@[simp] theorem modHood_agenda (g h : Nat) (f : Hood → Hood) : (modHood s g h f).agenda = s.agenda := rfl
@[simp] theorem modHood_cur (g h : Nat) (f : Hood → Hood) : (modHood s g h f).cur = s.cur := rfl
@[simp] theorem modHood_ns (g h : Nat) (f : Hood → Hood) : (modHood s g h f).ns = s.ns := rfl
@[simp] theorem modHood_mem (g h : Nat) (f : Hood → Hood) : (modHood s g h f).mem = s.mem := rfl
@[simp] theorem modHood_locals (g h : Nat) (f : Hood → Hood) : (modHood s g h f).locals = s.locals := rfl
@[simp] theorem modHood_poison (g h : Nat) (f : Hood → Hood) : (modHood s g h f).poison = s.poison := rfl
@[simp] theorem modHood_keyGen (g h : Nat) (f : Hood → Hood) : (modHood s g h f).keyGen = s.keyGen := rfl
@[simp] theorem modHood_unitKd (g h : Nat) (f : Hood → Hood) : (modHood s g h f).unitKd = s.unitKd := rfl
@[simp] theorem modHood_rmwBad (g h : Nat) (f : Hood → Hood) : (modHood s g h f).rmwBad = s.rmwBad := rfl
@[simp] theorem modHood_codeLog (g h : Nat) (f : Hood → Hood) : (modHood s g h f).codeLog = s.codeLog := rfl
@[simp] theorem modHood_keys (g h : Nat) (f : Hood → Hood) : (modHood s g h f).keys = s.keys := rfl
@[simp] theorem modHood_counts (g h : Nat) (f : Hood → Hood) : (modHood s g h f).counts = s.counts := rfl
@[simp] theorem modHood_poolHead (g h : Nat) (f : Hood → Hood) : (modHood s g h f).poolHead = s.poolHead := rfl
@[simp] theorem modHood_cores (g h : Nat) (f : Hood → Hood) : (modHood s g h f).cores = s.cores := rfl
@[simp] theorem modHood_dies (g h : Nat) (f : Hood → Hood) : (modHood s g h f).dies = s.dies := rfl
@[simp] theorem modHood_ops (g h : Nat) (f : Hood → Hood) : (modHood s g h f).ops = s.ops := rfl
@[simp] theorem modHood_contexts (g h : Nat) (f : Hood → Hood) : (modHood s g h f).contexts = s.contexts := rfl
@[simp] theorem modHood_moves (g h : Nat) (f : Hood → Hood) : (modHood s g h f).moves = s.moves := rfl
@[simp] theorem modHood_mirrors (g h : Nat) (f : Hood → Hood) : (modHood s g h f).mirrors = s.mirrors := rfl
@[simp] theorem modHood_ports (g h : Nat) (f : Hood → Hood) : (modHood s g h f).ports = s.ports := rfl
@[simp] theorem modHood_out (g h : Nat) (f : Hood → Hood) : (modHood s g h f).out = s.out := rfl
@[simp] theorem modHood_nextId (g h : Nat) (f : Hood → Hood) : (modHood s g h f).nextId = s.nextId := rfl
@[simp] theorem modHood_fresh (g h : Nat) (f : Hood → Hood) : (modHood s g h f).fresh = s.fresh := rfl
@[simp] theorem modHood_form (g h : Nat) (f : Hood → Hood) : (modHood s g h f).form = s.form := rfl
@[simp] theorem modHood_fuseDigest (g h : Nat) (f : Hood → Hood) : (modHood s g h f).fuseDigest = s.fuseDigest := rfl
@[simp] theorem modHood_fuseSvn (g h : Nat) (f : Hood → Hood) : (modHood s g h f).fuseSvn = s.fuseSvn := rfl
@[simp] theorem modHood_measFw (g h : Nat) (f : Hood → Hood) : (modHood s g h f).measFw = s.measFw := rfl
@[simp] theorem modHood_fwpass (g h : Nat) (f : Hood → Hood) : (modHood s g h f).fwpass = s.fwpass := rfl
@[simp] theorem modHood_badrange (g h : Nat) (f : Hood → Hood) : (modHood s g h f).badrange = s.badrange := rfl
@[simp] theorem modHood_denied (g h : Nat) (f : Hood → Hood) : (modHood s g h f).denied = s.denied := rfl
@[simp] theorem modHood_ready (g h : Nat) (f : Hood → Hood) : (modHood s g h f).ready = s.ready := rfl
@[simp] theorem modHood_passed (g h : Nat) (f : Hood → Hood) : (modHood s g h f).passed = s.passed := rfl
@[simp] theorem modHood_fwrange (g h : Nat) (f : Hood → Hood) : (modHood s g h f).fwrange = s.fwrange := rfl
@[simp] theorem modHood_fwlock (g h : Nat) (f : Hood → Hood) : (modHood s g h f).fwlock = s.fwlock := rfl
@[simp] theorem modHood_measgen (g h : Nat) (f : Hood → Hood) : (modHood s g h f).measgen = s.measgen := rfl
@[simp] theorem modHood_keypol (g h : Nat) (f : Hood → Hood) : (modHood s g h f).keypol = s.keypol := rfl
@[simp] theorem modHood_keypolLocked (g h : Nat) (f : Hood → Hood) : (modHood s g h f).keypolLocked = s.keypolLocked := rfl
@[simp] theorem modHood_memcfg (g h : Nat) (f : Hood → Hood) : (modHood s g h f).memcfg = s.memcfg := rfl
@[simp] theorem modHood_featacc (g h : Nat) (f : Hood → Hood) : (modHood s g h f).featacc = s.featacc := rfl
@[simp] theorem modHood_featWritten (g h : Nat) (f : Hood → Hood) : (modHood s g h f).featWritten = s.featWritten := rfl
@[simp] theorem modHood_ctxBase (g h : Nat) (f : Hood → Hood) : (modHood s g h f).ctxBase = s.ctxBase := rfl
@[simp] theorem modHood_ctxSize (g h : Nat) (f : Hood → Hood) : (modHood s g h f).ctxSize = s.ctxSize := rfl
@[simp] theorem modHood_heapbw (g h : Nat) (f : Hood → Hood) : (modHood s g h f).heapbw = s.heapbw := rfl
@[simp] theorem modHood_pwrcap (g h : Nat) (f : Hood → Hood) : (modHood s g h f).pwrcap = s.pwrcap := rfl
@[simp] theorem modHood_vfslice (g h : Nat) (f : Hood → Hood) : (modHood s g h f).vfslice = s.vfslice := rfl
@[simp] theorem modHood_fabnode (g h : Nat) (f : Hood → Hood) : (modHood s g h f).fabnode = s.fabnode := rfl
@[simp] theorem modHood_asidtab (g h : Nat) (f : Hood → Hood) : (modHood s g h f).asidtab = s.asidtab := rfl
@[simp] theorem modHood_tlbinv (g h : Nat) (f : Hood → Hood) : (modHood s g h f).tlbinv = s.tlbinv := rfl
@[simp] theorem modHood_tlbBusy (g h : Nat) (f : Hood → Hood) : (modHood s g h f).tlbBusy = s.tlbBusy := rfl
@[simp] theorem modHood_launched (g h : Nat) (f : Hood → Hood) : (modHood s g h f).launched = s.launched := rfl
@[simp] theorem modHood_mircfg (g h : Nat) (f : Hood → Hood) : (modHood s g h f).mircfg = s.mircfg := rfl
@[simp] theorem modHood_mirin (g h : Nat) (f : Hood → Hood) : (modHood s g h f).mirin = s.mirin := rfl
@[simp] theorem modHood_mirBroken (g h : Nat) (f : Hood → Hood) : (modHood s g h f).mirBroken = s.mirBroken := rfl
@[simp] theorem modHood_ckerr (g h : Nat) (f : Hood → Hood) : (modHood s g h f).ckerr = s.ckerr := rfl
@[simp] theorem modHood_ckshard (g h : Nat) (f : Hood → Hood) : (modHood s g h f).ckshard = s.ckshard := rfl
@[simp] theorem modHood_ckpt (g h : Nat) (f : Hood → Hood) : (modHood s g h f).ckpt = s.ckpt := rfl
@[simp] theorem modHood_fabwin (g h : Nat) (f : Hood → Hood) : (modHood s g h f).fabwin = s.fabwin := rfl
@[simp] theorem modHood_peermap (g h : Nat) (f : Hood → Hood) : (modHood s g h f).peermap = s.peermap := rfl
@[simp] theorem modHood_activeVf (g h : Nat) (f : Hood → Hood) : (modHood s g h f).activeVf = s.activeVf := rfl
@[simp] theorem modHood_sliceNs (g h : Nat) (f : Hood → Hood) : (modHood s g h f).sliceNs = s.sliceNs := rfl
@[simp] theorem modHood_pmcs (g h : Nat) (f : Hood → Hood) : (modHood s g h f).pmcs = s.pmcs := rfl
@[simp] theorem modHood_spdm (g h : Nat) (f : Hood → Hood) : (modHood s g h f).spdm = s.spdm := rfl
@[simp] theorem modHood_justSet (g h : Nat) (f : Hood → Hood) : (modHood s g h f).justSet = s.justSet := rfl

/-! ### `modBlock` -/

@[simp] theorem modBlock_agenda (g b : Nat) (f : Block → Block) : (modBlock s g b f).agenda = s.agenda := rfl
@[simp] theorem modBlock_cur (g b : Nat) (f : Block → Block) : (modBlock s g b f).cur = s.cur := rfl
@[simp] theorem modBlock_ns (g b : Nat) (f : Block → Block) : (modBlock s g b f).ns = s.ns := rfl
@[simp] theorem modBlock_mem (g b : Nat) (f : Block → Block) : (modBlock s g b f).mem = s.mem := rfl
@[simp] theorem modBlock_locals (g b : Nat) (f : Block → Block) : (modBlock s g b f).locals = s.locals := rfl
@[simp] theorem modBlock_poison (g b : Nat) (f : Block → Block) : (modBlock s g b f).poison = s.poison := rfl
@[simp] theorem modBlock_keyGen (g b : Nat) (f : Block → Block) : (modBlock s g b f).keyGen = s.keyGen := rfl
@[simp] theorem modBlock_unitKd (g b : Nat) (f : Block → Block) : (modBlock s g b f).unitKd = s.unitKd := rfl
@[simp] theorem modBlock_rmwBad (g b : Nat) (f : Block → Block) : (modBlock s g b f).rmwBad = s.rmwBad := rfl
@[simp] theorem modBlock_codeLog (g b : Nat) (f : Block → Block) : (modBlock s g b f).codeLog = s.codeLog := rfl
@[simp] theorem modBlock_keys (g b : Nat) (f : Block → Block) : (modBlock s g b f).keys = s.keys := rfl
@[simp] theorem modBlock_counts (g b : Nat) (f : Block → Block) : (modBlock s g b f).counts = s.counts := rfl
@[simp] theorem modBlock_poolHead (g b : Nat) (f : Block → Block) : (modBlock s g b f).poolHead = s.poolHead := rfl
@[simp] theorem modBlock_cores (g b : Nat) (f : Block → Block) : (modBlock s g b f).cores = s.cores := rfl
@[simp] theorem modBlock_dies (g b : Nat) (f : Block → Block) : (modBlock s g b f).dies = s.dies := rfl
@[simp] theorem modBlock_ops (g b : Nat) (f : Block → Block) : (modBlock s g b f).ops = s.ops := rfl
@[simp] theorem modBlock_contexts (g b : Nat) (f : Block → Block) : (modBlock s g b f).contexts = s.contexts := rfl
@[simp] theorem modBlock_moves (g b : Nat) (f : Block → Block) : (modBlock s g b f).moves = s.moves := rfl
@[simp] theorem modBlock_mirrors (g b : Nat) (f : Block → Block) : (modBlock s g b f).mirrors = s.mirrors := rfl
@[simp] theorem modBlock_ports (g b : Nat) (f : Block → Block) : (modBlock s g b f).ports = s.ports := rfl
@[simp] theorem modBlock_out (g b : Nat) (f : Block → Block) : (modBlock s g b f).out = s.out := rfl
@[simp] theorem modBlock_nextId (g b : Nat) (f : Block → Block) : (modBlock s g b f).nextId = s.nextId := rfl
@[simp] theorem modBlock_fresh (g b : Nat) (f : Block → Block) : (modBlock s g b f).fresh = s.fresh := rfl
@[simp] theorem modBlock_form (g b : Nat) (f : Block → Block) : (modBlock s g b f).form = s.form := rfl
@[simp] theorem modBlock_fuseDigest (g b : Nat) (f : Block → Block) : (modBlock s g b f).fuseDigest = s.fuseDigest := rfl
@[simp] theorem modBlock_fuseSvn (g b : Nat) (f : Block → Block) : (modBlock s g b f).fuseSvn = s.fuseSvn := rfl
@[simp] theorem modBlock_measFw (g b : Nat) (f : Block → Block) : (modBlock s g b f).measFw = s.measFw := rfl
@[simp] theorem modBlock_fwpass (g b : Nat) (f : Block → Block) : (modBlock s g b f).fwpass = s.fwpass := rfl
@[simp] theorem modBlock_badrange (g b : Nat) (f : Block → Block) : (modBlock s g b f).badrange = s.badrange := rfl
@[simp] theorem modBlock_denied (g b : Nat) (f : Block → Block) : (modBlock s g b f).denied = s.denied := rfl
@[simp] theorem modBlock_ready (g b : Nat) (f : Block → Block) : (modBlock s g b f).ready = s.ready := rfl
@[simp] theorem modBlock_passed (g b : Nat) (f : Block → Block) : (modBlock s g b f).passed = s.passed := rfl
@[simp] theorem modBlock_fwrange (g b : Nat) (f : Block → Block) : (modBlock s g b f).fwrange = s.fwrange := rfl
@[simp] theorem modBlock_fwlock (g b : Nat) (f : Block → Block) : (modBlock s g b f).fwlock = s.fwlock := rfl
@[simp] theorem modBlock_measgen (g b : Nat) (f : Block → Block) : (modBlock s g b f).measgen = s.measgen := rfl
@[simp] theorem modBlock_keypol (g b : Nat) (f : Block → Block) : (modBlock s g b f).keypol = s.keypol := rfl
@[simp] theorem modBlock_keypolLocked (g b : Nat) (f : Block → Block) : (modBlock s g b f).keypolLocked = s.keypolLocked := rfl
@[simp] theorem modBlock_memcfg (g b : Nat) (f : Block → Block) : (modBlock s g b f).memcfg = s.memcfg := rfl
@[simp] theorem modBlock_featacc (g b : Nat) (f : Block → Block) : (modBlock s g b f).featacc = s.featacc := rfl
@[simp] theorem modBlock_featWritten (g b : Nat) (f : Block → Block) : (modBlock s g b f).featWritten = s.featWritten := rfl
@[simp] theorem modBlock_ctxBase (g b : Nat) (f : Block → Block) : (modBlock s g b f).ctxBase = s.ctxBase := rfl
@[simp] theorem modBlock_ctxSize (g b : Nat) (f : Block → Block) : (modBlock s g b f).ctxSize = s.ctxSize := rfl
@[simp] theorem modBlock_heapbw (g b : Nat) (f : Block → Block) : (modBlock s g b f).heapbw = s.heapbw := rfl
@[simp] theorem modBlock_pwrcap (g b : Nat) (f : Block → Block) : (modBlock s g b f).pwrcap = s.pwrcap := rfl
@[simp] theorem modBlock_vfslice (g b : Nat) (f : Block → Block) : (modBlock s g b f).vfslice = s.vfslice := rfl
@[simp] theorem modBlock_fabnode (g b : Nat) (f : Block → Block) : (modBlock s g b f).fabnode = s.fabnode := rfl
@[simp] theorem modBlock_asidtab (g b : Nat) (f : Block → Block) : (modBlock s g b f).asidtab = s.asidtab := rfl
@[simp] theorem modBlock_tlbinv (g b : Nat) (f : Block → Block) : (modBlock s g b f).tlbinv = s.tlbinv := rfl
@[simp] theorem modBlock_tlbBusy (g b : Nat) (f : Block → Block) : (modBlock s g b f).tlbBusy = s.tlbBusy := rfl
@[simp] theorem modBlock_launched (g b : Nat) (f : Block → Block) : (modBlock s g b f).launched = s.launched := rfl
@[simp] theorem modBlock_mircfg (g b : Nat) (f : Block → Block) : (modBlock s g b f).mircfg = s.mircfg := rfl
@[simp] theorem modBlock_mirin (g b : Nat) (f : Block → Block) : (modBlock s g b f).mirin = s.mirin := rfl
@[simp] theorem modBlock_mirBroken (g b : Nat) (f : Block → Block) : (modBlock s g b f).mirBroken = s.mirBroken := rfl
@[simp] theorem modBlock_ckerr (g b : Nat) (f : Block → Block) : (modBlock s g b f).ckerr = s.ckerr := rfl
@[simp] theorem modBlock_ckshard (g b : Nat) (f : Block → Block) : (modBlock s g b f).ckshard = s.ckshard := rfl
@[simp] theorem modBlock_ckpt (g b : Nat) (f : Block → Block) : (modBlock s g b f).ckpt = s.ckpt := rfl
@[simp] theorem modBlock_fabwin (g b : Nat) (f : Block → Block) : (modBlock s g b f).fabwin = s.fabwin := rfl
@[simp] theorem modBlock_peermap (g b : Nat) (f : Block → Block) : (modBlock s g b f).peermap = s.peermap := rfl
@[simp] theorem modBlock_activeVf (g b : Nat) (f : Block → Block) : (modBlock s g b f).activeVf = s.activeVf := rfl
@[simp] theorem modBlock_sliceNs (g b : Nat) (f : Block → Block) : (modBlock s g b f).sliceNs = s.sliceNs := rfl
@[simp] theorem modBlock_pmcs (g b : Nat) (f : Block → Block) : (modBlock s g b f).pmcs = s.pmcs := rfl
@[simp] theorem modBlock_spdm (g b : Nat) (f : Block → Block) : (modBlock s g b f).spdm = s.spdm := rfl
@[simp] theorem modBlock_justSet (g b : Nat) (f : Block → Block) : (modBlock s g b f).justSet = s.justSet := rfl

/-! ### `setLocal` -/

@[simp] theorem setLocal_agenda (l : Local) : (setLocal s l).agenda = s.agenda := rfl
@[simp] theorem setLocal_cur (l : Local) : (setLocal s l).cur = s.cur := rfl
@[simp] theorem setLocal_ns (l : Local) : (setLocal s l).ns = s.ns := rfl
@[simp] theorem setLocal_mem (l : Local) : (setLocal s l).mem = s.mem := rfl
@[simp] theorem setLocal_poison (l : Local) : (setLocal s l).poison = s.poison := rfl
@[simp] theorem setLocal_keyGen (l : Local) : (setLocal s l).keyGen = s.keyGen := rfl
@[simp] theorem setLocal_unitKd (l : Local) : (setLocal s l).unitKd = s.unitKd := rfl
@[simp] theorem setLocal_rmwBad (l : Local) : (setLocal s l).rmwBad = s.rmwBad := rfl
@[simp] theorem setLocal_codeLog (l : Local) : (setLocal s l).codeLog = s.codeLog := rfl
@[simp] theorem setLocal_keys (l : Local) : (setLocal s l).keys = s.keys := rfl
@[simp] theorem setLocal_counts (l : Local) : (setLocal s l).counts = s.counts := rfl
@[simp] theorem setLocal_poolHead (l : Local) : (setLocal s l).poolHead = s.poolHead := rfl
@[simp] theorem setLocal_cores (l : Local) : (setLocal s l).cores = s.cores := rfl
@[simp] theorem setLocal_dies (l : Local) : (setLocal s l).dies = s.dies := rfl
@[simp] theorem setLocal_grids (l : Local) : (setLocal s l).grids = s.grids := rfl
@[simp] theorem setLocal_ops (l : Local) : (setLocal s l).ops = s.ops := rfl
@[simp] theorem setLocal_contexts (l : Local) : (setLocal s l).contexts = s.contexts := rfl
@[simp] theorem setLocal_moves (l : Local) : (setLocal s l).moves = s.moves := rfl
@[simp] theorem setLocal_mirrors (l : Local) : (setLocal s l).mirrors = s.mirrors := rfl
@[simp] theorem setLocal_ports (l : Local) : (setLocal s l).ports = s.ports := rfl
@[simp] theorem setLocal_out (l : Local) : (setLocal s l).out = s.out := rfl
@[simp] theorem setLocal_nextId (l : Local) : (setLocal s l).nextId = s.nextId := rfl
@[simp] theorem setLocal_fresh (l : Local) : (setLocal s l).fresh = s.fresh := rfl
@[simp] theorem setLocal_form (l : Local) : (setLocal s l).form = s.form := rfl
@[simp] theorem setLocal_fuseDigest (l : Local) : (setLocal s l).fuseDigest = s.fuseDigest := rfl
@[simp] theorem setLocal_fuseSvn (l : Local) : (setLocal s l).fuseSvn = s.fuseSvn := rfl
@[simp] theorem setLocal_measFw (l : Local) : (setLocal s l).measFw = s.measFw := rfl
@[simp] theorem setLocal_fwpass (l : Local) : (setLocal s l).fwpass = s.fwpass := rfl
@[simp] theorem setLocal_badrange (l : Local) : (setLocal s l).badrange = s.badrange := rfl
@[simp] theorem setLocal_denied (l : Local) : (setLocal s l).denied = s.denied := rfl
@[simp] theorem setLocal_ready (l : Local) : (setLocal s l).ready = s.ready := rfl
@[simp] theorem setLocal_passed (l : Local) : (setLocal s l).passed = s.passed := rfl
@[simp] theorem setLocal_fwrange (l : Local) : (setLocal s l).fwrange = s.fwrange := rfl
@[simp] theorem setLocal_fwlock (l : Local) : (setLocal s l).fwlock = s.fwlock := rfl
@[simp] theorem setLocal_measgen (l : Local) : (setLocal s l).measgen = s.measgen := rfl
@[simp] theorem setLocal_keypol (l : Local) : (setLocal s l).keypol = s.keypol := rfl
@[simp] theorem setLocal_keypolLocked (l : Local) : (setLocal s l).keypolLocked = s.keypolLocked := rfl
@[simp] theorem setLocal_memcfg (l : Local) : (setLocal s l).memcfg = s.memcfg := rfl
@[simp] theorem setLocal_featacc (l : Local) : (setLocal s l).featacc = s.featacc := rfl
@[simp] theorem setLocal_featWritten (l : Local) : (setLocal s l).featWritten = s.featWritten := rfl
@[simp] theorem setLocal_ctxBase (l : Local) : (setLocal s l).ctxBase = s.ctxBase := rfl
@[simp] theorem setLocal_ctxSize (l : Local) : (setLocal s l).ctxSize = s.ctxSize := rfl
@[simp] theorem setLocal_heapbw (l : Local) : (setLocal s l).heapbw = s.heapbw := rfl
@[simp] theorem setLocal_pwrcap (l : Local) : (setLocal s l).pwrcap = s.pwrcap := rfl
@[simp] theorem setLocal_vfslice (l : Local) : (setLocal s l).vfslice = s.vfslice := rfl
@[simp] theorem setLocal_fabnode (l : Local) : (setLocal s l).fabnode = s.fabnode := rfl
@[simp] theorem setLocal_asidtab (l : Local) : (setLocal s l).asidtab = s.asidtab := rfl
@[simp] theorem setLocal_tlbinv (l : Local) : (setLocal s l).tlbinv = s.tlbinv := rfl
@[simp] theorem setLocal_tlbBusy (l : Local) : (setLocal s l).tlbBusy = s.tlbBusy := rfl
@[simp] theorem setLocal_launched (l : Local) : (setLocal s l).launched = s.launched := rfl
@[simp] theorem setLocal_mircfg (l : Local) : (setLocal s l).mircfg = s.mircfg := rfl
@[simp] theorem setLocal_mirin (l : Local) : (setLocal s l).mirin = s.mirin := rfl
@[simp] theorem setLocal_mirBroken (l : Local) : (setLocal s l).mirBroken = s.mirBroken := rfl
@[simp] theorem setLocal_ckerr (l : Local) : (setLocal s l).ckerr = s.ckerr := rfl
@[simp] theorem setLocal_ckshard (l : Local) : (setLocal s l).ckshard = s.ckshard := rfl
@[simp] theorem setLocal_ckpt (l : Local) : (setLocal s l).ckpt = s.ckpt := rfl
@[simp] theorem setLocal_fabwin (l : Local) : (setLocal s l).fabwin = s.fabwin := rfl
@[simp] theorem setLocal_peermap (l : Local) : (setLocal s l).peermap = s.peermap := rfl
@[simp] theorem setLocal_activeVf (l : Local) : (setLocal s l).activeVf = s.activeVf := rfl
@[simp] theorem setLocal_sliceNs (l : Local) : (setLocal s l).sliceNs = s.sliceNs := rfl
@[simp] theorem setLocal_pmcs (l : Local) : (setLocal s l).pmcs = s.pmcs := rfl
@[simp] theorem setLocal_spdm (l : Local) : (setLocal s l).spdm = s.spdm := rfl
@[simp] theorem setLocal_justSet (l : Local) : (setLocal s l).justSet = s.justSet := rfl

/-! ### `zeroLocal` -/

@[simp] theorem zeroLocal_agenda (k : Space) : (zeroLocal s k).agenda = s.agenda := rfl
@[simp] theorem zeroLocal_cur (k : Space) : (zeroLocal s k).cur = s.cur := rfl
@[simp] theorem zeroLocal_ns (k : Space) : (zeroLocal s k).ns = s.ns := rfl
@[simp] theorem zeroLocal_mem (k : Space) : (zeroLocal s k).mem = s.mem := rfl
@[simp] theorem zeroLocal_keyGen (k : Space) : (zeroLocal s k).keyGen = s.keyGen := rfl
@[simp] theorem zeroLocal_unitKd (k : Space) : (zeroLocal s k).unitKd = s.unitKd := rfl
@[simp] theorem zeroLocal_rmwBad (k : Space) : (zeroLocal s k).rmwBad = s.rmwBad := rfl
@[simp] theorem zeroLocal_codeLog (k : Space) : (zeroLocal s k).codeLog = s.codeLog := rfl
@[simp] theorem zeroLocal_keys (k : Space) : (zeroLocal s k).keys = s.keys := rfl
@[simp] theorem zeroLocal_counts (k : Space) : (zeroLocal s k).counts = s.counts := rfl
@[simp] theorem zeroLocal_poolHead (k : Space) : (zeroLocal s k).poolHead = s.poolHead := rfl
@[simp] theorem zeroLocal_cores (k : Space) : (zeroLocal s k).cores = s.cores := rfl
@[simp] theorem zeroLocal_dies (k : Space) : (zeroLocal s k).dies = s.dies := rfl
@[simp] theorem zeroLocal_grids (k : Space) : (zeroLocal s k).grids = s.grids := rfl
@[simp] theorem zeroLocal_ops (k : Space) : (zeroLocal s k).ops = s.ops := rfl
@[simp] theorem zeroLocal_contexts (k : Space) : (zeroLocal s k).contexts = s.contexts := rfl
@[simp] theorem zeroLocal_moves (k : Space) : (zeroLocal s k).moves = s.moves := rfl
@[simp] theorem zeroLocal_mirrors (k : Space) : (zeroLocal s k).mirrors = s.mirrors := rfl
@[simp] theorem zeroLocal_ports (k : Space) : (zeroLocal s k).ports = s.ports := rfl
@[simp] theorem zeroLocal_out (k : Space) : (zeroLocal s k).out = s.out := rfl
@[simp] theorem zeroLocal_nextId (k : Space) : (zeroLocal s k).nextId = s.nextId := rfl
@[simp] theorem zeroLocal_fresh (k : Space) : (zeroLocal s k).fresh = s.fresh := rfl
@[simp] theorem zeroLocal_form (k : Space) : (zeroLocal s k).form = s.form := rfl
@[simp] theorem zeroLocal_fuseDigest (k : Space) : (zeroLocal s k).fuseDigest = s.fuseDigest := rfl
@[simp] theorem zeroLocal_fuseSvn (k : Space) : (zeroLocal s k).fuseSvn = s.fuseSvn := rfl
@[simp] theorem zeroLocal_measFw (k : Space) : (zeroLocal s k).measFw = s.measFw := rfl
@[simp] theorem zeroLocal_fwpass (k : Space) : (zeroLocal s k).fwpass = s.fwpass := rfl
@[simp] theorem zeroLocal_badrange (k : Space) : (zeroLocal s k).badrange = s.badrange := rfl
@[simp] theorem zeroLocal_denied (k : Space) : (zeroLocal s k).denied = s.denied := rfl
@[simp] theorem zeroLocal_ready (k : Space) : (zeroLocal s k).ready = s.ready := rfl
@[simp] theorem zeroLocal_passed (k : Space) : (zeroLocal s k).passed = s.passed := rfl
@[simp] theorem zeroLocal_fwrange (k : Space) : (zeroLocal s k).fwrange = s.fwrange := rfl
@[simp] theorem zeroLocal_fwlock (k : Space) : (zeroLocal s k).fwlock = s.fwlock := rfl
@[simp] theorem zeroLocal_measgen (k : Space) : (zeroLocal s k).measgen = s.measgen := rfl
@[simp] theorem zeroLocal_keypol (k : Space) : (zeroLocal s k).keypol = s.keypol := rfl
@[simp] theorem zeroLocal_keypolLocked (k : Space) : (zeroLocal s k).keypolLocked = s.keypolLocked := rfl
@[simp] theorem zeroLocal_memcfg (k : Space) : (zeroLocal s k).memcfg = s.memcfg := rfl
@[simp] theorem zeroLocal_featacc (k : Space) : (zeroLocal s k).featacc = s.featacc := rfl
@[simp] theorem zeroLocal_featWritten (k : Space) : (zeroLocal s k).featWritten = s.featWritten := rfl
@[simp] theorem zeroLocal_ctxBase (k : Space) : (zeroLocal s k).ctxBase = s.ctxBase := rfl
@[simp] theorem zeroLocal_ctxSize (k : Space) : (zeroLocal s k).ctxSize = s.ctxSize := rfl
@[simp] theorem zeroLocal_heapbw (k : Space) : (zeroLocal s k).heapbw = s.heapbw := rfl
@[simp] theorem zeroLocal_pwrcap (k : Space) : (zeroLocal s k).pwrcap = s.pwrcap := rfl
@[simp] theorem zeroLocal_vfslice (k : Space) : (zeroLocal s k).vfslice = s.vfslice := rfl
@[simp] theorem zeroLocal_fabnode (k : Space) : (zeroLocal s k).fabnode = s.fabnode := rfl
@[simp] theorem zeroLocal_asidtab (k : Space) : (zeroLocal s k).asidtab = s.asidtab := rfl
@[simp] theorem zeroLocal_tlbinv (k : Space) : (zeroLocal s k).tlbinv = s.tlbinv := rfl
@[simp] theorem zeroLocal_tlbBusy (k : Space) : (zeroLocal s k).tlbBusy = s.tlbBusy := rfl
@[simp] theorem zeroLocal_launched (k : Space) : (zeroLocal s k).launched = s.launched := rfl
@[simp] theorem zeroLocal_mircfg (k : Space) : (zeroLocal s k).mircfg = s.mircfg := rfl
@[simp] theorem zeroLocal_mirin (k : Space) : (zeroLocal s k).mirin = s.mirin := rfl
@[simp] theorem zeroLocal_mirBroken (k : Space) : (zeroLocal s k).mirBroken = s.mirBroken := rfl
@[simp] theorem zeroLocal_ckerr (k : Space) : (zeroLocal s k).ckerr = s.ckerr := rfl
@[simp] theorem zeroLocal_ckshard (k : Space) : (zeroLocal s k).ckshard = s.ckshard := rfl
@[simp] theorem zeroLocal_ckpt (k : Space) : (zeroLocal s k).ckpt = s.ckpt := rfl
@[simp] theorem zeroLocal_fabwin (k : Space) : (zeroLocal s k).fabwin = s.fabwin := rfl
@[simp] theorem zeroLocal_peermap (k : Space) : (zeroLocal s k).peermap = s.peermap := rfl
@[simp] theorem zeroLocal_activeVf (k : Space) : (zeroLocal s k).activeVf = s.activeVf := rfl
@[simp] theorem zeroLocal_sliceNs (k : Space) : (zeroLocal s k).sliceNs = s.sliceNs := rfl
@[simp] theorem zeroLocal_pmcs (k : Space) : (zeroLocal s k).pmcs = s.pmcs := rfl
@[simp] theorem zeroLocal_spdm (k : Space) : (zeroLocal s k).spdm = s.spdm := rfl
@[simp] theorem zeroLocal_justSet (k : Space) : (zeroLocal s k).justSet = s.justSet := rfl

/-! ### `modOp` -/

@[simp] theorem modOp_agenda (o : Nat) (f : Op → Op) : (modOp s o f).agenda = s.agenda := rfl
@[simp] theorem modOp_cur (o : Nat) (f : Op → Op) : (modOp s o f).cur = s.cur := rfl
@[simp] theorem modOp_ns (o : Nat) (f : Op → Op) : (modOp s o f).ns = s.ns := rfl
@[simp] theorem modOp_mem (o : Nat) (f : Op → Op) : (modOp s o f).mem = s.mem := rfl
@[simp] theorem modOp_locals (o : Nat) (f : Op → Op) : (modOp s o f).locals = s.locals := rfl
@[simp] theorem modOp_poison (o : Nat) (f : Op → Op) : (modOp s o f).poison = s.poison := rfl
@[simp] theorem modOp_keyGen (o : Nat) (f : Op → Op) : (modOp s o f).keyGen = s.keyGen := rfl
@[simp] theorem modOp_unitKd (o : Nat) (f : Op → Op) : (modOp s o f).unitKd = s.unitKd := rfl
@[simp] theorem modOp_rmwBad (o : Nat) (f : Op → Op) : (modOp s o f).rmwBad = s.rmwBad := rfl
@[simp] theorem modOp_codeLog (o : Nat) (f : Op → Op) : (modOp s o f).codeLog = s.codeLog := rfl
@[simp] theorem modOp_keys (o : Nat) (f : Op → Op) : (modOp s o f).keys = s.keys := rfl
@[simp] theorem modOp_counts (o : Nat) (f : Op → Op) : (modOp s o f).counts = s.counts := rfl
@[simp] theorem modOp_poolHead (o : Nat) (f : Op → Op) : (modOp s o f).poolHead = s.poolHead := rfl
@[simp] theorem modOp_cores (o : Nat) (f : Op → Op) : (modOp s o f).cores = s.cores := rfl
@[simp] theorem modOp_dies (o : Nat) (f : Op → Op) : (modOp s o f).dies = s.dies := rfl
@[simp] theorem modOp_grids (o : Nat) (f : Op → Op) : (modOp s o f).grids = s.grids := rfl
@[simp] theorem modOp_contexts (o : Nat) (f : Op → Op) : (modOp s o f).contexts = s.contexts := rfl
@[simp] theorem modOp_moves (o : Nat) (f : Op → Op) : (modOp s o f).moves = s.moves := rfl
@[simp] theorem modOp_mirrors (o : Nat) (f : Op → Op) : (modOp s o f).mirrors = s.mirrors := rfl
@[simp] theorem modOp_ports (o : Nat) (f : Op → Op) : (modOp s o f).ports = s.ports := rfl
@[simp] theorem modOp_out (o : Nat) (f : Op → Op) : (modOp s o f).out = s.out := rfl
@[simp] theorem modOp_nextId (o : Nat) (f : Op → Op) : (modOp s o f).nextId = s.nextId := rfl
@[simp] theorem modOp_fresh (o : Nat) (f : Op → Op) : (modOp s o f).fresh = s.fresh := rfl
@[simp] theorem modOp_form (o : Nat) (f : Op → Op) : (modOp s o f).form = s.form := rfl
@[simp] theorem modOp_fuseDigest (o : Nat) (f : Op → Op) : (modOp s o f).fuseDigest = s.fuseDigest := rfl
@[simp] theorem modOp_fuseSvn (o : Nat) (f : Op → Op) : (modOp s o f).fuseSvn = s.fuseSvn := rfl
@[simp] theorem modOp_measFw (o : Nat) (f : Op → Op) : (modOp s o f).measFw = s.measFw := rfl
@[simp] theorem modOp_fwpass (o : Nat) (f : Op → Op) : (modOp s o f).fwpass = s.fwpass := rfl
@[simp] theorem modOp_badrange (o : Nat) (f : Op → Op) : (modOp s o f).badrange = s.badrange := rfl
@[simp] theorem modOp_denied (o : Nat) (f : Op → Op) : (modOp s o f).denied = s.denied := rfl
@[simp] theorem modOp_ready (o : Nat) (f : Op → Op) : (modOp s o f).ready = s.ready := rfl
@[simp] theorem modOp_passed (o : Nat) (f : Op → Op) : (modOp s o f).passed = s.passed := rfl
@[simp] theorem modOp_fwrange (o : Nat) (f : Op → Op) : (modOp s o f).fwrange = s.fwrange := rfl
@[simp] theorem modOp_fwlock (o : Nat) (f : Op → Op) : (modOp s o f).fwlock = s.fwlock := rfl
@[simp] theorem modOp_measgen (o : Nat) (f : Op → Op) : (modOp s o f).measgen = s.measgen := rfl
@[simp] theorem modOp_keypol (o : Nat) (f : Op → Op) : (modOp s o f).keypol = s.keypol := rfl
@[simp] theorem modOp_keypolLocked (o : Nat) (f : Op → Op) : (modOp s o f).keypolLocked = s.keypolLocked := rfl
@[simp] theorem modOp_memcfg (o : Nat) (f : Op → Op) : (modOp s o f).memcfg = s.memcfg := rfl
@[simp] theorem modOp_featacc (o : Nat) (f : Op → Op) : (modOp s o f).featacc = s.featacc := rfl
@[simp] theorem modOp_featWritten (o : Nat) (f : Op → Op) : (modOp s o f).featWritten = s.featWritten := rfl
@[simp] theorem modOp_ctxBase (o : Nat) (f : Op → Op) : (modOp s o f).ctxBase = s.ctxBase := rfl
@[simp] theorem modOp_ctxSize (o : Nat) (f : Op → Op) : (modOp s o f).ctxSize = s.ctxSize := rfl
@[simp] theorem modOp_heapbw (o : Nat) (f : Op → Op) : (modOp s o f).heapbw = s.heapbw := rfl
@[simp] theorem modOp_pwrcap (o : Nat) (f : Op → Op) : (modOp s o f).pwrcap = s.pwrcap := rfl
@[simp] theorem modOp_vfslice (o : Nat) (f : Op → Op) : (modOp s o f).vfslice = s.vfslice := rfl
@[simp] theorem modOp_fabnode (o : Nat) (f : Op → Op) : (modOp s o f).fabnode = s.fabnode := rfl
@[simp] theorem modOp_asidtab (o : Nat) (f : Op → Op) : (modOp s o f).asidtab = s.asidtab := rfl
@[simp] theorem modOp_tlbinv (o : Nat) (f : Op → Op) : (modOp s o f).tlbinv = s.tlbinv := rfl
@[simp] theorem modOp_tlbBusy (o : Nat) (f : Op → Op) : (modOp s o f).tlbBusy = s.tlbBusy := rfl
@[simp] theorem modOp_launched (o : Nat) (f : Op → Op) : (modOp s o f).launched = s.launched := rfl
@[simp] theorem modOp_mircfg (o : Nat) (f : Op → Op) : (modOp s o f).mircfg = s.mircfg := rfl
@[simp] theorem modOp_mirin (o : Nat) (f : Op → Op) : (modOp s o f).mirin = s.mirin := rfl
@[simp] theorem modOp_mirBroken (o : Nat) (f : Op → Op) : (modOp s o f).mirBroken = s.mirBroken := rfl
@[simp] theorem modOp_ckerr (o : Nat) (f : Op → Op) : (modOp s o f).ckerr = s.ckerr := rfl
@[simp] theorem modOp_ckshard (o : Nat) (f : Op → Op) : (modOp s o f).ckshard = s.ckshard := rfl
@[simp] theorem modOp_ckpt (o : Nat) (f : Op → Op) : (modOp s o f).ckpt = s.ckpt := rfl
@[simp] theorem modOp_fabwin (o : Nat) (f : Op → Op) : (modOp s o f).fabwin = s.fabwin := rfl
@[simp] theorem modOp_peermap (o : Nat) (f : Op → Op) : (modOp s o f).peermap = s.peermap := rfl
@[simp] theorem modOp_activeVf (o : Nat) (f : Op → Op) : (modOp s o f).activeVf = s.activeVf := rfl
@[simp] theorem modOp_sliceNs (o : Nat) (f : Op → Op) : (modOp s o f).sliceNs = s.sliceNs := rfl
@[simp] theorem modOp_pmcs (o : Nat) (f : Op → Op) : (modOp s o f).pmcs = s.pmcs := rfl
@[simp] theorem modOp_spdm (o : Nat) (f : Op → Op) : (modOp s o f).spdm = s.spdm := rfl
@[simp] theorem modOp_justSet (o : Nat) (f : Op → Op) : (modOp s o f).justSet = s.justSet := rfl

/-! ### `endOp` -/

@[simp] theorem endOp_agenda (o : Nat) : (endOp s o).agenda = s.agenda := rfl
@[simp] theorem endOp_cur (o : Nat) : (endOp s o).cur = s.cur := rfl
@[simp] theorem endOp_ns (o : Nat) : (endOp s o).ns = s.ns := rfl
@[simp] theorem endOp_mem (o : Nat) : (endOp s o).mem = s.mem := rfl
@[simp] theorem endOp_locals (o : Nat) : (endOp s o).locals = s.locals := rfl
@[simp] theorem endOp_poison (o : Nat) : (endOp s o).poison = s.poison := rfl
@[simp] theorem endOp_keyGen (o : Nat) : (endOp s o).keyGen = s.keyGen := rfl
@[simp] theorem endOp_unitKd (o : Nat) : (endOp s o).unitKd = s.unitKd := rfl
@[simp] theorem endOp_rmwBad (o : Nat) : (endOp s o).rmwBad = s.rmwBad := rfl
@[simp] theorem endOp_codeLog (o : Nat) : (endOp s o).codeLog = s.codeLog := rfl
@[simp] theorem endOp_keys (o : Nat) : (endOp s o).keys = s.keys := rfl
@[simp] theorem endOp_counts (o : Nat) : (endOp s o).counts = s.counts := rfl
@[simp] theorem endOp_poolHead (o : Nat) : (endOp s o).poolHead = s.poolHead := rfl
@[simp] theorem endOp_cores (o : Nat) : (endOp s o).cores = s.cores := rfl
@[simp] theorem endOp_dies (o : Nat) : (endOp s o).dies = s.dies := rfl
@[simp] theorem endOp_grids (o : Nat) : (endOp s o).grids = s.grids := rfl
@[simp] theorem endOp_contexts (o : Nat) : (endOp s o).contexts = s.contexts := rfl
@[simp] theorem endOp_moves (o : Nat) : (endOp s o).moves = s.moves := rfl
@[simp] theorem endOp_mirrors (o : Nat) : (endOp s o).mirrors = s.mirrors := rfl
@[simp] theorem endOp_ports (o : Nat) : (endOp s o).ports = s.ports := rfl
@[simp] theorem endOp_out (o : Nat) : (endOp s o).out = s.out := rfl
@[simp] theorem endOp_nextId (o : Nat) : (endOp s o).nextId = s.nextId := rfl
@[simp] theorem endOp_fresh (o : Nat) : (endOp s o).fresh = s.fresh := rfl
@[simp] theorem endOp_form (o : Nat) : (endOp s o).form = s.form := rfl
@[simp] theorem endOp_fuseDigest (o : Nat) : (endOp s o).fuseDigest = s.fuseDigest := rfl
@[simp] theorem endOp_fuseSvn (o : Nat) : (endOp s o).fuseSvn = s.fuseSvn := rfl
@[simp] theorem endOp_measFw (o : Nat) : (endOp s o).measFw = s.measFw := rfl
@[simp] theorem endOp_fwpass (o : Nat) : (endOp s o).fwpass = s.fwpass := rfl
@[simp] theorem endOp_badrange (o : Nat) : (endOp s o).badrange = s.badrange := rfl
@[simp] theorem endOp_denied (o : Nat) : (endOp s o).denied = s.denied := rfl
@[simp] theorem endOp_ready (o : Nat) : (endOp s o).ready = s.ready := rfl
@[simp] theorem endOp_passed (o : Nat) : (endOp s o).passed = s.passed := rfl
@[simp] theorem endOp_fwrange (o : Nat) : (endOp s o).fwrange = s.fwrange := rfl
@[simp] theorem endOp_fwlock (o : Nat) : (endOp s o).fwlock = s.fwlock := rfl
@[simp] theorem endOp_measgen (o : Nat) : (endOp s o).measgen = s.measgen := rfl
@[simp] theorem endOp_keypol (o : Nat) : (endOp s o).keypol = s.keypol := rfl
@[simp] theorem endOp_keypolLocked (o : Nat) : (endOp s o).keypolLocked = s.keypolLocked := rfl
@[simp] theorem endOp_memcfg (o : Nat) : (endOp s o).memcfg = s.memcfg := rfl
@[simp] theorem endOp_featacc (o : Nat) : (endOp s o).featacc = s.featacc := rfl
@[simp] theorem endOp_featWritten (o : Nat) : (endOp s o).featWritten = s.featWritten := rfl
@[simp] theorem endOp_ctxBase (o : Nat) : (endOp s o).ctxBase = s.ctxBase := rfl
@[simp] theorem endOp_ctxSize (o : Nat) : (endOp s o).ctxSize = s.ctxSize := rfl
@[simp] theorem endOp_heapbw (o : Nat) : (endOp s o).heapbw = s.heapbw := rfl
@[simp] theorem endOp_pwrcap (o : Nat) : (endOp s o).pwrcap = s.pwrcap := rfl
@[simp] theorem endOp_vfslice (o : Nat) : (endOp s o).vfslice = s.vfslice := rfl
@[simp] theorem endOp_fabnode (o : Nat) : (endOp s o).fabnode = s.fabnode := rfl
@[simp] theorem endOp_asidtab (o : Nat) : (endOp s o).asidtab = s.asidtab := rfl
@[simp] theorem endOp_tlbinv (o : Nat) : (endOp s o).tlbinv = s.tlbinv := rfl
@[simp] theorem endOp_tlbBusy (o : Nat) : (endOp s o).tlbBusy = s.tlbBusy := rfl
@[simp] theorem endOp_launched (o : Nat) : (endOp s o).launched = s.launched := rfl
@[simp] theorem endOp_mircfg (o : Nat) : (endOp s o).mircfg = s.mircfg := rfl
@[simp] theorem endOp_mirin (o : Nat) : (endOp s o).mirin = s.mirin := rfl
@[simp] theorem endOp_mirBroken (o : Nat) : (endOp s o).mirBroken = s.mirBroken := rfl
@[simp] theorem endOp_ckerr (o : Nat) : (endOp s o).ckerr = s.ckerr := rfl
@[simp] theorem endOp_ckshard (o : Nat) : (endOp s o).ckshard = s.ckshard := rfl
@[simp] theorem endOp_ckpt (o : Nat) : (endOp s o).ckpt = s.ckpt := rfl
@[simp] theorem endOp_fabwin (o : Nat) : (endOp s o).fabwin = s.fabwin := rfl
@[simp] theorem endOp_peermap (o : Nat) : (endOp s o).peermap = s.peermap := rfl
@[simp] theorem endOp_activeVf (o : Nat) : (endOp s o).activeVf = s.activeVf := rfl
@[simp] theorem endOp_sliceNs (o : Nat) : (endOp s o).sliceNs = s.sliceNs := rfl
@[simp] theorem endOp_pmcs (o : Nat) : (endOp s o).pmcs = s.pmcs := rfl
@[simp] theorem endOp_spdm (o : Nat) : (endOp s o).spdm = s.spdm := rfl
@[simp] theorem endOp_justSet (o : Nat) : (endOp s o).justSet = s.justSet := rfl

/-! ### `addOp` -/

@[simp] theorem addOp_agenda (o : Op) : (addOp s o).agenda = s.agenda := rfl
@[simp] theorem addOp_cur (o : Op) : (addOp s o).cur = s.cur := rfl
@[simp] theorem addOp_ns (o : Op) : (addOp s o).ns = s.ns := rfl
@[simp] theorem addOp_mem (o : Op) : (addOp s o).mem = s.mem := rfl
@[simp] theorem addOp_locals (o : Op) : (addOp s o).locals = s.locals := rfl
@[simp] theorem addOp_poison (o : Op) : (addOp s o).poison = s.poison := rfl
@[simp] theorem addOp_keyGen (o : Op) : (addOp s o).keyGen = s.keyGen := rfl
@[simp] theorem addOp_unitKd (o : Op) : (addOp s o).unitKd = s.unitKd := rfl
@[simp] theorem addOp_rmwBad (o : Op) : (addOp s o).rmwBad = s.rmwBad := rfl
@[simp] theorem addOp_codeLog (o : Op) : (addOp s o).codeLog = s.codeLog := rfl
@[simp] theorem addOp_keys (o : Op) : (addOp s o).keys = s.keys := rfl
@[simp] theorem addOp_counts (o : Op) : (addOp s o).counts = s.counts := rfl
@[simp] theorem addOp_poolHead (o : Op) : (addOp s o).poolHead = s.poolHead := rfl
@[simp] theorem addOp_cores (o : Op) : (addOp s o).cores = s.cores := rfl
@[simp] theorem addOp_dies (o : Op) : (addOp s o).dies = s.dies := rfl
@[simp] theorem addOp_grids (o : Op) : (addOp s o).grids = s.grids := rfl
@[simp] theorem addOp_contexts (o : Op) : (addOp s o).contexts = s.contexts := rfl
@[simp] theorem addOp_moves (o : Op) : (addOp s o).moves = s.moves := rfl
@[simp] theorem addOp_mirrors (o : Op) : (addOp s o).mirrors = s.mirrors := rfl
@[simp] theorem addOp_ports (o : Op) : (addOp s o).ports = s.ports := rfl
@[simp] theorem addOp_out (o : Op) : (addOp s o).out = s.out := rfl
@[simp] theorem addOp_fresh (o : Op) : (addOp s o).fresh = s.fresh := rfl
@[simp] theorem addOp_form (o : Op) : (addOp s o).form = s.form := rfl
@[simp] theorem addOp_fuseDigest (o : Op) : (addOp s o).fuseDigest = s.fuseDigest := rfl
@[simp] theorem addOp_fuseSvn (o : Op) : (addOp s o).fuseSvn = s.fuseSvn := rfl
@[simp] theorem addOp_measFw (o : Op) : (addOp s o).measFw = s.measFw := rfl
@[simp] theorem addOp_fwpass (o : Op) : (addOp s o).fwpass = s.fwpass := rfl
@[simp] theorem addOp_badrange (o : Op) : (addOp s o).badrange = s.badrange := rfl
@[simp] theorem addOp_denied (o : Op) : (addOp s o).denied = s.denied := rfl
@[simp] theorem addOp_ready (o : Op) : (addOp s o).ready = s.ready := rfl
@[simp] theorem addOp_passed (o : Op) : (addOp s o).passed = s.passed := rfl
@[simp] theorem addOp_fwrange (o : Op) : (addOp s o).fwrange = s.fwrange := rfl
@[simp] theorem addOp_fwlock (o : Op) : (addOp s o).fwlock = s.fwlock := rfl
@[simp] theorem addOp_measgen (o : Op) : (addOp s o).measgen = s.measgen := rfl
@[simp] theorem addOp_keypol (o : Op) : (addOp s o).keypol = s.keypol := rfl
@[simp] theorem addOp_keypolLocked (o : Op) : (addOp s o).keypolLocked = s.keypolLocked := rfl
@[simp] theorem addOp_memcfg (o : Op) : (addOp s o).memcfg = s.memcfg := rfl
@[simp] theorem addOp_featacc (o : Op) : (addOp s o).featacc = s.featacc := rfl
@[simp] theorem addOp_featWritten (o : Op) : (addOp s o).featWritten = s.featWritten := rfl
@[simp] theorem addOp_ctxBase (o : Op) : (addOp s o).ctxBase = s.ctxBase := rfl
@[simp] theorem addOp_ctxSize (o : Op) : (addOp s o).ctxSize = s.ctxSize := rfl
@[simp] theorem addOp_heapbw (o : Op) : (addOp s o).heapbw = s.heapbw := rfl
@[simp] theorem addOp_pwrcap (o : Op) : (addOp s o).pwrcap = s.pwrcap := rfl
@[simp] theorem addOp_vfslice (o : Op) : (addOp s o).vfslice = s.vfslice := rfl
@[simp] theorem addOp_fabnode (o : Op) : (addOp s o).fabnode = s.fabnode := rfl
@[simp] theorem addOp_asidtab (o : Op) : (addOp s o).asidtab = s.asidtab := rfl
@[simp] theorem addOp_tlbinv (o : Op) : (addOp s o).tlbinv = s.tlbinv := rfl
@[simp] theorem addOp_tlbBusy (o : Op) : (addOp s o).tlbBusy = s.tlbBusy := rfl
@[simp] theorem addOp_launched (o : Op) : (addOp s o).launched = s.launched := rfl
@[simp] theorem addOp_mircfg (o : Op) : (addOp s o).mircfg = s.mircfg := rfl
@[simp] theorem addOp_mirin (o : Op) : (addOp s o).mirin = s.mirin := rfl
@[simp] theorem addOp_mirBroken (o : Op) : (addOp s o).mirBroken = s.mirBroken := rfl
@[simp] theorem addOp_ckerr (o : Op) : (addOp s o).ckerr = s.ckerr := rfl
@[simp] theorem addOp_ckshard (o : Op) : (addOp s o).ckshard = s.ckshard := rfl
@[simp] theorem addOp_ckpt (o : Op) : (addOp s o).ckpt = s.ckpt := rfl
@[simp] theorem addOp_fabwin (o : Op) : (addOp s o).fabwin = s.fabwin := rfl
@[simp] theorem addOp_peermap (o : Op) : (addOp s o).peermap = s.peermap := rfl
@[simp] theorem addOp_activeVf (o : Op) : (addOp s o).activeVf = s.activeVf := rfl
@[simp] theorem addOp_sliceNs (o : Op) : (addOp s o).sliceNs = s.sliceNs := rfl
@[simp] theorem addOp_pmcs (o : Op) : (addOp s o).pmcs = s.pmcs := rfl
@[simp] theorem addOp_spdm (o : Op) : (addOp s o).spdm = s.spdm := rfl
@[simp] theorem addOp_justSet (o : Op) : (addOp s o).justSet = s.justSet := rfl

/-! ### `setCount` -/

@[simp] theorem setCount_agenda (a : Nat) (c : BitVec 16) : (setCount s a c).agenda = s.agenda := rfl
@[simp] theorem setCount_cur (a : Nat) (c : BitVec 16) : (setCount s a c).cur = s.cur := rfl
@[simp] theorem setCount_ns (a : Nat) (c : BitVec 16) : (setCount s a c).ns = s.ns := rfl
@[simp] theorem setCount_mem (a : Nat) (c : BitVec 16) : (setCount s a c).mem = s.mem := rfl
@[simp] theorem setCount_locals (a : Nat) (c : BitVec 16) : (setCount s a c).locals = s.locals := rfl
@[simp] theorem setCount_poison (a : Nat) (c : BitVec 16) : (setCount s a c).poison = s.poison := rfl
@[simp] theorem setCount_keyGen (a : Nat) (c : BitVec 16) : (setCount s a c).keyGen = s.keyGen := rfl
@[simp] theorem setCount_unitKd (a : Nat) (c : BitVec 16) : (setCount s a c).unitKd = s.unitKd := rfl
@[simp] theorem setCount_rmwBad (a : Nat) (c : BitVec 16) : (setCount s a c).rmwBad = s.rmwBad := rfl
@[simp] theorem setCount_codeLog (a : Nat) (c : BitVec 16) : (setCount s a c).codeLog = s.codeLog := rfl
@[simp] theorem setCount_keys (a : Nat) (c : BitVec 16) : (setCount s a c).keys = s.keys := rfl
@[simp] theorem setCount_poolHead (a : Nat) (c : BitVec 16) : (setCount s a c).poolHead = s.poolHead := rfl
@[simp] theorem setCount_cores (a : Nat) (c : BitVec 16) : (setCount s a c).cores = s.cores := rfl
@[simp] theorem setCount_dies (a : Nat) (c : BitVec 16) : (setCount s a c).dies = s.dies := rfl
@[simp] theorem setCount_grids (a : Nat) (c : BitVec 16) : (setCount s a c).grids = s.grids := rfl
@[simp] theorem setCount_ops (a : Nat) (c : BitVec 16) : (setCount s a c).ops = s.ops := rfl
@[simp] theorem setCount_contexts (a : Nat) (c : BitVec 16) : (setCount s a c).contexts = s.contexts := rfl
@[simp] theorem setCount_moves (a : Nat) (c : BitVec 16) : (setCount s a c).moves = s.moves := rfl
@[simp] theorem setCount_mirrors (a : Nat) (c : BitVec 16) : (setCount s a c).mirrors = s.mirrors := rfl
@[simp] theorem setCount_ports (a : Nat) (c : BitVec 16) : (setCount s a c).ports = s.ports := rfl
@[simp] theorem setCount_out (a : Nat) (c : BitVec 16) : (setCount s a c).out = s.out := rfl
@[simp] theorem setCount_nextId (a : Nat) (c : BitVec 16) : (setCount s a c).nextId = s.nextId := rfl
@[simp] theorem setCount_fresh (a : Nat) (c : BitVec 16) : (setCount s a c).fresh = s.fresh := rfl
@[simp] theorem setCount_form (a : Nat) (c : BitVec 16) : (setCount s a c).form = s.form := rfl
@[simp] theorem setCount_fuseDigest (a : Nat) (c : BitVec 16) : (setCount s a c).fuseDigest = s.fuseDigest := rfl
@[simp] theorem setCount_fuseSvn (a : Nat) (c : BitVec 16) : (setCount s a c).fuseSvn = s.fuseSvn := rfl
@[simp] theorem setCount_measFw (a : Nat) (c : BitVec 16) : (setCount s a c).measFw = s.measFw := rfl
@[simp] theorem setCount_fwpass (a : Nat) (c : BitVec 16) : (setCount s a c).fwpass = s.fwpass := rfl
@[simp] theorem setCount_badrange (a : Nat) (c : BitVec 16) : (setCount s a c).badrange = s.badrange := rfl
@[simp] theorem setCount_denied (a : Nat) (c : BitVec 16) : (setCount s a c).denied = s.denied := rfl
@[simp] theorem setCount_ready (a : Nat) (c : BitVec 16) : (setCount s a c).ready = s.ready := rfl
@[simp] theorem setCount_passed (a : Nat) (c : BitVec 16) : (setCount s a c).passed = s.passed := rfl
@[simp] theorem setCount_fwrange (a : Nat) (c : BitVec 16) : (setCount s a c).fwrange = s.fwrange := rfl
@[simp] theorem setCount_fwlock (a : Nat) (c : BitVec 16) : (setCount s a c).fwlock = s.fwlock := rfl
@[simp] theorem setCount_measgen (a : Nat) (c : BitVec 16) : (setCount s a c).measgen = s.measgen := rfl
@[simp] theorem setCount_keypol (a : Nat) (c : BitVec 16) : (setCount s a c).keypol = s.keypol := rfl
@[simp] theorem setCount_keypolLocked (a : Nat) (c : BitVec 16) : (setCount s a c).keypolLocked = s.keypolLocked := rfl
@[simp] theorem setCount_memcfg (a : Nat) (c : BitVec 16) : (setCount s a c).memcfg = s.memcfg := rfl
@[simp] theorem setCount_featacc (a : Nat) (c : BitVec 16) : (setCount s a c).featacc = s.featacc := rfl
@[simp] theorem setCount_featWritten (a : Nat) (c : BitVec 16) : (setCount s a c).featWritten = s.featWritten := rfl
@[simp] theorem setCount_ctxBase (a : Nat) (c : BitVec 16) : (setCount s a c).ctxBase = s.ctxBase := rfl
@[simp] theorem setCount_ctxSize (a : Nat) (c : BitVec 16) : (setCount s a c).ctxSize = s.ctxSize := rfl
@[simp] theorem setCount_heapbw (a : Nat) (c : BitVec 16) : (setCount s a c).heapbw = s.heapbw := rfl
@[simp] theorem setCount_pwrcap (a : Nat) (c : BitVec 16) : (setCount s a c).pwrcap = s.pwrcap := rfl
@[simp] theorem setCount_vfslice (a : Nat) (c : BitVec 16) : (setCount s a c).vfslice = s.vfslice := rfl
@[simp] theorem setCount_fabnode (a : Nat) (c : BitVec 16) : (setCount s a c).fabnode = s.fabnode := rfl
@[simp] theorem setCount_asidtab (a : Nat) (c : BitVec 16) : (setCount s a c).asidtab = s.asidtab := rfl
@[simp] theorem setCount_tlbinv (a : Nat) (c : BitVec 16) : (setCount s a c).tlbinv = s.tlbinv := rfl
@[simp] theorem setCount_tlbBusy (a : Nat) (c : BitVec 16) : (setCount s a c).tlbBusy = s.tlbBusy := rfl
@[simp] theorem setCount_launched (a : Nat) (c : BitVec 16) : (setCount s a c).launched = s.launched := rfl
@[simp] theorem setCount_mircfg (a : Nat) (c : BitVec 16) : (setCount s a c).mircfg = s.mircfg := rfl
@[simp] theorem setCount_mirin (a : Nat) (c : BitVec 16) : (setCount s a c).mirin = s.mirin := rfl
@[simp] theorem setCount_mirBroken (a : Nat) (c : BitVec 16) : (setCount s a c).mirBroken = s.mirBroken := rfl
@[simp] theorem setCount_ckerr (a : Nat) (c : BitVec 16) : (setCount s a c).ckerr = s.ckerr := rfl
@[simp] theorem setCount_ckshard (a : Nat) (c : BitVec 16) : (setCount s a c).ckshard = s.ckshard := rfl
@[simp] theorem setCount_ckpt (a : Nat) (c : BitVec 16) : (setCount s a c).ckpt = s.ckpt := rfl
@[simp] theorem setCount_fabwin (a : Nat) (c : BitVec 16) : (setCount s a c).fabwin = s.fabwin := rfl
@[simp] theorem setCount_peermap (a : Nat) (c : BitVec 16) : (setCount s a c).peermap = s.peermap := rfl
@[simp] theorem setCount_activeVf (a : Nat) (c : BitVec 16) : (setCount s a c).activeVf = s.activeVf := rfl
@[simp] theorem setCount_sliceNs (a : Nat) (c : BitVec 16) : (setCount s a c).sliceNs = s.sliceNs := rfl
@[simp] theorem setCount_pmcs (a : Nat) (c : BitVec 16) : (setCount s a c).pmcs = s.pmcs := rfl
@[simp] theorem setCount_spdm (a : Nat) (c : BitVec 16) : (setCount s a c).spdm = s.spdm := rfl
@[simp] theorem setCount_justSet (a : Nat) (c : BitVec 16) : (setCount s a c).justSet = s.justSet := rfl

end Sys2Proof.Laws
end

