-- ==== Sys2Proof/Laws/Cores.lean ====
section
/-! SUPPORT. Cores, warps and lanes: what reading one after an update gives. -/

namespace Sys2Proof.Laws

open Sys2Proof.Machine

theorem coreAt_keys (s : State) (d q : Nat) : (coreAt s d q).die = d ∧ (coreAt s d q).pos = q := by
  unfold coreAt
  cases h : s.cores.find? (fun c => decide (c.die = d ∧ c.pos = q)) with
  | none => exact ⟨rfl, rfl⟩
  | some c => simpa using List.find?_some h

theorem find?_replace (l : List Core) (c : Core) :
    (l.map fun x => if x.die = c.die ∧ x.pos = c.pos then c else x).find?
        (fun x => decide (x.die = c.die ∧ x.pos = c.pos)) =
      (if l.any (fun x => x.die = c.die ∧ x.pos = c.pos) then some c else none) := by
  induction l with
  | nil => rfl
  | cons a t ih =>
    by_cases h : a.die = c.die ∧ a.pos = c.pos
    · simp [h]
    · simp only [List.map_cons, h, if_false, List.find?_cons, List.any_cons, decide_false, Bool.false_or]
      exact ih

theorem find?_replace_ne (l : List Core) (c : Core) (d q : Nat) (h : ¬(d = c.die ∧ q = c.pos)) :
    (l.map fun x => if x.die = c.die ∧ x.pos = c.pos then c else x).find?
        (fun x => decide (x.die = d ∧ x.pos = q)) =
      l.find? (fun x => decide (x.die = d ∧ x.pos = q)) := by
  induction l with
  | nil => rfl
  | cons a t ih =>
    by_cases h1 : a.die = c.die ∧ a.pos = c.pos
    · have h2 : ¬(c.die = d ∧ c.pos = q) := fun x => h ⟨x.1.symm, x.2.symm⟩
      have h3 : ¬(a.die = d ∧ a.pos = q) := by rw [h1.1, h1.2]; exact h2
      simp only [List.map_cons, h1, and_self, if_true, List.find?_cons, h2, decide_false, ih]
    · simp only [List.map_cons, h1, if_false, List.find?_cons, ih]

/-- A replaced core is what is read there. -/
theorem coreAt_setCore (s : State) (c : Core) : coreAt (setCore s c) c.die c.pos = c := by
  unfold coreAt setCore
  by_cases h : s.cores.any (fun x => x.die = c.die ∧ x.pos = c.pos)
  · simp only [h, if_true, find?_replace, Option.getD_some]
  · rw [if_neg h, List.find?_cons]
    simp

/-- Every other core is as it was. -/
theorem coreAt_setCore_ne (s : State) (c : Core) (d q : Nat) (h : ¬(d = c.die ∧ q = c.pos)) :
    coreAt (setCore s c) d q = coreAt s d q := by
  unfold coreAt setCore
  by_cases h1 : s.cores.any (fun x => x.die = c.die ∧ x.pos = c.pos)
  · simp only [h1, if_true, find?_replace_ne _ _ _ _ h]
  · have h2 : ¬(c.die = d ∧ c.pos = q) := fun x => h ⟨x.1.symm, x.2.symm⟩
    rw [if_neg h1, List.find?_cons]
    simp only [h2, decide_false]

/-- Changing a core by a function that keeps its place. -/
theorem coreAt_modCore (s : State) (d q : Nat) (f : Core → Core)
    (hd : ∀ c, (f c).die = c.die) (hp : ∀ c, (f c).pos = c.pos) :
    coreAt (modCore s d q f) d q = f (coreAt s d q) := by
  have h := coreAt_setCore s (f (coreAt s d q))
  rw [hd, hp, (coreAt_keys s d q).1, (coreAt_keys s d q).2] at h
  exact h

theorem coreAt_modCore_ne (s : State) (d q e r : Nat) (f : Core → Core)
    (hd : ∀ c, (f c).die = c.die) (hp : ∀ c, (f c).pos = c.pos) (h : ¬(e = d ∧ r = q)) :
    coreAt (modCore s d q f) e r = coreAt s e r := by
  apply coreAt_setCore_ne
  rw [hd, hp, (coreAt_keys s d q).1, (coreAt_keys s d q).2]
  exact h

/-- Of two replacements of one core the second stays. -/
theorem setCore_setCore (s : State) (a b : Core) (hd : b.die = a.die) (hp : b.pos = a.pos) :
    setCore (setCore s a) b = setCore s b := by
  unfold setCore
  have e : ∀ l : List Core, (if l.any (fun x => x.die = a.die ∧ x.pos = a.pos)
      then l.map (fun x => if x.die = a.die ∧ x.pos = a.pos then a else x) else a :: l).any
        (fun x => x.die = b.die ∧ x.pos = b.pos) = true := by
    intro l
    rw [hd, hp]
    by_cases h : l.any (fun x => x.die = a.die ∧ x.pos = a.pos) = true
    · rw [if_pos h]
      rw [List.any_eq_true] at h ⊢
      obtain ⟨x, hx, hc⟩ := h
      refine ⟨a, List.mem_map.2 ⟨x, hx, ?_⟩, by simp⟩
      rw [if_pos (by simpa using hc)]
    · rw [if_neg h]
      simp
  have m : ∀ l : List Core, (if l.any (fun x => x.die = a.die ∧ x.pos = a.pos)
      then l.map (fun x => if x.die = a.die ∧ x.pos = a.pos then a else x) else a :: l).map
        (fun x => if x.die = b.die ∧ x.pos = b.pos then b else x) =
      if l.any (fun x => x.die = b.die ∧ x.pos = b.pos)
      then l.map (fun x => if x.die = b.die ∧ x.pos = b.pos then b else x) else b :: l := by
    intro l
    rw [hd, hp]
    by_cases h : l.any (fun x => x.die = a.die ∧ x.pos = a.pos) = true
    · rw [if_pos h, if_pos h, List.map_map]
      apply List.map_congr_left
      intro x _
      simp only [Function.comp]
      by_cases hx : x.die = a.die ∧ x.pos = a.pos
      · simp [hx]
      · simp [hx]
    · rw [if_neg h, if_neg h]
      simp only [List.map_cons, and_self, if_true, List.cons.injEq, true_and]
      have h2 : ∀ x ∈ l, ¬(x.die = a.die ∧ x.pos = a.pos) := by
        intro x hx hc
        exact h (List.any_eq_true.2 ⟨x, hx, by simpa using hc⟩)
      conv => rhs; rw [← List.map_id l]
      apply List.map_congr_left
      intro x hx
      simp [h2 x hx]
  simp only [e, if_true, m]

@[simp] theorem coreAt_modWarp (s : State) (d q n : Nat) (f : Warp → Warp) :
    coreAt (modWarp s d q n f) d q =
      { coreAt s d q with warps := updWhere (fun w => w.slot = n) f (coreAt s d q).warps } :=
  coreAt_modCore s d q _ (fun _ => rfl) (fun _ => rfl)

/-- Two changes of one core are one change. -/
theorem modCore_modCore (s : State) (d q : Nat) (f g : Core → Core) (hfd : ∀ c, (f c).die = c.die)
    (hfp : ∀ c, (f c).pos = c.pos) (hgd : ∀ c, (g c).die = c.die) (hgp : ∀ c, (g c).pos = c.pos) :
    modCore (modCore s d q f) d q g = modCore s d q (fun c => g (f c)) := by
  have e := coreAt_modCore s d q f hfd hfp
  unfold modCore at e ⊢
  rw [e]
  exact setCore_setCore s _ _ (by rw [hgd]) (by rw [hgp])

/-- Two changes of one warp are one change. -/
theorem modWarp_modWarp (s : State) (d q n : Nat) (f g : Warp → Warp) (h : ∀ w, (f w).slot = w.slot) :
    modWarp (modWarp s d q n f) d q n g = modWarp s d q n (fun w => g (f w)) := by
  unfold modWarp
  refine (modCore_modCore s d q _ _ (by intro _; rfl) (by intro _; rfl) (by intro _; rfl) (by intro _; rfl)).trans ?_
  congr 1
  funext c
  simp only [updWhere, List.map_map]
  congr 1
  apply List.map_congr_left
  intro w _
  simp only [Function.comp]
  by_cases hw : w.slot = n
  · simp [hw, h]
  · simp [hw]

theorem coreAt_modWarp_ne (s : State) (d q n e r : Nat) (f : Warp → Warp) (h : ¬(e = d ∧ r = q)) :
    coreAt (modWarp s d q n f) e r = coreAt s e r :=
  coreAt_modCore_ne s d q e r _ (fun _ => rfl) (fun _ => rfl) h

theorem find?_updWhere {α : Type} (q r : α → Bool) (f : α → α) (l : List α) (h : ∀ x, r x → q (f x) = q x) :
    (updWhere r f l).find? q = (l.find? q).map fun x => if r x then f x else x := by
  unfold updWhere
  apply find?_map_of
  intro x
  by_cases hx : r x
  · simp [hx, h x hx]
  · simp [hx]

/-- Changing a warp by a function that keeps its slot. -/
theorem warpAt_modWarp (s : State) (d q n : Nat) (f : Warp → Warp) (h : ∀ w, (f w).slot = w.slot) :
    (coreAt (modWarp s d q n f) d q).warpAt n = ((coreAt s d q).warpAt n).map f := by
  rw [coreAt_modWarp]
  simp only [Core.warpAt]
  rw [find?_updWhere _ _ _ _ (fun x _ => by simp [h])]
  cases h1 : (coreAt s d q).warps.find? (fun w => decide (w.slot = n)) with
  | none => rfl
  | some w =>
    have := List.find?_some h1
    simp at this
    simp [this]

theorem warpAt_modWarp_ne (s : State) (d q n m : Nat) (f : Warp → Warp) (h : ∀ w, (f w).slot = w.slot)
    (hm : m ≠ n) :
    (coreAt (modWarp s d q n f) d q).warpAt m = (coreAt s d q).warpAt m := by
  rw [coreAt_modWarp]
  simp only [Core.warpAt]
  rw [find?_updWhere _ _ _ _ (fun x _ => by simp [h])]
  cases h1 : (coreAt s d q).warps.find? (fun w => decide (w.slot = m)) with
  | none => rfl
  | some w =>
    have := List.find?_some h1
    simp at this
    simp [this, hm]

/-! ### Lanes -/

/-- A function over the lanes of a mask changes those that exist. -/
theorem lane_mapLanes (w : Warp) (m : BitVec 32) (f : Nat → Thread → Thread) (k : Nat) :
    ({ w with th := mapLanes m f w.th } : Warp).lane k =
      if m.getLsbD k ∧ k < w.th.length then f k (w.lane k) else w.lane k := by
  simp only [Warp.lane, mapLanes, getD_mapIdx]
  by_cases h : k < w.th.length
  · simp [h]
  · simp [h, List.getD_eq_getElem?_getD]

theorem lane_of_running {w : Warp} {k : Nat} (h : (w.lane k).running = true) : k < w.th.length := by
  by_cases hk : k < w.th.length
  · exact hk
  · simp [Warp.lane, List.getD_eq_getElem?_getD, List.getElem?_eq_none (Nat.le_of_not_lt hk), Thread.running,
      Thread.absent] at h

end Sys2Proof.Laws
end

