-- ==== Sys2Proof/Laws/Gate.lean ====
section
/-! SUPPORT. Every thread instruction acts through the one issue of Machine/Ops.lean. -/

namespace Sys2Proof.Laws

open Sys2Proof.Machine

/-- The meaning of a thread instruction is an issue with a body of its own. -/
theorem exec_issue (i : Instr) (s : State) (h : isThread i = true) : ∃ body, exec i s = issue i s body := by
  cases i
  case add => show ∃ b, execAdd _ _ _ _ = issue _ _ b; unfold execAdd perLane2; exact ⟨_, rfl⟩
  case sub => show ∃ b, execSub _ _ _ _ = issue _ _ b; unfold execSub perLane2; exact ⟨_, rfl⟩
  case and => show ∃ b, execAnd _ _ _ _ = issue _ _ b; unfold execAnd perLane2; exact ⟨_, rfl⟩
  case or => show ∃ b, execOr _ _ _ _ = issue _ _ b; unfold execOr perLane2; exact ⟨_, rfl⟩
  case xor => show ∃ b, execXor _ _ _ _ = issue _ _ b; unfold execXor perLane2; exact ⟨_, rfl⟩
  case andn => show ∃ b, execAndn _ _ _ _ = issue _ _ b; unfold execAndn perLane2; exact ⟨_, rfl⟩
  case shl => show ∃ b, execShl _ _ _ _ = issue _ _ b; unfold execShl perLane2; exact ⟨_, rfl⟩
  case shr => show ∃ b, execShr _ _ _ _ = issue _ _ b; unfold execShr perLane2; exact ⟨_, rfl⟩
  case sra => show ∃ b, execSra _ _ _ _ = issue _ _ b; unfold execSra perLane2; exact ⟨_, rfl⟩
  case rotl => show ∃ b, execRotl _ _ _ _ = issue _ _ b; unfold execRotl perLane2; exact ⟨_, rfl⟩
  case min => show ∃ b, execMin _ _ _ _ = issue _ _ b; unfold execMin perLane2; exact ⟨_, rfl⟩
  case max => show ∃ b, execMax _ _ _ _ = issue _ _ b; unfold execMax perLane2; exact ⟨_, rfl⟩
  case minu => show ∃ b, execMinu _ _ _ _ = issue _ _ b; unfold execMinu perLane2; exact ⟨_, rfl⟩
  case maxu => show ∃ b, execMaxu _ _ _ _ = issue _ _ b; unfold execMaxu perLane2; exact ⟨_, rfl⟩
  case addsat => show ∃ b, execAddsat _ _ _ _ = issue _ _ b; unfold execAddsat perLane2; exact ⟨_, rfl⟩
  case subsat => show ∃ b, execSubsat _ _ _ _ = issue _ _ b; unfold execSubsat perLane2; exact ⟨_, rfl⟩
  case uadd => show ∃ b, execUadd _ _ _ _ = issue _ _ b; unfold execUadd uniform2; exact ⟨_, rfl⟩
  case usub => show ∃ b, execUsub _ _ _ _ = issue _ _ b; unfold execUsub uniform2; exact ⟨_, rfl⟩
  case uand => show ∃ b, execUand _ _ _ _ = issue _ _ b; unfold execUand uniform2; exact ⟨_, rfl⟩
  case uor => show ∃ b, execUor _ _ _ _ = issue _ _ b; unfold execUor uniform2; exact ⟨_, rfl⟩
  case uxor => show ∃ b, execUxor _ _ _ _ = issue _ _ b; unfold execUxor uniform2; exact ⟨_, rfl⟩
  case uandn => show ∃ b, execUandn _ _ _ _ = issue _ _ b; unfold execUandn uniform2; exact ⟨_, rfl⟩
  case ushl => show ∃ b, execUshl _ _ _ _ = issue _ _ b; unfold execUshl uniform2; exact ⟨_, rfl⟩
  case ushr => show ∃ b, execUshr _ _ _ _ = issue _ _ b; unfold execUshr uniform2; exact ⟨_, rfl⟩
  case usra => show ∃ b, execUsra _ _ _ _ = issue _ _ b; unfold execUsra uniform2; exact ⟨_, rfl⟩
  case urotl => show ∃ b, execUrotl _ _ _ _ = issue _ _ b; unfold execUrotl uniform2; exact ⟨_, rfl⟩
  case umin => show ∃ b, execUmin _ _ _ _ = issue _ _ b; unfold execUmin uniform2; exact ⟨_, rfl⟩
  case umax => show ∃ b, execUmax _ _ _ _ = issue _ _ b; unfold execUmax uniform2; exact ⟨_, rfl⟩
  case uminu => show ∃ b, execUminu _ _ _ _ = issue _ _ b; unfold execUminu uniform2; exact ⟨_, rfl⟩
  case umaxu => show ∃ b, execUmaxu _ _ _ _ = issue _ _ b; unfold execUmaxu uniform2; exact ⟨_, rfl⟩
  case uaddsat => show ∃ b, execUaddsat _ _ _ _ = issue _ _ b; unfold execUaddsat uniform2; exact ⟨_, rfl⟩
  case usubsat => show ∃ b, execUsubsat _ _ _ _ = issue _ _ b; unfold execUsubsat uniform2; exact ⟨_, rfl⟩
  case mul => show ∃ b, execMul _ _ _ _ = issue _ _ b; unfold execMul perLane2; exact ⟨_, rfl⟩
  case mulhi => show ∃ b, execMulhi _ _ _ _ = issue _ _ b; unfold execMulhi perLane2; exact ⟨_, rfl⟩
  case mulhu => show ∃ b, execMulhu _ _ _ _ = issue _ _ b; unfold execMulhu perLane2; exact ⟨_, rfl⟩
  case dot4s => show ∃ b, execDot4s _ _ _ _ = issue _ _ b; unfold execDot4s perLane3; exact ⟨_, rfl⟩
  case dot4u => show ∃ b, execDot4u _ _ _ _ = issue _ _ b; unfold execDot4u perLane3; exact ⟨_, rfl⟩
  case popc => show ∃ b, execPopc _ _ _ = issue _ _ b; unfold execPopc perLane1; exact ⟨_, rfl⟩
  case clz => show ∃ b, execClz _ _ _ = issue _ _ b; unfold execClz perLane1; exact ⟨_, rfl⟩
  case ctz => show ∃ b, execCtz _ _ _ = issue _ _ b; unfold execCtz perLane1; exact ⟨_, rfl⟩
  case brev => show ∃ b, execBrev _ _ _ = issue _ _ b; unfold execBrev perLane1; exact ⟨_, rfl⟩
  case abs => show ∃ b, execAbs _ _ _ = issue _ _ b; unfold execAbs perLane1; exact ⟨_, rfl⟩
  case lea => show ∃ b, execLea _ _ _ _ _ = issue _ _ b; unfold execLea perThreadPair; exact ⟨_, rfl⟩
  case leas => show ∃ b, execLeas _ _ _ _ _ = issue _ _ b; unfold execLeas perThreadPair; exact ⟨_, rfl⟩
  case addc => show ∃ b, execAddc _ _ _ _ _ = issue _ _ b; unfold execAddc carryLanes; exact ⟨_, rfl⟩
  case subc => show ∃ b, execSubc _ _ _ _ _ = issue _ _ b; unfold execSubc carryLanes; exact ⟨_, rfl⟩
  case cmp => show ∃ b, execCmp _ _ _ _ _ = issue _ _ b; unfold execCmp perPred; exact ⟨_, rfl⟩
  case pand => show ∃ b, execPand _ _ _ _ = issue _ _ b; unfold execPand perPred; exact ⟨_, rfl⟩
  case por => show ∃ b, execPor _ _ _ _ = issue _ _ b; unfold execPor perPred; exact ⟨_, rfl⟩
  case pxor => show ∃ b, execPxor _ _ _ _ = issue _ _ b; unfold execPxor perPred; exact ⟨_, rfl⟩
  case pandn => show ∃ b, execPandn _ _ _ _ = issue _ _ b; unfold execPandn perPred; exact ⟨_, rfl⟩
  case pnot => show ∃ b, execPnot _ _ _ = issue _ _ b; unfold execPnot perPred; exact ⟨_, rfl⟩
  case pmov => show ∃ b, execPmov _ _ _ = issue _ _ b; unfold execPmov perPred; exact ⟨_, rfl⟩
  case pset => show ∃ b, execPset _ _ = issue _ _ b; unfold execPset perPred; exact ⟨_, rfl⟩
  case pclr => show ∃ b, execPclr _ _ = issue _ _ b; unfold execPclr perPred; exact ⟨_, rfl⟩
  case sel => show ∃ b, execSel _ _ _ _ _ = issue _ _ b; unfold execSel perThread; exact ⟨_, rfl⟩
  case seln => show ∃ b, execSeln _ _ _ _ _ = issue _ _ b; unfold execSeln perThread; exact ⟨_, rfl⟩
  case div => show ∃ b, execDiv _ _ _ _ _ = issue _ _ b; unfold execDiv divideLanes; exact ⟨_, rfl⟩
  case divu => show ∃ b, execDivu _ _ _ _ _ = issue _ _ b; unfold execDivu divideLanes; exact ⟨_, rfl⟩
  case rem => show ∃ b, execRem _ _ _ _ _ = issue _ _ b; unfold execRem divideLanes; exact ⟨_, rfl⟩
  case remu => show ∃ b, execRemu _ _ _ _ _ = issue _ _ b; unfold execRemu divideLanes; exact ⟨_, rfl⟩
  case addi => show ∃ b, execAddi _ _ _ _ = issue _ _ b; unfold execAddi perLane1; exact ⟨_, rfl⟩
  case andi => show ∃ b, execAndi _ _ _ _ = issue _ _ b; unfold execAndi perLane1; exact ⟨_, rfl⟩
  case ori => show ∃ b, execOri _ _ _ _ = issue _ _ b; unfold execOri perLane1; exact ⟨_, rfl⟩
  case xori => show ∃ b, execXori _ _ _ _ = issue _ _ b; unfold execXori perLane1; exact ⟨_, rfl⟩
  case shli => show ∃ b, execShli _ _ _ _ = issue _ _ b; unfold execShli perLane1; exact ⟨_, rfl⟩
  case shri => show ∃ b, execShri _ _ _ _ = issue _ _ b; unfold execShri perLane1; exact ⟨_, rfl⟩
  case srai => show ∃ b, execSrai _ _ _ _ = issue _ _ b; unfold execSrai perLane1; exact ⟨_, rfl⟩
  case rotli => show ∃ b, execRotli _ _ _ _ = issue _ _ b; unfold execRotli perLane1; exact ⟨_, rfl⟩
  case bfx => show ∃ b, execBfx _ _ _ _ _ = issue _ _ b; unfold execBfx perLane1; exact ⟨_, rfl⟩
  case bfxs => show ∃ b, execBfxs _ _ _ _ _ = issue _ _ b; unfold execBfxs perLane1; exact ⟨_, rfl⟩
  case bfi => show ∃ b, execBfi _ _ _ _ _ = issue _ _ b; unfold execBfi perLane3; exact ⟨_, rfl⟩
  case movi => show ∃ b, execMovi _ _ _ = issue _ _ b; unfold execMovi perThread; exact ⟨_, rfl⟩
  case movhi => show ∃ b, execMovhi _ _ _ = issue _ _ b; unfold execMovhi perThread; exact ⟨_, rfl⟩
  case uaddi => show ∃ b, execUaddi _ _ _ _ = issue _ _ b; unfold execUaddi uniform1; exact ⟨_, rfl⟩
  case umovi => show ∃ b, execUmovi _ _ _ = issue _ _ b; unfold execUmovi uniform1; exact ⟨_, rfl⟩
  case bcast => show ∃ b, execBcast _ _ _ = issue _ _ b; unfold execBcast; exact ⟨_, rfl⟩
  case rdfirst => show ∃ b, execRdfirst _ _ _ = issue _ _ b; unfold execRdfirst; exact ⟨_, rfl⟩
  case fadd => show ∃ b, execFadd _ _ _ _ _ = issue _ _ b; unfold execFadd perFloat; exact ⟨_, rfl⟩
  case fsub => show ∃ b, execFsub _ _ _ _ _ = issue _ _ b; unfold execFsub perFloat; exact ⟨_, rfl⟩
  case fmul => show ∃ b, execFmul _ _ _ _ _ = issue _ _ b; unfold execFmul perFloat; exact ⟨_, rfl⟩
  case fmin => show ∃ b, execFmin _ _ _ _ = issue _ _ b; unfold execFmin perFloat; exact ⟨_, rfl⟩
  case fmax => show ∃ b, execFmax _ _ _ _ = issue _ _ b; unfold execFmax perFloat; exact ⟨_, rfl⟩
  case ffma => show ∃ b, execFfma _ _ _ _ _ = issue _ _ b; unfold execFfma perFloat; exact ⟨_, rfl⟩
  case ffms => show ∃ b, execFfms _ _ _ _ _ = issue _ _ b; unfold execFfms perFloat; exact ⟨_, rfl⟩
  case ffnma => show ∃ b, execFfnma _ _ _ _ _ = issue _ _ b; unfold execFfnma perFloat; exact ⟨_, rfl⟩
  case bfadd2 => show ∃ b, execBfadd2 _ _ _ _ _ = issue _ _ b; unfold execBfadd2 perFloat; exact ⟨_, rfl⟩
  case bfsub2 => show ∃ b, execBfsub2 _ _ _ _ _ = issue _ _ b; unfold execBfsub2 perFloat; exact ⟨_, rfl⟩
  case bfmul2 => show ∃ b, execBfmul2 _ _ _ _ _ = issue _ _ b; unfold execBfmul2 perFloat; exact ⟨_, rfl⟩
  case bfmin2 => show ∃ b, execBfmin2 _ _ _ _ = issue _ _ b; unfold execBfmin2 perFloat; exact ⟨_, rfl⟩
  case bfmax2 => show ∃ b, execBfmax2 _ _ _ _ = issue _ _ b; unfold execBfmax2 perFloat; exact ⟨_, rfl⟩
  case bffma2 => show ∃ b, execBffma2 _ _ _ _ _ = issue _ _ b; unfold execBffma2 perFloat; exact ⟨_, rfl⟩
  case bffms2 => show ∃ b, execBffms2 _ _ _ _ _ = issue _ _ b; unfold execBffms2 perFloat; exact ⟨_, rfl⟩
  case bffnma2 => show ∃ b, execBffnma2 _ _ _ _ _ = issue _ _ b; unfold execBffnma2 perFloat; exact ⟨_, rfl⟩
  case fcmp => show ∃ b, execFcmp _ _ _ _ _ = issue _ _ b; unfold execFcmp; exact ⟨_, rfl⟩
  case fabs => show ∃ b, execFabs _ _ _ = issue _ _ b; unfold execFabs perFloat; exact ⟨_, rfl⟩
  case fneg => show ∃ b, execFneg _ _ _ = issue _ _ b; unfold execFneg perFloat; exact ⟨_, rfl⟩
  case fclass => show ∃ b, execFclass _ _ _ = issue _ _ b; unfold execFclass perLane1; exact ⟨_, rfl⟩
  case bfabs2 => show ∃ b, execBfabs2 _ _ _ = issue _ _ b; unfold execBfabs2 perFloat; exact ⟨_, rfl⟩
  case bfneg2 => show ∃ b, execBfneg2 _ _ _ = issue _ _ b; unfold execBfneg2 perFloat; exact ⟨_, rfl⟩
  case rcp => show ∃ b, execRcp _ _ _ = issue _ _ b; unfold execRcp perFloat; exact ⟨_, rfl⟩
  case rsqrt => show ∃ b, execRsqrt _ _ _ = issue _ _ b; unfold execRsqrt perFloat; exact ⟨_, rfl⟩
  case sqrt => show ∃ b, execSqrt _ _ _ = issue _ _ b; unfold execSqrt perFloat; exact ⟨_, rfl⟩
  case exp2 => show ∃ b, execExp2 _ _ _ = issue _ _ b; unfold execExp2 perFloat; exact ⟨_, rfl⟩
  case log2 => show ∃ b, execLog2 _ _ _ = issue _ _ b; unfold execLog2 perFloat; exact ⟨_, rfl⟩
  case sin => show ∃ b, execSin _ _ _ = issue _ _ b; unfold execSin perFloat; exact ⟨_, rfl⟩
  case cos => show ∃ b, execCos _ _ _ = issue _ _ b; unfold execCos perFloat; exact ⟨_, rfl⟩
  case sfe => show ∃ b, execSfe _ _ _ = issue _ _ b; unfold execSfe sfeLanes perPath; exact ⟨_, rfl⟩
  case sfe2 => show ∃ b, execSfe2 _ _ _ = issue _ _ b; unfold execSfe2 sfeLanes perPath; exact ⟨_, rfl⟩
  case tblld => show ∃ b, execTblld _ _ = issue _ _ b; unfold execTblld perPath; exact ⟨_, rfl⟩
  case tblsw => show ∃ b, execTblsw  _ = issue _ _ b; unfold execTblsw perPath; exact ⟨_, rfl⟩
  case cvt => show ∃ b, execCvt _ _ _ _ _ _ _ = issue _ _ b; unfold execCvt perFloat; exact ⟨_, rfl⟩
  case cvto => show ∃ b, execCvto _ _ _ _ _ _ = issue _ _ b; unfold execCvto perPath; exact ⟨_, rfl⟩
  case flrd => show ∃ b, execFlrd _ _ = issue _ _ b; unfold execFlrd; exact ⟨_, rfl⟩
  case flclr => show ∃ b, execFlclr _ _ = issue _ _ b; unfold execFlclr perPath; exact ⟨_, rfl⟩
  case ldg => show ∃ b, execLdg _ _ _ _ _ _ = issue _ _ b; unfold execLdg loadLanes perPath; exact ⟨_, rfl⟩
  case lds => show ∃ b, execLds _ _ _ _ _ _ = issue _ _ b; unfold execLds loadLanes perPath; exact ⟨_, rfl⟩
  case ldh => show ∃ b, execLdh _ _ _ _ _ _ = issue _ _ b; unfold execLdh loadLanes perPath; exact ⟨_, rfl⟩
  case stg => show ∃ b, execStg _ _ _ _ _ _ _ = issue _ _ b; unfold execStg storeLanes perPath; exact ⟨_, rfl⟩
  case sts => show ∃ b, execSts _ _ _ _ _ _ _ = issue _ _ b; unfold execSts storeLanes perPath; exact ⟨_, rfl⟩
  case sth => show ∃ b, execSth _ _ _ _ _ _ _ = issue _ _ b; unfold execSth storeLanes perPath; exact ⟨_, rfl⟩
  case ldsys => show ∃ b, execLdsys _ _ _ _ _ _ = issue _ _ b; unfold execLdsys loadLanes perPath; exact ⟨_, rfl⟩
  case stsys => show ∃ b, execStsys _ _ _ _ _ _ = issue _ _ b; unfold execStsys storeLanes perPath; exact ⟨_, rfl⟩
  case pfl1 => show ∃ b, execPfl1 _ _ _ = issue _ _ b; unfold execPfl1; exact ⟨_, rfl⟩
  case pfl2 => show ∃ b, execPfl2 _ _ _ = issue _ _ b; unfold execPfl2; exact ⟨_, rfl⟩
  case evl1 => show ∃ b, execEvl1 _ _ _ = issue _ _ b; unfold execEvl1; exact ⟨_, rfl⟩
  case atomg => show ∃ b, execAtomg _ _ _ _ _ _ _ _ = issue _ _ b; unfold execAtomg atomLanes perPath; exact ⟨_, rfl⟩
  case atoms => show ∃ b, execAtoms _ _ _ _ _ _ _ = issue _ _ b; unfold execAtoms atomLanes perPath; exact ⟨_, rfl⟩
  case atomh => show ∃ b, execAtomh _ _ _ _ _ _ _ = issue _ _ b; unfold execAtomh atomLanes perPath; exact ⟨_, rfl⟩
  case barw => show ∃ b, execBarw _ _ = issue _ _ b; unfold execBarw; exact ⟨_, rfl⟩
  case barb => show ∃ b, execBarb _ _ = issue _ _ b; unfold execBarb; exact ⟨_, rfl⟩
  case barc => show ∃ b, execBarc _ _ _ = issue _ _ b; unfold execBarc; exact ⟨_, rfl⟩
  case barg => show ∃ b, execBarg _ _ _ = issue _ _ b; unfold execBarg; exact ⟨_, rfl⟩
  case tbinit => show ∃ b, execTbinit _ _ _ _ = issue _ _ b; unfold execTbinit perPath; exact ⟨_, rfl⟩
  case tbarr => show ∃ b, execTbarr _ _ _ = issue _ _ b; unfold execTbarr perPath; exact ⟨_, rfl⟩
  case tbarrOne => show ∃ b, execTbarrOne _ _ _ = issue _ _ b; unfold execTbarrOne perPath; exact ⟨_, rfl⟩
  case tbexp => show ∃ b, execTbexp _ _ _ _ = issue _ _ b; unfold execTbexp perPath; exact ⟨_, rfl⟩
  case tbwait => show ∃ b, execTbwait _ _ _ _ = issue _ _ b; unfold execTbwait perPath; exact ⟨_, rfl⟩
  case fenceEng => show ∃ b, execFenceEng _ _ = issue _ _ b; unfold execFenceEng fence perPath; exact ⟨_, rfl⟩
  case fenceSys => show ∃ b, execFenceSys _ _ = issue _ _ b; unfold execFenceSys fence perPath; exact ⟨_, rfl⟩
  case fenceMir => show ∃ b, execFenceMir _ _ = issue _ _ b; unfold execFenceMir fence perPath; exact ⟨_, rfl⟩
  case fenceAll => show ∃ b, execFenceAll _ _ = issue _ _ b; unfold execFenceAll fence perPath; exact ⟨_, rfl⟩
  case fwait => show ∃ b, execFwait _ _ = issue _ _ b; unfold execFwait perPath; exact ⟨_, rfl⟩
  case waitcLd => show ∃ b, execWaitcLd _ _ = issue _ _ b; unfold execWaitcLd perPath; exact ⟨_, rfl⟩
  case waitcSt => show ∃ b, execWaitcSt _ _ = issue _ _ b; unfold execWaitcSt perPath; exact ⟨_, rfl⟩
  case xlaneAt => show ∃ b, execXlaneAt _ _ _ _ = issue _ _ b; unfold execXlaneAt xlane; exact ⟨_, rfl⟩
  case xlaneBack => show ∃ b, execXlaneBack _ _ _ _ = issue _ _ b; unfold execXlaneBack xlane; exact ⟨_, rfl⟩
  case xlaneFwd => show ∃ b, execXlaneFwd _ _ _ _ = issue _ _ b; unfold execXlaneFwd xlane; exact ⟨_, rfl⟩
  case xlaneSwz => show ∃ b, execXlaneSwz _ _ _ _ = issue _ _ b; unfold execXlaneSwz xlane; exact ⟨_, rfl⟩
  case push => show ∃ b, execPush _ _ _ _ = issue _ _ b; unfold execPush; exact ⟨_, rfl⟩
  case scanAdd => show ∃ b, execScanAdd _ _ _ = issue _ _ b; unfold execScanAdd foldLanes; exact ⟨_, rfl⟩
  case scanAddx => show ∃ b, execScanAddx _ _ _ = issue _ _ b; unfold execScanAddx foldLanes; exact ⟨_, rfl⟩
  case scanMin => show ∃ b, execScanMin _ _ _ = issue _ _ b; unfold execScanMin foldLanes; exact ⟨_, rfl⟩
  case scanMax => show ∃ b, execScanMax _ _ _ = issue _ _ b; unfold execScanMax foldLanes; exact ⟨_, rfl⟩
  case pgath => show ∃ b, execPgath _ _ _ = issue _ _ b; unfold execPgath; exact ⟨_, rfl⟩
  case pall => show ∃ b, execPall _ _ _ = issue _ _ b; unfold execPall; exact ⟨_, rfl⟩
  case pany => show ∃ b, execPany _ _ _ = issue _ _ b; unfold execPany; exact ⟨_, rfl⟩
  case lsame => show ∃ b, execLsame _ _ _ = issue _ _ b; unfold execLsame; exact ⟨_, rfl⟩
  case lsameAll => show ∃ b, execLsameAll _ _ _ = issue _ _ b; unfold execLsameAll; exact ⟨_, rfl⟩
  case lfoldAdd => show ∃ b, execLfoldAdd _ _ _ = issue _ _ b; unfold execLfoldAdd foldLanes; exact ⟨_, rfl⟩
  case lfoldMin => show ∃ b, execLfoldMin _ _ _ = issue _ _ b; unfold execLfoldMin foldLanes; exact ⟨_, rfl⟩
  case lfoldMax => show ∃ b, execLfoldMax _ _ _ = issue _ _ b; unfold execLfoldMax foldLanes; exact ⟨_, rfl⟩
  case lfoldAnd => show ∃ b, execLfoldAnd _ _ _ = issue _ _ b; unfold execLfoldAnd foldLanes; exact ⟨_, rfl⟩
  case lfoldOr => show ∃ b, execLfoldOr _ _ _ = issue _ _ b; unfold execLfoldOr foldLanes; exact ⟨_, rfl⟩
  case lfoldXor => show ∃ b, execLfoldXor _ _ _ = issue _ _ b; unfold execLfoldXor foldLanes; exact ⟨_, rfl⟩
  case cpy => show ∃ b, execCpy _ _ _ _ _ _ _ = issue _ _ b; unfold execCpy perPath; exact ⟨_, rfl⟩
  case tld => show ∃ b, execTld _ _ _ _ _ = issue _ _ b; unfold execTld tensorCopy perPath; exact ⟨_, rfl⟩
  case tst => show ∃ b, execTst _ _ _ _ _ = issue _ _ b; unfold execTst tensorCopy perPath; exact ⟨_, rfl⟩
  case mcast => show ∃ b, execMcast _ _ _ _ = issue _ _ b; unfold execMcast perPath; exact ⟨_, rfl⟩
  case slotClaim => show ∃ b, execSlotClaim _ _ _ = issue _ _ b; unfold execSlotClaim perPath; exact ⟨_, rfl⟩
  case slotRel => show ∃ b, execSlotRel _ _ _ = issue _ _ b; unfold execSlotRel perPath; exact ⟨_, rfl⟩
  case spawn => show ∃ b, execSpawn _ _ _ = issue _ _ b; unfold execSpawn perPath; exact ⟨_, rfl⟩
  case idem => show ∃ b, execIdem  _ = issue _ _ b; unfold execIdem perPath; exact ⟨_, rfl⟩
  case idemx => show ∃ b, execIdemx  _ = issue _ _ b; unfold execIdemx perPath; exact ⟨_, rfl⟩
  case yield => show ∃ b, execYield _ _ = issue _ _ b; unfold execYield perPath; exact ⟨_, rfl⟩
  case lxbase => show ∃ b, execLxbase _ _ _ = issue _ _ b; unfold execLxbase perPath; exact ⟨_, rfl⟩
  case lxext0 => show ∃ b, execLxext0 _ _ _ = issue _ _ b; unfold execLxext0 lxExt perPath; exact ⟨_, rfl⟩
  case lxext1 => show ∃ b, execLxext1 _ _ _ = issue _ _ b; unfold execLxext1 lxExt perPath; exact ⟨_, rfl⟩
  case lxext2 => show ∃ b, execLxext2 _ _ _ = issue _ _ b; unfold execLxext2 lxExt perPath; exact ⟨_, rfl⟩
  case lxext3 => show ∃ b, execLxext3 _ _ _ = issue _ _ b; unfold execLxext3 lxExt perPath; exact ⟨_, rfl⟩
  case gkset => show ∃ b, execGkset _ _ = issue _ _ b; unfold execGkset perPath; exact ⟨_, rfl⟩
  case gkrd => show ∃ b, execGkrd _ _ = issue _ _ b; unfold execGkrd; exact ⟨_, rfl⟩
  case mma => show ∃ b, execMma _ _ _ _ _ _ = issue _ _ b; unfold execMma perPath; exact ⟨_, rfl⟩
  case accld => show ∃ b, execAccld _ _ _ _ _ = issue _ _ b; unfold execAccld perPath; exact ⟨_, rfl⟩
  case accst => show ∃ b, execAccst _ _ _ _ _ = issue _ _ b; unfold execAccst perPath; exact ⟨_, rfl⟩
  case mmack => show ∃ b, execMmack _ _ _ = issue _ _ b; unfold execMmack perPath; exact ⟨_, rfl⟩
  case mmackCut => show ∃ b, execMmackCut _ _ _ = issue _ _ b; unfold execMmackCut perPath; exact ⟨_, rfl⟩
  case tdec => show ∃ b, execTdec _ _ _ _ _ = issue _ _ b; unfold execTdec perPath; exact ⟨_, rfl⟩
  case tdecQ => show ∃ b, execTdecQ _ _ _ _ = issue _ _ b; unfold execTdecQ perPath; exact ⟨_, rfl⟩
  case venc => show ∃ b, execVenc _ _ _ _ _ = issue _ _ b; unfold execVenc perPath; exact ⟨_, rfl⟩
  case twget => show ∃ b, execTwget _ _ _ _ _ = issue _ _ b; unfold execTwget perPath; exact ⟨_, rfl⟩
  case bra => show ∃ b, execBra _ _ _ = issue _ _ b; unfold execBra branch; exact ⟨_, rfl⟩
  case call => show ∃ b, execCall _ _ _ = issue _ _ b; unfold execCall branch; exact ⟨_, rfl⟩
  case jmp => show ∃ b, execJmp _ _ = issue _ _ b; unfold execJmp transfer; exact ⟨_, rfl⟩
  case callr => show ∃ b, execCallr _ _ = issue _ _ b; unfold execCallr transfer; exact ⟨_, rfl⟩
  case ret => show ∃ b, execRet  _ = issue _ _ b; unfold execRet transfer; exact ⟨_, rfl⟩
  case exit => show ∃ b, execExit  _ = issue _ _ b; unfold execExit; exact ⟨_, rfl⟩
  case fuse => show ∃ b, execFuse  _ = issue _ _ b; unfold execFuse; exact ⟨_, rfl⟩
  case trap => show ∃ b, execTrap _ _ = issue _ _ b; unfold execTrap; exact ⟨_, rfl⟩
  case guard => show ∃ b, execGuard _ _ _ = issue _ _ b; unfold execGuard guardPath; exact ⟨_, rfl⟩
  case guardN => show ∃ b, execGuardN _ _ _ = issue _ _ b; unfold execGuardN guardPath; exact ⟨_, rfl⟩
  case loop => show ∃ b, execLoop _ _ _ _ = issue _ _ b; unfold execLoop enterLoop perPath; exact ⟨_, rfl⟩
  case loopLong => show ∃ b, execLoopLong _ _ _ _ = issue _ _ b; unfold execLoopLong enterLoop perPath; exact ⟨_, rfl⟩
  case brk => show ∃ b, execBrk _ _ = issue _ _ b; unfold execBrk; exact ⟨_, rfl⟩
  case wbase => show ∃ b, execWbase _ _ = issue _ _ b; unfold execWbase; exact ⟨_, rfl⟩
  case movs => show ∃ b, execMovs _ _ _ = issue _ _ b; unfold execMovs; exact ⟨_, rfl⟩
  case nop => show ∃ b, execNop  _ = issue _ _ b; unfold execNop; exact ⟨_, rfl⟩
  case pshare => show ∃ b, execPshare _ _ _ = issue _ _ b; unfold execPshare shareFrames perPath; exact ⟨_, rfl⟩
  case pshareRo => show ∃ b, execPshareRo _ _ _ = issue _ _ b; unfold execPshareRo shareFrames perPath; exact ⟨_, rfl⟩
  case prel => show ∃ b, execPrel _ _ _ = issue _ _ b; unfold execPrel perPath; exact ⟨_, rfl⟩
  case pq => show ∃ b, execPq _ _ _ = issue _ _ b; unfold execPq perPath; exact ⟨_, rfl⟩
  case nput => show ∃ b, execNput _ _ _ _ = issue _ _ b; unfold execNput oneSided perPath; exact ⟨_, rfl⟩
  case nget => show ∃ b, execNget _ _ _ _ = issue _ _ b; unfold execNget oneSided perPath; exact ⟨_, rfl⟩
  case ncoll => show ∃ b, execNcoll _ _ _ _ = issue _ _ b; unfold execNcoll collective perPath; exact ⟨_, rfl⟩
  case nscmax => show ∃ b, execNscmax _ _ _ _ = issue _ _ b; unfold execNscmax collective perPath; exact ⟨_, rfl⟩
  case nsum => show ∃ b, execNsum _ _ _ _ = issue _ _ b; unfold execNsum collective perPath; exact ⟨_, rfl⟩
  case dxfer => show ∃ b, execDxfer _ _ = issue _ _ b; unfold execDxfer perPath; exact ⟨_, rfl⟩
  case sigst => show ∃ b, execSigst _ _ _ = issue _ _ b; unfold execSigst signalPath perPath; exact ⟨_, rfl⟩
  case sigadd => show ∃ b, execSigadd _ _ _ = issue _ _ b; unfold execSigadd signalPath perPath; exact ⟨_, rfl⟩
  all_goals exact absurd (show (false : Bool) = true from h) (by decide)

end Sys2Proof.Laws
end

