-- ==== Sys2Proof/Laws/Issue.lean ====
section
/-! SUPPORT. What the shared operation `issue` can do: its accounts, the move of the lanes, the loop levels, and what an
instruction leaves that only changes its warp. -/

namespace Sys2Proof.Machine

theorem Thread.Alike.refl (a : Thread) : a.Alike a := rfl

theorem Thread.Alike.trans {a b c : Thread} (h : a.Alike b) (h' : b.Alike c) : a.Alike c := by
  unfold Thread.Alike at *
  rw [h, h']

end Sys2Proof.Machine

namespace Sys2Proof.Laws

open Sys2Proof.Machine

/-! ### Threads alike -/

theorem alike_advance (t : Thread) (b : Bool) : (t.advance b).Alike t := rfl

theorem alike_wait (t : Thread) (w : Wait) : ({ t with wait := w } : Thread).Alike t := rfl

theorem alike_waitPc (t : Thread) (w : Wait) (pc : BitVec 52) : ({ t with wait := w, pc := pc } : Thread).Alike t := rfl

@[simp] theorem advance_get (t : Thread) (b : Bool) (l : Loc) : (t.advance b).get l = t.get l := by
  cases l <;> rfl

@[simp] theorem advance_reg (t : Thread) (b : Bool) (n : Nat) : (t.advance b).reg n = t.reg n := by
  unfold Thread.reg
  simp [Thread.advance, Thread.get]

theorem put_alike {a b : Thread} (h : a.Alike b) (l : Loc) (x : Word) : (a.put l x).Alike (b.put l x) := by
  unfold Thread.Alike at h
  rw [h]
  cases l <;> rfl

theorem setReg_alike {a b : Thread} (h : a.Alike b) (n : Nat) (x : Word) : (a.setReg n x).Alike (b.setReg n x) := by
  have hw : a.wb = b.wb := by rw [h]
  unfold Thread.setReg
  rw [hw]
  cases fieldLoc b.wb.toNat n with
  | none => exact h
  | some l => exact put_alike h l x

theorem setPair_alike {a b : Thread} (h : a.Alike b) (n : Nat) (x : BitVec 64) :
    (a.setPair n x).Alike (b.setPair n x) :=
  setReg_alike (setReg_alike h _ _) _ _

theorem setPred_alike {a b : Thread} (h : a.Alike b) (n : Nat) (c : Bool) : (a.setPred n c).Alike (b.setPred n c) := by
  unfold Thread.Alike at h
  rw [h]
  unfold Thread.setPred
  rfl

/-! ### Loop levels (R195) -/

/-- A warp agrees with an earlier one but for the progress of its lanes and its loop levels. -/
def WarpLike (a b : Warp) : Prop :=
  (∀ k, (a.lane k).Alike (b.lane k)) ∧ a.th.length = b.th.length ∧
    a = { b with th := a.th, sh := { b.sh with loops := a.sh.loops } }

theorem WarpLike.refl (a : Warp) : WarpLike a a := ⟨fun _ => Thread.Alike.refl _, rfl, rfl⟩

theorem WarpLike.trans {a b c : Warp} (h : WarpLike a b) (h' : WarpLike b c) : WarpLike a c := by
  refine ⟨fun k => (h.1 k).trans (h'.1 k), h.2.1.trans h'.2.1, ?_⟩
  have e := h.2.2
  have e' := h'.2.2
  rw [e'] at e
  exact e

theorem warpLike_lanes (w : Warp) (m : BitVec 32) (f : Nat → Thread → Thread) (x : List Loop)
    (h : ∀ k t, (f k t).Alike t) :
    WarpLike { w with th := mapLanes m f w.th, sh := { w.sh with loops := x } } w := by
  refine ⟨fun k => ?_, by simp [mapLanes], rfl⟩
  have := lane_mapLanes w m f k
  show (({ w with th := mapLanes m f w.th } : Warp).lane k).Alike _
  rw [this]
  split
  · exact h _ _
  · exact Thread.Alike.refl _

theorem warpLike_arrive (w : Warp) (m : BitVec 32) : WarpLike (w.arrive m) w := by
  apply warpLike_lanes w m _ w.sh.loops
  intro k t
  split
  · split
    · exact alike_wait _ _
    · exact Thread.Alike.refl _
  · exact Thread.Alike.refl _

theorem warpLike_levelAct (w : Warp) (n : Nat) : WarpLike (w.levelAct n) w := by
  unfold Warp.levelAct
  split
  · exact WarpLike.refl w
  · rename_i l _
    split
    · exact WarpLike.refl w
    · split
      · exact ⟨fun _ => Thread.Alike.refl _, rfl, rfl⟩
      · split
        · dsimp only
          split
          · exact warpLike_lanes w _ _ _ fun k t => alike_waitPc t _ _
          · exact (warpLike_arrive _ _).trans (warpLike_lanes w _ _ _ fun k t => alike_waitPc t _ _)
        · exact WarpLike.refl w

theorem warpLike_foldl (l : List Nat) (w : Warp) :
    WarpLike (l.foldl (fun w i => w.levelAct (i % 3)) w) w := by
  induction l generalizing w with
  | nil => exact WarpLike.refl w
  | cons a t ih => exact (ih _).trans (warpLike_levelAct w _)

/-- After an issue the loop levels act: only the progress of the lanes and the levels change (R195). -/
theorem warpLike_loopSettle (w : Warp) (m : BitVec 32) : WarpLike (w.loopSettle m) w := by
  unfold Warp.loopSettle
  split
  · exact (warpLike_foldl _ _).trans (warpLike_arrive w m)
  · exact WarpLike.refl w

/-- Without an active level nothing changes. -/
theorem loopSettle_idle {w : Warp} (h : w.looping = false) (m : BitVec 32) : w.loopSettle m = w := by
  simp [Warp.loopSettle, h]

/-! ### The counts of an issue (R280, R330, R385) -/

/-- What counts alone may do to a state. -/
def Counted (s t : State) : Prop :=
  t = { s with dies := t.dies, grids := t.grids, pmcs := t.pmcs, out := t.out, justSet := t.justSet } ∧
    t.dies.map Die.unskid = s.dies.map Die.unskid ∧ t.grids.map Grid.uncounted = s.grids.map Grid.uncounted

theorem Counted.refl (s : State) : Counted s s := ⟨rfl, rfl, rfl⟩

theorem Counted.trans {a b c : State} (h : Counted a b) (h' : Counted b c) : Counted a c := by
  refine ⟨?_, h'.2.1.trans h.2.1, h'.2.2.trans h.2.2⟩
  have e := h.1
  have e' := h'.1
  rw [e] at e'
  exact e'

theorem counted_countEvent (s : State) (vf ev n : Nat) : Counted s (countEvent s vf ev n) := by
  unfold countEvent
  dsimp only
  generalize (if ev = 7 then 16 else vf) = v
  by_cases h0 : (decide (ev ≠ 7) && decide (vf ≠ s.activeVf)) = true
  · rw [if_pos h0]
    exact Counted.refl s
  · rw [if_neg h0]
    by_cases h1 : ((pmcOf s v).sel.all fun y => decide (y = 0#32)) = true
    · rw [if_pos h1]
      by_cases h2 : (pmcOf s v).wraps ev n = true
      · rw [if_pos h2]; exact ⟨rfl, rfl, rfl⟩
      · rw [if_neg h2]; exact Counted.refl s
    · rw [if_neg h1]
      by_cases h2 : (pmcOf s v).wraps ev n = true
      · rw [if_pos h2]; exact ⟨rfl, rfl, rfl⟩
      · rw [if_neg h2]; exact ⟨rfl, rfl, rfl⟩

theorem counted_block (s : State) (g b : Nat) (f : Block → Block)
    (h : ∀ x, { f x with r := 0, iss := [] } = ({ x with r := 0, iss := [] } : Block)) :
    Counted s (modBlock s g b f) := by
  refine ⟨rfl, rfl, ?_⟩
  simp only [modBlock, modGrid]
  apply updWhere_map_self
  intro x
  simp only [Grid.uncounted, List.map_map]
  congr 1
  apply List.map_congr_left
  intro y _
  simp only [Function.comp]
  congr 1
  exact updWhere_map_self _ _ _ _ h

theorem counted_blocks (l : List Nat) (s : State) (g : Nat) (f : Block → Block)
    (h : ∀ x, { f x with r := 0, iss := [] } = ({ x with r := 0, iss := [] } : Block)) :
    Counted s (l.foldl (fun st b => modBlock st g b f) s) := by
  induction l generalizing s with
  | nil => exact Counted.refl s
  | cons a t ih => exact (counted_block s g a f h).trans (ih _)

theorem counted_skid (s : State) (d c : Nat) (f : Cluster → Cluster)
    (h : ∀ x, { f x with skid := [] } = ({ x with skid := [] } : Cluster)) :
    Counted s (modCluster s d c f) := by
  refine ⟨rfl, ?_, rfl⟩
  simp only [modCluster, modDie]
  apply updAt_map_self
  intro x
  simp only [Die.unskid]
  congr 1
  exact updAt_map_self _ _ _ _ h

theorem counted_account (s : State) (p : Path) : Counted s (account s p) := by
  unfold account
  dsimp only
  refine Counted.trans ?_ (counted_countEvent _ _ _ _)
  refine (counted_blocks (distinct ((laneList p.lanes).map fun k => (p.th k).blk)) s p.grid.id (Block.counted (dieOf s p.die).cycles) fun _ => rfl).trans ?_
  split
  · exact counted_skid _ _ _ _ fun _ => rfl
  · exact Counted.refl _

/-! ### The issue -/

theorem laneList_any {m : BitVec 32} {q : Nat → Bool} :
    (laneList m).any q = true ↔ ∃ k, m.getLsbD k = true ∧ q k = true := by
  simp [List.any_eq_true, mem_laneList]

theorem maskOf_nil : maskOf [] = 0#32 := rfl

/-- A path that is ready passes every check. -/
theorem gate_of_ready {i : Instr} {s : State} {p : Path} (h : Ready i s p) : gate s p i = .go := by
  have h1 : ((laneList (activeLanes i p)).filter fun k => !(inRange i (p.th k))) = [] := by
    rw [List.filter_eq_nil_iff]
    intro k hk
    simp [h.inside k (mem_laneList.1 hk)]
  have h2 : ((laneList (activeLanes i p)).filter fun k => !decide (violation i (p.th k) = 0)) = [] := by
    rw [List.filter_eq_nil_iff]
    intro k hk
    simp [h.clear k (mem_laneList.1 hk)]
  have h3 : ((laneList (activeLanes i p)).any fun k => interlocked i (p.th k)) = false := by
    rw [Bool.eq_false_iff]
    intro hc
    obtain ⟨k, hk, hb⟩ := laneList_any.1 hc
    rw [h.settled k hk] at hb
    cases hb
  unfold gate
  simp [h.form, h.allowed, h1, h2, h3, h.whole, h.turn, maskOf_nil]

/-- A ready path runs the body of its instruction. -/
theorem issue_ready {i : Instr} {s : State} {p : Path} (h : Ready i s p) (body : Path → State → Step1) :
    issue i s body =
      match body p (advanced s p) with
      | .done t => .next (finish t p)
      | .fault f => .next (faulted s p i f)
      | .again t => .next t := by
  unfold issue
  rw [h.path]
  simp only [gate_of_ready h]
  all_goals (cases body p (advanced s p) <;> rfl)

/-- A path that fails a check of R20, R67, R70 or R383 takes the exception of it (R68). -/
theorem issue_trap {i : Instr} {s : State} {p : Path} {f : Flt} (h : pathOf s = some p) (hg : gate s p i = .trap f)
    (body : Path → State → Step1) : issue i s body = .next (faulted s p i f) := by
  unfold issue
  rw [h]
  simp only [hg]

/-- An instruction that clears no idempotent bit takes its exception with no effect (R16, R142). -/
theorem faulted_plain {i : Instr} (h : clearsIdem i = false) (s : State) (p : Path) (f : Flt) :
    faulted s p i f = raise s p f := by
  unfold faulted
  simp [h]

/-- What `pathOf` answers names the warp and the grid of the turn. -/
theorem pathOf_some {s : State} {p : Path} (h : pathOf s = some p) :
    (coreAt s p.die p.pos).warpAt p.slot = some p.w ∧ p.core = coreAt s p.die p.pos ∧
      gridAt s p.w.grid = some p.grid ∧ p.lanes ≠ 0#32 ∧
      (∀ k, p.lanes.getLsbD k → (p.th k).running ∧ (p.th k).wait = .none ∧ (p.th k).pc = p.pc) ∧
      (∀ k, p.act.getLsbD k → p.lanes.getLsbD k) := by
  have ha := @getLsbD_pathAct s p h
  unfold pathOf at h
  simp only at h
  split at h
  · cases h
  · split at h
    · cases h
    · split at h
      · rename_i w hw _ g hg hc
        cases h
        refine ⟨hw, rfl, hg, hc.1, ?_, ?_⟩
        · intro k hk
          have := List.all_eq_true.1 hc.2.2 k (mem_laneList.2 hk)
          simp at this
          exact ⟨this.1.1, this.1.2, this.2⟩
        · intro k hk
          rw [ha] at hk
          simp at hk
          exact hk.1
      · cases h

/-- A warp with every lane of the path moved on (R71). -/
def moveOn1 (p : Path) (w : Warp) : Warp := { w with th := mapLanes p.lanes (fun _ t => t.advance p.w.stopReq) w.th }

/-- The issuing warp with every lane of the path moved on (R71). -/
def moved (p : Path) : Warp := moveOn1 p p.w

/-- The state with the counts of an issue. -/
def issued (s : State) (p : Path) : State := { (account s p) with cur := { s.cur with jumped := 0 } }

theorem advanced_eq (s : State) (p : Path) :
    advanced s p = modWarp (issued s p) p.die p.pos p.slot (moveOn1 p) := rfl

theorem coreAt_issued (s : State) (p : Path) (d q : Nat) : coreAt (issued s p) d q = coreAt s d q := by
  have hcore : (issued s p).cores = s.cores := by
    show (account s p).cores = s.cores
    rw [(counted_account s p).1]
  unfold coreAt
  rw [hcore]

theorem untouched_issued (s : State) (p : Path) : Untouched s (issued s p) := by
  have hc := (counted_account s p).1
  unfold Untouched issued
  generalize account s p = a at hc ⊢
  rw [hc]

theorem untouched_modWarp {s t : State} (h : Untouched s t) (d q n : Nat) (f : Warp → Warp) :
    Untouched s (modWarp t d q n f) := by
  unfold Untouched at *
  rw [h]
  rfl

theorem loopSettle_slot (w : Warp) (m : BitVec 32) : (w.loopSettle m).slot = w.slot := by
  rw [(warpLike_loopSettle w m).2.2]

/-- The lanes of the path that did not jump, when none did. -/
theorem stayed (m : BitVec 32) : m &&& ~~~(0#32) = m := by
  have h : ~~~(0#32) = BitVec.allOnes 32 := rfl
  rw [h, BitVec.and_allOnes]

/-- What the counts, a change of the warp, and the loop levels leave outside the warp. -/
theorem around_warp (s : State) (p : Path) (f g h : Warp → Warp) (hf : ∀ w, (f w).slot = w.slot)
    (hg : ∀ w, (g w).slot = w.slot) (hh : ∀ w, (h w).slot = w.slot) :
    Around s (modWarp (modWarp (modWarp (issued s p) p.die p.pos p.slot f) p.die p.pos p.slot g)
      p.die p.pos p.slot h) p := by
  obtain ⟨hc, hd, hgr⟩ := counted_account s p
  refine ⟨?_, ?_, ?_, ?_, ?_⟩
  · simpa [issued] using hd
  · simpa [issued] using hgr
  · intro d q hdq
    rw [coreAt_modWarp_ne _ _ _ _ _ _ _ hdq, coreAt_modWarp_ne _ _ _ _ _ _ _ hdq,
      coreAt_modWarp_ne _ _ _ _ _ _ _ hdq, coreAt_issued]
  · simp only [coreAt_modWarp, coreAt_issued]
  · intro n hn
    rw [warpAt_modWarp_ne _ _ _ _ _ _ hh hn, warpAt_modWarp_ne _ _ _ _ _ _ hg hn,
      warpAt_modWarp_ne _ _ _ _ _ _ hf hn, coreAt_issued]

/-- What an issue leaves that only changes its warp: nothing outside it but its counts, and the warp changed by `F` after
its lanes have moved on and before the loop levels act. -/
theorem issue_warp {i : Instr} {s : State} {p : Path} (h : Ready i s p) {body : Path → State → Step1} (F : Warp → Warp)
    (hF : ∀ w, (F w).slot = w.slot) (hb : body p (advanced s p) = .done (p.mod (advanced s p) F)) :
    ∃ t, issue i s body = .next t ∧ Untouched s t ∧ Around s t p ∧
      p.warpIn t = some ((F (moved p)).loopSettle p.lanes) := by
  have hfin : finish (p.mod (advanced s p) F) p =
      modWarp (modWarp (modWarp (issued s p) p.die p.pos p.slot (moveOn1 p)) p.die p.pos p.slot F)
        p.die p.pos p.slot (fun w => w.loopSettle p.lanes) := by
    have hcur : (p.mod (advanced s p) F).cur.jumped = 0#32 := rfl
    unfold finish
    rw [hcur, stayed]
    rfl
  refine ⟨finish (p.mod (advanced s p) F) p, ?_, ?_⟩
  · rw [issue_ready h, hb]
  · rw [hfin]
    refine ⟨?_, around_warp s p _ _ _ (fun _ => rfl) hF (fun w => loopSettle_slot w _), ?_⟩
    · exact untouched_modWarp (untouched_modWarp (untouched_modWarp (untouched_issued s p) _ _ _ _) _ _ _ _) _ _ _ _
    · unfold Path.warpIn
      rw [warpAt_modWarp _ _ _ _ _ (fun w => loopSettle_slot w _), warpAt_modWarp _ _ _ _ _ hF,
        warpAt_modWarp _ _ _ _ (moveOn1 p) (fun _ => rfl), coreAt_issued, (pathOf_some h.path).1]
      rfl

/-- A lane of the moved warp. -/
theorem lane_moved {s : State} {p : Path} (h : pathOf s = some p) (k : Nat) :
    (moved p).lane k = if p.lanes.getLsbD k then (p.th k).advance p.w.stopReq else p.th k := by
  unfold moved moveOn1
  rw [lane_mapLanes]
  by_cases hk : p.lanes.getLsbD k
  · have := lane_of_running ((pathOf_some h).2.2.2.2.1 k hk).1
    have h2 : k < p.w.th.length := this
    simp [hk, h2, Path.th]
  · simp [hk, Path.th]

/-- An instruction that changes the threads of its active lanes and the per-warp state (R15, R17, R82, R110). -/
theorem issue_lanes {i : Instr} {s : State} {p : Path} (h : Ready i s p) {body : Path → State → Step1}
    (f : Nat → Thread → Thread) (F : Warp → Warp) (sh : Shared)
    (hf : ∀ k t, (f k (t.advance p.w.stopReq)).Alike (f k t))
    (hF : ∀ w, (F w).slot = w.slot)
    (hth : (F (moved p)).th = mapLanes p.act f (moved p).th) (hsh : (F (moved p)).sh = sh)
    (hrest : ∃ x y, F (moved p) = { p.w with th := (F (moved p)).th, sh := x, flSet := y })
    (hb : body p (advanced s p) = .done (p.mod (advanced s p) F)) :
    ∃ t, issue i s body = .next t ∧ Untouched s t ∧ Around s t p ∧ WarpBecomes t p (p.lanesWith f) sh := by
  obtain ⟨t, ht, hu, ha, hw⟩ := issue_warp h F hF hb
  refine ⟨t, ht, hu, ha, ?_⟩
  obtain ⟨hl, _, he⟩ := warpLike_loopSettle (F (moved p)) p.lanes
  refine ⟨?_, ?_, ?_⟩
  · intro k
    have hk : p.laneIn t k = ((F (moved p)).loopSettle p.lanes).lane k := by
      unfold Path.laneIn
      rw [hw]
    rw [hk]
    refine (hl k).trans ?_
    have h1 : (F (moved p)).lane k = (({ moved p with th := mapLanes p.act f (moved p).th } : Warp)).lane k := by
      unfold Warp.lane
      rw [hth]
    rw [h1, lane_mapLanes]
    have hlen : (moved p).th.length = p.w.th.length := by simp [moved, moveOn1, mapLanes]
    unfold Path.lanesWith
    by_cases hact : p.act.getLsbD k
    · have hlane := (pathOf_some h.path).2.2.2.2.2 k hact
      have hrun := lane_of_running ((pathOf_some h.path).2.2.2.2.1 k hlane).1
      have hrun' : k < (moved p).th.length := by rw [hlen]; exact hrun
      simp only [hact, hrun', and_self, if_true, lane_moved h.path, hlane]
      exact hf k _
    · simp only [hact, Bool.false_eq_true, false_and, if_false, lane_moved h.path]
      split
      · exact alike_advance _ _
      · exact Thread.Alike.refl _
  · unfold Path.sharedIn
    rw [hw]
    simp only
    rw [he, hsh]
  · refine ⟨_, hw, ?_⟩
    obtain ⟨x, y, hxy⟩ := hrest
    rw [he, hxy]

end Sys2Proof.Laws
end

