-- ==== Sys2Proof/Laws/Memory.lean ====
section
/-! SUPPORT. Memory: read after write, frames, and the canonical form that every memory operation keeps (log 1). -/

namespace Sys2Proof.Laws

open Sys2Proof.Machine

/-! ### Cells -/

/-- Every address of a list is above `n`. -/
def Above (n : Nat) (l : List Host.Cell) : Prop := ∀ c ∈ l, n < c.1

theorem wf_cons {c : Host.Cell} {l : List Host.Cell} :
    Memory.wf (c :: l) = true ↔ c.2 ≠ 0#8 ∧ (∀ d ∈ l.head?, c.1 < d.1) ∧ Memory.wf l = true := by
  cases l with
  | nil => simp [Memory.wf]
  | cons d t => simp [Memory.wf, and_assoc]

theorem wf_above {c : Host.Cell} {l : List Host.Cell} (h : Memory.wf (c :: l) = true) : Above c.1 l := by
  induction l generalizing c with
  | nil => intro x hx; cases hx
  | cons d t ih =>
    obtain ⟨_, h2, h3⟩ := wf_cons.1 h
    intro x hx
    have hd := h2 d rfl
    rcases List.mem_cons.1 hx with rfl | hx
    · exact hd
    · exact Nat.lt_trans hd (ih h3 x hx)

theorem cellGet_above {l : List Host.Cell} {n a : Nat} (h : Above n l) (ha : a ≤ n) : cellGet l a = 0 := by
  induction l with
  | nil => rfl
  | cons c t ih =>
    have hc := h c List.mem_cons_self
    have : ¬c.1 = a := by omega
    unfold cellGet
    rw [if_neg this]
    exact ih fun x hx => h x (List.mem_cons_of_mem _ hx)

/-- A written cell reads back, and every other is as it was. -/
theorem cellGet_cellSet {l : List Host.Cell} (h : Memory.wf l = true) (a b : Nat) (v : Byte) :
    cellGet (cellSet l a v) b = if b = a then v else cellGet l b := by
  induction l with
  | nil =>
    unfold cellSet
    by_cases hv : v = 0#8
    · simp [hv, cellGet]
    · simp [hv, cellGet, eq_comm]
  | cons c t ih =>
    obtain ⟨k, x⟩ := c
    have hab := wf_above h
    have ht := (wf_cons.1 h).2.2
    unfold cellSet
    by_cases h1 : a < k
    · rw [if_pos h1]
      by_cases hv : v = 0#8
      · rw [if_pos hv]
        by_cases hb : b = a
        · have h2 : Above a ((k, x) :: t) := by
            intro y hy
            rcases List.mem_cons.1 hy with rfl | hy
            · exact h1
            · exact Nat.lt_trans h1 (hab y hy)
          rw [if_pos hb, hb, hv]
          exact cellGet_above h2 (Nat.le_refl a)
        · rw [if_neg hb]
      · rw [if_neg hv]
        by_cases hb : b = a
        · rw [if_pos hb, hb, cellGet, if_pos rfl]
        · rw [if_neg hb]
          show (if a = b then v else cellGet ((k, x) :: t) b) = _
          rw [if_neg (fun e => hb e.symm)]
    · rw [if_neg h1]
      by_cases h2 : a = k
      · rw [if_pos h2]
        subst h2
        by_cases hv : v = 0#8
        · rw [if_pos hv]
          by_cases hb : b = a
          · rw [if_pos hb, hb, hv]
            exact cellGet_above hab (Nat.le_refl a)
          · rw [if_neg hb, cellGet, if_neg (fun e => hb e.symm)]
        · rw [if_neg hv]
          by_cases hb : b = a
          · rw [if_pos hb, hb, cellGet, if_pos rfl]
          · rw [if_neg hb]
            show (if a = b then v else cellGet t b) = (if a = b then x else cellGet t b)
            rw [if_neg (fun e => hb e.symm), if_neg (fun e => hb e.symm)]
      · rw [if_neg h2]
        show (if k = b then x else cellGet (cellSet t a v) b) = _
        rw [ih ht]
        by_cases hb : b = a
        · have : ¬k = b := by rw [hb]; exact fun e => h2 e.symm
          rw [if_neg this, if_pos hb, if_pos hb]
        · rw [if_neg hb, if_neg hb, cellGet]

theorem cellSet_above {l : List Host.Cell} {n a : Nat} {v : Byte} (h : Above n l) (ha : n < a) :
    Above n (cellSet l a v) := by
  induction l with
  | nil =>
    unfold cellSet
    split
    · exact h
    · intro x hx
      rcases List.mem_cons.1 hx with rfl | hx
      · exact ha
      · cases hx
  | cons c t ih =>
    obtain ⟨k, x⟩ := c
    have ht : Above n t := fun y hy => h y (List.mem_cons_of_mem _ hy)
    have hk := h (k, x) List.mem_cons_self
    have cons : ∀ (y : Host.Cell) (l : List Host.Cell), n < y.1 → Above n l → Above n (y :: l) := by
      intro y l hy hl z hz
      rcases List.mem_cons.1 hz with rfl | hz
      · exact hy
      · exact hl z hz
    unfold cellSet
    split
    · split
      · exact h
      · exact cons _ _ ha h
    · split
      · split
        · exact ht
        · exact cons _ _ ha ht
      · exact cons _ _ hk (ih ht)

theorem wf_of_above {c : Host.Cell} {l : List Host.Cell} (hc : c.2 ≠ 0#8) (hl : Memory.wf l = true) (h : Above c.1 l) :
    Memory.wf (c :: l) = true := by
  refine wf_cons.2 ⟨hc, ?_, hl⟩
  intro d hd
  cases l with
  | nil => cases hd
  | cons e t =>
    have : d = e := by simpa using hd.symm
    rw [this]
    exact h e List.mem_cons_self

/-- A write keeps the canonical form. -/
theorem wf_cellSet {l : List Host.Cell} (h : Memory.wf l = true) (a : Nat) (v : Byte) :
    Memory.wf (cellSet l a v) = true := by
  induction l with
  | nil =>
    unfold cellSet
    split
    · rfl
    · rename_i hv
      simp [Memory.wf, hv]
  | cons c t ih =>
    obtain ⟨k, x⟩ := c
    obtain ⟨h0, _, ht⟩ := wf_cons.1 h
    have hab := wf_above h
    unfold cellSet
    split
    · rename_i h1
      split
      · exact h
      · rename_i hv
        refine wf_of_above hv h ?_
        intro y hy
        rcases List.mem_cons.1 hy with rfl | hy
        · exact h1
        · exact Nat.lt_trans h1 (hab y hy)
    · rename_i h1
      split
      · rename_i h2
        split
        · exact ht
        · rename_i hv
          subst h2
          exact wf_of_above hv ht hab
      · rename_i h2
        exact wf_of_above h0 (ih ht) (cellSet_above hab (by simp only at h1 h2 ⊢; omega))

/-! ### Spaces -/

/-- Package memory and every local store are in canonical form. -/
def MemOk (s : State) : Prop := Memory.wf s.mem = true ∧ ∀ l ∈ s.locals, Memory.wf l.cells = true

theorem memOk_reset : MemOk State.reset := ⟨rfl, fun _ h => by cases h⟩

theorem localOf_key (s : State) (sp : Space) : (localOf s sp).key = sp := by
  unfold localOf
  cases h : s.locals.find? (fun l => decide (l.key = sp)) with
  | none => rfl
  | some l => simpa using List.find?_some h

theorem localOf_wf {s : State} (h : MemOk s) (sp : Space) : Memory.wf (localOf s sp).cells = true := by
  unfold localOf
  cases h1 : s.locals.find? (fun l => decide (l.key = sp)) with
  | none => rfl
  | some l => exact h.2 l (List.mem_of_find?_eq_some h1)

theorem localOf_setLocal (s : State) (l : Local) (sp : Space) :
    localOf (setLocal s l) sp = if sp = l.key then l else localOf s sp := by
  unfold localOf setLocal
  by_cases h : sp = l.key
  · simp [h]
  · have h1 : ¬l.key = sp := fun e => h e.symm
    simp only [List.find?_cons, h1, decide_false, if_neg h]
    have : (s.locals.filter fun x => decide (x.key ≠ l.key)).find? (fun x => decide (x.key = sp)) =
        s.locals.find? (fun x => decide (x.key = sp)) := by
      rw [List.find?_filter]
      congr 1
      funext x
      by_cases hx : x.key = sp
      · simp [hx, h]
      · simp [hx]
    rw [this]

theorem memOk_setLocal {s : State} (h : MemOk s) {l : Local} (hl : Memory.wf l.cells = true) : MemOk (setLocal s l) := by
  refine ⟨h.1, ?_⟩
  intro x hx
  rcases List.mem_cons.1 hx with rfl | hx
  · exact hl
  · exact h.2 x (List.mem_filter.1 hx).1

/-- Writing a byte keeps the canonical form. -/
theorem memOk_writeByte {s : State} (h : MemOk s) (sp : Space) (a : Nat) (b : Byte) : MemOk (writeByte s sp a b) := by
  unfold writeByte
  split
  · exact ⟨wf_cellSet h.1 a b, h.2⟩
  · exact memOk_setLocal h (wf_cellSet (localOf_wf h sp) a b)

/-- A written byte reads back, and every other byte of every space is as it was. -/
theorem readByte_writeByte {s : State} (h : MemOk s) (sp sp' : Space) (a a' : Nat) (b : Byte) :
    readByte (writeByte s sp a b) sp' a' = if sp' = sp ∧ a' = a then b else readByte s sp' a' := by
  by_cases hp : sp = .phys
  · subst hp
    by_cases hq : sp' = .phys
    · subst hq
      show cellGet (cellSet s.mem a b) a' = _
      rw [cellGet_cellSet h.1]
      by_cases ha : a' = a <;> simp [ha, readByte]
    · have : ¬(sp' = Space.phys ∧ a' = a) := fun e => hq e.1
      rw [if_neg this]
      unfold readByte
      split
      · rename_i e; exact absurd rfl hq
      · rfl
  · have hw : writeByte s sp a b = setLocal s { localOf s sp with
        cells := cellSet (localOf s sp).cells a b, touched := touchLine sp (localOf s sp).touched a } := by
      unfold writeByte
      split
      · exact absurd rfl hp
      · rfl
    rw [hw]
    by_cases hq : sp' = .phys
    · subst hq
      have : ¬(Space.phys = sp ∧ a' = a) := fun e => hp e.1.symm
      rw [if_neg this]
      rfl
    · have hr : ∀ st : State, readByte st sp' a' = cellGet (localOf st sp').cells a' := by
        intro st
        unfold readByte
        split
        · exact absurd rfl hq
        · rfl
      rw [hr, hr, localOf_setLocal]
      simp only [localOf_key]
      by_cases hs : sp' = sp
      · subst hs
        rw [if_pos rfl]
        simp only
        rw [cellGet_cellSet (localOf_wf h sp')]
        by_cases ha : a' = a <;> simp [ha]
      · rw [if_neg hs, if_neg (fun e => hs e.1)]

theorem memOk_writeBytes {s : State} (h : MemOk s) (sp : Space) (a : Nat) (l : List Byte) :
    MemOk (writeBytes s sp a l) := by
  induction l generalizing s a with
  | nil => exact h
  | cons b t ih => exact ih (memOk_writeByte h sp a b) (a + 1)

/-- A written range reads back, and every byte outside it is as it was. -/
theorem readByte_writeBytes {s : State} (h : MemOk s) (sp sp' : Space) (a a' : Nat) (l : List Byte) :
    readByte (writeBytes s sp a l) sp' a' =
      if sp' = sp ∧ a ≤ a' ∧ a' < a + l.length then l.getD (a' - a) 0 else readByte s sp' a' := by
  induction l generalizing s a with
  | nil =>
    have : ¬(sp' = sp ∧ a ≤ a' ∧ a' < a + ([] : List Byte).length) := by simp
    rw [if_neg this]
    rfl
  | cons b t ih =>
    show readByte (writeBytes (writeByte s sp a b) sp (a + 1) t) sp' a' = _
    rw [ih (memOk_writeByte h sp a b), readByte_writeByte h]
    simp only [List.length_cons]
    by_cases hs : sp' = sp
    · by_cases ha : a' = a
      · subst ha
        have h1 : ¬(sp' = sp ∧ a' + 1 ≤ a' ∧ a' < a' + 1 + t.length) := by omega
        have h2 : sp' = sp ∧ a' ≤ a' ∧ a' < a' + (t.length + 1) := ⟨hs, by omega, by omega⟩
        rw [if_neg h1, if_pos ⟨hs, rfl⟩, if_pos h2]
        simp
      · by_cases hr : a + 1 ≤ a' ∧ a' < a + 1 + t.length
        · have h2 : sp' = sp ∧ a ≤ a' ∧ a' < a + (t.length + 1) := ⟨hs, by omega, by omega⟩
          rw [if_pos ⟨hs, hr⟩, if_pos h2]
          have : a' - a = (a' - (a + 1)) + 1 := by omega
          rw [this, List.getD_cons_succ]
        · have h2 : ¬(sp' = sp ∧ a ≤ a' ∧ a' < a + (t.length + 1)) := by omega
          rw [if_neg (fun e => hr e.2), if_neg (fun e => ha e.2), if_neg h2]
    · rw [if_neg (fun e => hs e.1), if_neg (fun e => hs e.1), if_neg (fun e => hs e.1)]

theorem toBytes_length (n x : Nat) : (toBytes n x).length = n := by
  induction n generalizing x with
  | zero => rfl
  | succ n ih => simp [toBytes, ih]

theorem toBytes_getD (n x i : Nat) (h : i < n) : (toBytes n x).getD i 0 = BitVec.ofNat 8 (x / 256 ^ i) := by
  induction n generalizing x i with
  | zero => omega
  | succ n ih =>
    cases i with
    | zero => simp [toBytes]
    | succ i =>
      simp only [toBytes, List.getD_cons_succ]
      rw [ih _ _ (by omega), Nat.div_div_eq_div_mul, Nat.pow_succ, Nat.mul_comm]

theorem memOk_writeN {s : State} (h : MemOk s) (sp : Space) (a n v : Nat) : MemOk (writeN s sp a n v) :=
  memOk_writeBytes h sp a _

/-- A state that differs in neither memory nor local stores. -/
theorem memOk_of_eq {s t : State} (h : MemOk s) (hm : t.mem = s.mem) (hl : t.locals = s.locals) : MemOk t := by
  unfold MemOk
  rw [hm, hl]
  exact h

theorem readByte_of_eq {s t : State} (hm : t.mem = s.mem) (hl : t.locals = s.locals) (sp : Space) (a : Nat) :
    readByte t sp a = readByte s sp a := by
  unfold readByte localOf
  split <;> simp [hm, hl]

/-! ### Structures of the device (R377, log 84) -/

theorem memOk_countDenied {s : State} (h : MemOk s) : MemOk (countDenied s) := memOk_of_eq h rfl rfl

theorem memOk_noteRead {s : State} (h : MemOk s) (sp : Space) (a n : Nat) : MemOk (noteRead s sp a n) := by
  unfold noteRead
  split
  · exact memOk_countDenied h
  · exact h

theorem devRead_open {s : State} {a n : Nat} (h : fwDenied s .phys a n = false) : devRead s a n = readN s .phys a n := by
  simp [devRead, h]

theorem devWrite_open {s : State} {a n v : Nat} (h : fwDenied s .phys a n = false) :
    devWrite s a n v = writeN s .phys a n v := by
  simp [devWrite, h]

theorem devStore_open {s : State} {a : Nat} {bs : List Byte} (h : fwDenied s .phys a bs.length = false) :
    devStore s a bs = writeBytes s .phys a bs := by
  simp [devStore, h]

/-- A write that the firmware lock denies changes nothing but the count of such accesses. -/
theorem devWrite_locked {s : State} {a n v : Nat} (h : fwDenied s .phys a n = true) : devWrite s a n v = countDenied s := by
  simp [devWrite, h]

theorem memOk_devWrite {s : State} (h : MemOk s) (a n v : Nat) : MemOk (devWrite s a n v) := by
  unfold devWrite
  split
  · exact memOk_countDenied h
  · exact memOk_writeN h .phys a n v

theorem memOk_devStore {s : State} (h : MemOk s) (a : Nat) (bs : List Byte) : MemOk (devStore s a bs) := by
  unfold devStore
  split
  · exact memOk_countDenied h
  · exact memOk_writeBytes h .phys a bs

theorem fwDenied_unlocked {s : State} (h : s.fwlock = false) (sp : Space) (a n : Nat) : fwDenied s sp a n = false := by
  simp [fwDenied, h]

theorem unlocked_open {s : State} {sp : Space} {a : Nat} {bs : List (Option Byte)}
    (h : fwDenied s sp a bs.length = false) : unlocked s sp a bs = bs := by
  simp [unlocked, h]

end Sys2Proof.Laws
end

