-- ==== Sys2Proof/Laws/PerInstr.lean ====
section
/-! SUPPORT. Statements made of every instruction, one lemma per constructor. -/

namespace Sys2Proof.Laws.WordFits

/-- Every thread instruction word has 32 bits (R61); the other rows have none of these words. -/
def Statement (i : Instr) : Prop := encode i < 2 ^ 32

theorem add (d a b : BitVec 7) : Statement (.add d a b) :=
  show 1 + 524288 * d.toNat + 4096 * a.toNat + 32 * b.toNat < 2 ^ 32 by omega
theorem sub (d a b : BitVec 7) : Statement (.sub d a b) :=
  show 2 + 524288 * d.toNat + 4096 * a.toNat + 32 * b.toNat < 2 ^ 32 by omega
theorem and (d a b : BitVec 7) : Statement (.and d a b) :=
  show 3 + 524288 * d.toNat + 4096 * a.toNat + 32 * b.toNat < 2 ^ 32 by omega
theorem or (d a b : BitVec 7) : Statement (.or d a b) :=
  show 4 + 524288 * d.toNat + 4096 * a.toNat + 32 * b.toNat < 2 ^ 32 by omega
theorem xor (d a b : BitVec 7) : Statement (.xor d a b) :=
  show 5 + 524288 * d.toNat + 4096 * a.toNat + 32 * b.toNat < 2 ^ 32 by omega
theorem andn (d a b : BitVec 7) : Statement (.andn d a b) :=
  show 6 + 524288 * d.toNat + 4096 * a.toNat + 32 * b.toNat < 2 ^ 32 by omega
theorem shl (d a b : BitVec 7) : Statement (.shl d a b) :=
  show 7 + 524288 * d.toNat + 4096 * a.toNat + 32 * b.toNat < 2 ^ 32 by omega
theorem shr (d a b : BitVec 7) : Statement (.shr d a b) :=
  show 8 + 524288 * d.toNat + 4096 * a.toNat + 32 * b.toNat < 2 ^ 32 by omega
theorem sra (d a b : BitVec 7) : Statement (.sra d a b) :=
  show 9 + 524288 * d.toNat + 4096 * a.toNat + 32 * b.toNat < 2 ^ 32 by omega
theorem rotl (d a b : BitVec 7) : Statement (.rotl d a b) :=
  show 0xa + 524288 * d.toNat + 4096 * a.toNat + 32 * b.toNat < 2 ^ 32 by omega
theorem min (d a b : BitVec 7) : Statement (.min d a b) :=
  show 0xb + 524288 * d.toNat + 4096 * a.toNat + 32 * b.toNat < 2 ^ 32 by omega
theorem max (d a b : BitVec 7) : Statement (.max d a b) :=
  show 0xc + 524288 * d.toNat + 4096 * a.toNat + 32 * b.toNat < 2 ^ 32 by omega
theorem minu (d a b : BitVec 7) : Statement (.minu d a b) :=
  show 0xd + 524288 * d.toNat + 4096 * a.toNat + 32 * b.toNat < 2 ^ 32 by omega
theorem maxu (d a b : BitVec 7) : Statement (.maxu d a b) :=
  show 0xe + 524288 * d.toNat + 4096 * a.toNat + 32 * b.toNat < 2 ^ 32 by omega
theorem addsat (d a b : BitVec 7) : Statement (.addsat d a b) :=
  show 0xf + 524288 * d.toNat + 4096 * a.toNat + 32 * b.toNat < 2 ^ 32 by omega
theorem subsat (d a b : BitVec 7) : Statement (.subsat d a b) :=
  show 0x10 + 524288 * d.toNat + 4096 * a.toNat + 32 * b.toNat < 2 ^ 32 by omega
theorem uadd (d a b : BitVec 7) : Statement (.uadd d a b) :=
  show 0x70000001 + 524288 * d.toNat + 4096 * a.toNat + 32 * b.toNat < 2 ^ 32 by omega
theorem usub (d a b : BitVec 7) : Statement (.usub d a b) :=
  show 0x70000002 + 524288 * d.toNat + 4096 * a.toNat + 32 * b.toNat < 2 ^ 32 by omega
theorem uand (d a b : BitVec 7) : Statement (.uand d a b) :=
  show 0x70000003 + 524288 * d.toNat + 4096 * a.toNat + 32 * b.toNat < 2 ^ 32 by omega
theorem uor (d a b : BitVec 7) : Statement (.uor d a b) :=
  show 0x70000004 + 524288 * d.toNat + 4096 * a.toNat + 32 * b.toNat < 2 ^ 32 by omega
theorem uxor (d a b : BitVec 7) : Statement (.uxor d a b) :=
  show 0x70000005 + 524288 * d.toNat + 4096 * a.toNat + 32 * b.toNat < 2 ^ 32 by omega
theorem uandn (d a b : BitVec 7) : Statement (.uandn d a b) :=
  show 0x70000006 + 524288 * d.toNat + 4096 * a.toNat + 32 * b.toNat < 2 ^ 32 by omega
theorem ushl (d a b : BitVec 7) : Statement (.ushl d a b) :=
  show 0x70000007 + 524288 * d.toNat + 4096 * a.toNat + 32 * b.toNat < 2 ^ 32 by omega
theorem ushr (d a b : BitVec 7) : Statement (.ushr d a b) :=
  show 0x70000008 + 524288 * d.toNat + 4096 * a.toNat + 32 * b.toNat < 2 ^ 32 by omega
theorem usra (d a b : BitVec 7) : Statement (.usra d a b) :=
  show 0x70000009 + 524288 * d.toNat + 4096 * a.toNat + 32 * b.toNat < 2 ^ 32 by omega
theorem urotl (d a b : BitVec 7) : Statement (.urotl d a b) :=
  show 0x7000000a + 524288 * d.toNat + 4096 * a.toNat + 32 * b.toNat < 2 ^ 32 by omega
theorem umin (d a b : BitVec 7) : Statement (.umin d a b) :=
  show 0x7000000b + 524288 * d.toNat + 4096 * a.toNat + 32 * b.toNat < 2 ^ 32 by omega
theorem umax (d a b : BitVec 7) : Statement (.umax d a b) :=
  show 0x7000000c + 524288 * d.toNat + 4096 * a.toNat + 32 * b.toNat < 2 ^ 32 by omega
theorem uminu (d a b : BitVec 7) : Statement (.uminu d a b) :=
  show 0x7000000d + 524288 * d.toNat + 4096 * a.toNat + 32 * b.toNat < 2 ^ 32 by omega
theorem umaxu (d a b : BitVec 7) : Statement (.umaxu d a b) :=
  show 0x7000000e + 524288 * d.toNat + 4096 * a.toNat + 32 * b.toNat < 2 ^ 32 by omega
theorem uaddsat (d a b : BitVec 7) : Statement (.uaddsat d a b) :=
  show 0x7000000f + 524288 * d.toNat + 4096 * a.toNat + 32 * b.toNat < 2 ^ 32 by omega
theorem usubsat (d a b : BitVec 7) : Statement (.usubsat d a b) :=
  show 0x70000010 + 524288 * d.toNat + 4096 * a.toNat + 32 * b.toNat < 2 ^ 32 by omega
theorem mul (d a b : BitVec 7) : Statement (.mul d a b) :=
  show 0x4000000 + 524288 * d.toNat + 4096 * a.toNat + 32 * b.toNat < 2 ^ 32 by omega
theorem mulhi (d a b : BitVec 7) : Statement (.mulhi d a b) :=
  show 0x4000001 + 524288 * d.toNat + 4096 * a.toNat + 32 * b.toNat < 2 ^ 32 by omega
theorem mulhu (d a b : BitVec 7) : Statement (.mulhu d a b) :=
  show 0x4000002 + 524288 * d.toNat + 4096 * a.toNat + 32 * b.toNat < 2 ^ 32 by omega
theorem dot4s (d a b : BitVec 7) : Statement (.dot4s d a b) :=
  show 0x4000003 + 524288 * d.toNat + 4096 * a.toNat + 32 * b.toNat < 2 ^ 32 by omega
theorem dot4u (d a b : BitVec 7) : Statement (.dot4u d a b) :=
  show 0x4000004 + 524288 * d.toNat + 4096 * a.toNat + 32 * b.toNat < 2 ^ 32 by omega
theorem popc (d a : BitVec 7) : Statement (.popc d a) :=
  show 0x4000005 + 524288 * d.toNat + 4096 * a.toNat < 2 ^ 32 by omega
theorem clz (d a : BitVec 7) : Statement (.clz d a) :=
  show 0x4000006 + 524288 * d.toNat + 4096 * a.toNat < 2 ^ 32 by omega
theorem ctz (d a : BitVec 7) : Statement (.ctz d a) :=
  show 0x4000007 + 524288 * d.toNat + 4096 * a.toNat < 2 ^ 32 by omega
theorem brev (d a : BitVec 7) : Statement (.brev d a) :=
  show 0x4000008 + 524288 * d.toNat + 4096 * a.toNat < 2 ^ 32 by omega
theorem abs (d a : BitVec 7) : Statement (.abs d a) :=
  show 0x4000009 + 524288 * d.toNat + 4096 * a.toNat < 2 ^ 32 by omega
theorem lea (d a b : BitVec 7) (k : BitVec 3) : Statement (.lea d a b k) :=
  show 0x4000010 + 524288 * d.toNat + 4096 * a.toNat + 32 * b.toNat + k.toNat < 2 ^ 32 by omega
theorem leas (d a b : BitVec 7) (k : BitVec 3) : Statement (.leas d a b k) :=
  show 0x4000018 + 524288 * d.toNat + 4096 * a.toNat + 32 * b.toNat + k.toNat < 2 ^ 32 by omega
theorem addc (d a b : BitVec 7) (q : BitVec 4) : Statement (.addc d a b q) :=
  show 0x8000000 + 524288 * d.toNat + 4096 * a.toNat + 32 * b.toNat + q.toNat < 2 ^ 32 by omega
theorem subc (d a b : BitVec 7) (q : BitVec 4) : Statement (.subc d a b q) :=
  show 0x8000010 + 524288 * d.toNat + 4096 * a.toNat + 32 * b.toNat + q.toNat < 2 ^ 32 by omega
theorem cmp (p a b : BitVec 7) (c : BitVec 5) : Statement (.cmp p a b c) :=
  show 0xc000000 + 524288 * p.toNat + 4096 * a.toNat + 32 * b.toNat + c.toNat < 2 ^ 32 by omega
theorem pand (d a b : BitVec 7) : Statement (.pand d a b) :=
  show 0x10000000 + 524288 * d.toNat + 4096 * a.toNat + 32 * b.toNat < 2 ^ 32 by omega
theorem por (d a b : BitVec 7) : Statement (.por d a b) :=
  show 0x10000001 + 524288 * d.toNat + 4096 * a.toNat + 32 * b.toNat < 2 ^ 32 by omega
theorem pxor (d a b : BitVec 7) : Statement (.pxor d a b) :=
  show 0x10000002 + 524288 * d.toNat + 4096 * a.toNat + 32 * b.toNat < 2 ^ 32 by omega
theorem pandn (d a b : BitVec 7) : Statement (.pandn d a b) :=
  show 0x10000003 + 524288 * d.toNat + 4096 * a.toNat + 32 * b.toNat < 2 ^ 32 by omega
theorem pnot (d a : BitVec 7) : Statement (.pnot d a) :=
  show 0x10000004 + 524288 * d.toNat + 4096 * a.toNat < 2 ^ 32 by omega
theorem pmov (d a : BitVec 7) : Statement (.pmov d a) :=
  show 0x10000005 + 524288 * d.toNat + 4096 * a.toNat < 2 ^ 32 by omega
theorem pset (d : BitVec 7) : Statement (.pset d) := show 0x10000006 + 524288 * d.toNat < 2 ^ 32 by omega
theorem pclr (d : BitVec 7) : Statement (.pclr d) := show 0x10000007 + 524288 * d.toNat < 2 ^ 32 by omega
theorem sel (d a b : BitVec 7) (p : BitVec 4) : Statement (.sel d a b p) :=
  show 0x14000000 + 524288 * d.toNat + 4096 * a.toNat + 32 * b.toNat + p.toNat < 2 ^ 32 by omega
theorem seln (d a b : BitVec 7) (p : BitVec 4) : Statement (.seln d a b p) :=
  show 0x14000010 + 524288 * d.toNat + 4096 * a.toNat + 32 * b.toNat + p.toNat < 2 ^ 32 by omega
theorem div (la : BitVec 4) (d a b : BitVec 7) : Statement (.div la d a b) :=
  show 0x18000000 + 4194304 * la.toNat + 32768 * d.toNat + 256 * a.toNat + b.toNat < 2 ^ 32 by omega
theorem divu (la : BitVec 4) (d a b : BitVec 7) : Statement (.divu la d a b) :=
  show 0x18000080 + 4194304 * la.toNat + 32768 * d.toNat + 256 * a.toNat + b.toNat < 2 ^ 32 by omega
theorem rem (la : BitVec 4) (d a b : BitVec 7) : Statement (.rem la d a b) :=
  show 0x1c000000 + 4194304 * la.toNat + 32768 * d.toNat + 256 * a.toNat + b.toNat < 2 ^ 32 by omega
theorem remu (la : BitVec 4) (d a b : BitVec 7) : Statement (.remu la d a b) :=
  show 0x1c000080 + 4194304 * la.toNat + 32768 * d.toNat + 256 * a.toNat + b.toNat < 2 ^ 32 by omega
theorem addi (d a : BitVec 7) (i : BitVec 12) : Statement (.addi d a i) :=
  show 0x20000000 + 524288 * d.toNat + 4096 * a.toNat + i.toNat < 2 ^ 32 by omega
theorem andi (d a : BitVec 7) (i : BitVec 12) : Statement (.andi d a i) :=
  show 0x24000000 + 524288 * d.toNat + 4096 * a.toNat + i.toNat < 2 ^ 32 by omega
theorem ori (d a : BitVec 7) (i : BitVec 12) : Statement (.ori d a i) :=
  show 0x28000000 + 524288 * d.toNat + 4096 * a.toNat + i.toNat < 2 ^ 32 by omega
theorem xori (d a : BitVec 7) (i : BitVec 12) : Statement (.xori d a i) :=
  show 0x2c000000 + 524288 * d.toNat + 4096 * a.toNat + i.toNat < 2 ^ 32 by omega
theorem shli (d a : BitVec 7) (n : BitVec 5) : Statement (.shli d a n) :=
  show 0x30000000 + 524288 * d.toNat + 4096 * a.toNat + n.toNat < 2 ^ 32 by omega
theorem shri (d a : BitVec 7) (n : BitVec 5) : Statement (.shri d a n) :=
  show 0x30000400 + 524288 * d.toNat + 4096 * a.toNat + n.toNat < 2 ^ 32 by omega
theorem srai (d a : BitVec 7) (n : BitVec 5) : Statement (.srai d a n) :=
  show 0x30000800 + 524288 * d.toNat + 4096 * a.toNat + n.toNat < 2 ^ 32 by omega
theorem rotli (d a : BitVec 7) (n : BitVec 5) : Statement (.rotli d a n) :=
  show 0x30000c00 + 524288 * d.toNat + 4096 * a.toNat + n.toNat < 2 ^ 32 by omega
theorem bfx (d a : BitVec 7) (len1 pos : BitVec 5) : Statement (.bfx d a len1 pos) :=
  show 0x34000000 + 524288 * d.toNat + 4096 * a.toNat + 32 * len1.toNat + pos.toNat < 2 ^ 32 by omega
theorem bfxs (d a : BitVec 7) (len1 pos : BitVec 5) : Statement (.bfxs d a len1 pos) :=
  show 0x34000400 + 524288 * d.toNat + 4096 * a.toNat + 32 * len1.toNat + pos.toNat < 2 ^ 32 by omega
theorem bfi (d a : BitVec 7) (len1 pos : BitVec 5) : Statement (.bfi d a len1 pos) :=
  show 0x34000800 + 524288 * d.toNat + 4096 * a.toNat + 32 * len1.toNat + pos.toNat < 2 ^ 32 by omega
theorem movi (d : BitVec 7) (i : BitVec 19) : Statement (.movi d i) :=
  show 0x38000000 + 524288 * d.toNat + i.toNat < 2 ^ 32 by omega
theorem movhi (d : BitVec 7) (i : BitVec 19) : Statement (.movhi d i) :=
  show 0x3c000000 + 524288 * d.toNat + i.toNat < 2 ^ 32 by omega
theorem uaddi (d a : BitVec 7) (i : BitVec 12) : Statement (.uaddi d a i) :=
  show 0x74000000 + 524288 * d.toNat + 4096 * a.toNat + i.toNat < 2 ^ 32 by omega
theorem umovi (d : BitVec 7) (i : BitVec 19) : Statement (.umovi d i) :=
  show 0x78000000 + 524288 * d.toNat + i.toNat < 2 ^ 32 by omega
theorem bcast (d a : BitVec 7) : Statement (.bcast d a) :=
  show 0x7c000000 + 524288 * d.toNat + 4096 * a.toNat < 2 ^ 32 by omega
theorem rdfirst (d a : BitVec 7) : Statement (.rdfirst d a) :=
  show 0x7c000001 + 524288 * d.toNat + 4096 * a.toNat < 2 ^ 32 by omega
theorem fadd (d a b : BitVec 7) (m : BitVec 2) : Statement (.fadd d a b m) :=
  show 0x40000000 + 524288 * d.toNat + 4096 * a.toNat + 32 * b.toNat + m.toNat < 2 ^ 32 by omega
theorem fsub (d a b : BitVec 7) (m : BitVec 2) : Statement (.fsub d a b m) :=
  show 0x40000004 + 524288 * d.toNat + 4096 * a.toNat + 32 * b.toNat + m.toNat < 2 ^ 32 by omega
theorem fmul (d a b : BitVec 7) (m : BitVec 2) : Statement (.fmul d a b m) :=
  show 0x40000008 + 524288 * d.toNat + 4096 * a.toNat + 32 * b.toNat + m.toNat < 2 ^ 32 by omega
theorem fmin (d a b : BitVec 7) : Statement (.fmin d a b) :=
  show 0x4000000c + 524288 * d.toNat + 4096 * a.toNat + 32 * b.toNat < 2 ^ 32 by omega
theorem fmax (d a b : BitVec 7) : Statement (.fmax d a b) :=
  show 0x40000010 + 524288 * d.toNat + 4096 * a.toNat + 32 * b.toNat < 2 ^ 32 by omega
theorem ffma (d a b : BitVec 7) (m : BitVec 2) : Statement (.ffma d a b m) :=
  show 0x44000000 + 524288 * d.toNat + 4096 * a.toNat + 32 * b.toNat + m.toNat < 2 ^ 32 by omega
theorem ffms (d a b : BitVec 7) (m : BitVec 2) : Statement (.ffms d a b m) :=
  show 0x44000004 + 524288 * d.toNat + 4096 * a.toNat + 32 * b.toNat + m.toNat < 2 ^ 32 by omega
theorem ffnma (d a b : BitVec 7) (m : BitVec 2) : Statement (.ffnma d a b m) :=
  show 0x44000008 + 524288 * d.toNat + 4096 * a.toNat + 32 * b.toNat + m.toNat < 2 ^ 32 by omega
theorem bfadd2 (d a b : BitVec 7) (m : BitVec 2) : Statement (.bfadd2 d a b m) :=
  show 0x48000000 + 524288 * d.toNat + 4096 * a.toNat + 32 * b.toNat + m.toNat < 2 ^ 32 by omega
theorem bfsub2 (d a b : BitVec 7) (m : BitVec 2) : Statement (.bfsub2 d a b m) :=
  show 0x48000004 + 524288 * d.toNat + 4096 * a.toNat + 32 * b.toNat + m.toNat < 2 ^ 32 by omega
theorem bfmul2 (d a b : BitVec 7) (m : BitVec 2) : Statement (.bfmul2 d a b m) :=
  show 0x48000008 + 524288 * d.toNat + 4096 * a.toNat + 32 * b.toNat + m.toNat < 2 ^ 32 by omega
theorem bfmin2 (d a b : BitVec 7) : Statement (.bfmin2 d a b) :=
  show 0x4800000c + 524288 * d.toNat + 4096 * a.toNat + 32 * b.toNat < 2 ^ 32 by omega
theorem bfmax2 (d a b : BitVec 7) : Statement (.bfmax2 d a b) :=
  show 0x48000010 + 524288 * d.toNat + 4096 * a.toNat + 32 * b.toNat < 2 ^ 32 by omega
theorem bffma2 (d a b : BitVec 7) (m : BitVec 2) : Statement (.bffma2 d a b m) :=
  show 0x4c000000 + 524288 * d.toNat + 4096 * a.toNat + 32 * b.toNat + m.toNat < 2 ^ 32 by omega
theorem bffms2 (d a b : BitVec 7) (m : BitVec 2) : Statement (.bffms2 d a b m) :=
  show 0x4c000004 + 524288 * d.toNat + 4096 * a.toNat + 32 * b.toNat + m.toNat < 2 ^ 32 by omega
theorem bffnma2 (d a b : BitVec 7) (m : BitVec 2) : Statement (.bffnma2 d a b m) :=
  show 0x4c000008 + 524288 * d.toNat + 4096 * a.toNat + 32 * b.toNat + m.toNat < 2 ^ 32 by omega
theorem fcmp (p a b : BitVec 7) (c : BitVec 4) : Statement (.fcmp p a b c) :=
  show 0x50000000 + 524288 * p.toNat + 4096 * a.toNat + 32 * b.toNat + c.toNat < 2 ^ 32 by omega
theorem fabs (d a : BitVec 7) : Statement (.fabs d a) :=
  show 0x54000000 + 524288 * d.toNat + 4096 * a.toNat < 2 ^ 32 by omega
theorem fneg (d a : BitVec 7) : Statement (.fneg d a) :=
  show 0x54000001 + 524288 * d.toNat + 4096 * a.toNat < 2 ^ 32 by omega
theorem fclass (d a : BitVec 7) : Statement (.fclass d a) :=
  show 0x54000002 + 524288 * d.toNat + 4096 * a.toNat < 2 ^ 32 by omega
theorem bfabs2 (d a : BitVec 7) : Statement (.bfabs2 d a) :=
  show 0x54000003 + 524288 * d.toNat + 4096 * a.toNat < 2 ^ 32 by omega
theorem bfneg2 (d a : BitVec 7) : Statement (.bfneg2 d a) :=
  show 0x54000004 + 524288 * d.toNat + 4096 * a.toNat < 2 ^ 32 by omega
theorem rcp (d a : BitVec 7) : Statement (.rcp d a) :=
  show 0x58000000 + 524288 * d.toNat + 4096 * a.toNat < 2 ^ 32 by omega
theorem rsqrt (d a : BitVec 7) : Statement (.rsqrt d a) :=
  show 0x58000001 + 524288 * d.toNat + 4096 * a.toNat < 2 ^ 32 by omega
theorem sqrt (d a : BitVec 7) : Statement (.sqrt d a) :=
  show 0x58000002 + 524288 * d.toNat + 4096 * a.toNat < 2 ^ 32 by omega
theorem exp2 (d a : BitVec 7) : Statement (.exp2 d a) :=
  show 0x58000003 + 524288 * d.toNat + 4096 * a.toNat < 2 ^ 32 by omega
theorem log2 (d a : BitVec 7) : Statement (.log2 d a) :=
  show 0x58000004 + 524288 * d.toNat + 4096 * a.toNat < 2 ^ 32 by omega
theorem sin (d a : BitVec 7) : Statement (.sin d a) :=
  show 0x58000005 + 524288 * d.toNat + 4096 * a.toNat < 2 ^ 32 by omega
theorem cos (d a : BitVec 7) : Statement (.cos d a) :=
  show 0x58000006 + 524288 * d.toNat + 4096 * a.toNat < 2 ^ 32 by omega
theorem sfe (d a : BitVec 7) : Statement (.sfe d a) :=
  show 0x5c000000 + 524288 * d.toNat + 4096 * a.toNat < 2 ^ 32 by omega
theorem sfe2 (d a : BitVec 7) : Statement (.sfe2 d a) :=
  show 0x5c000001 + 524288 * d.toNat + 4096 * a.toNat < 2 ^ 32 by omega
theorem tblld (a : BitVec 7) : Statement (.tblld a) := show 0x5c000002 + 4096 * a.toNat < 2 ^ 32 by omega
theorem tblsw : Statement (.tblsw) := show 0x5c000003 < 2 ^ 32 by omega
theorem cvt (d a : BitVec 7) (m : BitVec 1) (r : BitVec 2) (s t : BitVec 4) : Statement (.cvt d a m r s t) :=
  show 0x60000000 + 524288 * d.toNat + 4096 * a.toNat + 1024 * m.toNat + 256 * r.toNat + 16 * s.toNat + t.toNat < 2 ^ 32 by omega
theorem cvto (d a b : BitVec 7) (s : BitVec 1) (q : BitVec 4) : Statement (.cvto d a b s q) :=
  show 0x64000000 + 524288 * d.toNat + 4096 * a.toNat + 32 * b.toNat + 16 * s.toNat + q.toNat < 2 ^ 32 by omega
theorem flrd (d : BitVec 7) : Statement (.flrd d) := show 0x68000000 + 524288 * d.toNat < 2 ^ 32 by omega
theorem flclr (m : BitVec 7) : Statement (.flclr m) := show 0x68000001 + 32 * m.toNat < 2 ^ 32 by omega
theorem ldg (la : BitVec 4) (d a : BitVec 7) (o : BitVec 5) (s : BitVec 3) : Statement (.ldg la d a o s) :=
  show 0x80000000 + 4194304 * la.toNat + 32768 * d.toNat + 256 * a.toNat + 8 * o.toNat + s.toNat < 2 ^ 32 by omega
theorem lds (la : BitVec 4) (d a : BitVec 7) (o : BitVec 5) (s : BitVec 3) : Statement (.lds la d a o s) :=
  show 0x88000000 + 4194304 * la.toNat + 32768 * d.toNat + 256 * a.toNat + 8 * o.toNat + s.toNat < 2 ^ 32 by omega
theorem ldh (la : BitVec 4) (d a : BitVec 7) (o : BitVec 5) (s : BitVec 3) : Statement (.ldh la d a o s) :=
  show 0x90000000 + 4194304 * la.toNat + 32768 * d.toNat + 256 * a.toNat + 8 * o.toNat + s.toNat < 2 ^ 32 by omega
theorem stg (la : BitVec 4) (d a : BitVec 7) (i : BitVec 1) (o : BitVec 4) (s : BitVec 3) : Statement
    (.stg la d a i o s) :=
  show 0x84000000 + 4194304 * la.toNat + 32768 * d.toNat + 256 * a.toNat + 128 * i.toNat + 8 * o.toNat + s.toNat < 2 ^ 32 by omega
theorem sts (la : BitVec 4) (d a : BitVec 7) (i : BitVec 1) (o : BitVec 4) (s : BitVec 3) : Statement
    (.sts la d a i o s) :=
  show 0x8c000000 + 4194304 * la.toNat + 32768 * d.toNat + 256 * a.toNat + 128 * i.toNat + 8 * o.toNat + s.toNat < 2 ^ 32 by omega
theorem sth (la : BitVec 4) (d a : BitVec 7) (i : BitVec 1) (o : BitVec 4) (s : BitVec 3) : Statement
    (.sth la d a i o s) :=
  show 0x94000000 + 4194304 * la.toNat + 32768 * d.toNat + 256 * a.toNat + 128 * i.toNat + 8 * o.toNat + s.toNat < 2 ^ 32 by omega
theorem ldsys (la : BitVec 4) (d a : BitVec 7) (o : BitVec 4) (s : BitVec 3) : Statement (.ldsys la d a o s) :=
  show 0x98000000 + 4194304 * la.toNat + 32768 * d.toNat + 256 * a.toNat + 8 * o.toNat + s.toNat < 2 ^ 32 by omega
theorem stsys (la : BitVec 4) (d a : BitVec 7) (o : BitVec 4) (s : BitVec 3) : Statement (.stsys la d a o s) :=
  show 0x98000080 + 4194304 * la.toNat + 32768 * d.toNat + 256 * a.toNat + 8 * o.toNat + s.toNat < 2 ^ 32 by omega
theorem pfl1 (la : BitVec 4) (a : BitVec 7) : Statement (.pfl1 la a) :=
  show 0x9c000000 + 4194304 * la.toNat + 256 * a.toNat < 2 ^ 32 by omega
theorem pfl2 (la : BitVec 4) (a : BitVec 7) : Statement (.pfl2 la a) :=
  show 0x9c000001 + 4194304 * la.toNat + 256 * a.toNat < 2 ^ 32 by omega
theorem evl1 (la : BitVec 4) (a : BitVec 7) : Statement (.evl1 la a) :=
  show 0x9c000002 + 4194304 * la.toNat + 256 * a.toNat < 2 ^ 32 by omega
theorem atomg (la : BitVec 4) (d a : BitVec 7) (r : BitVec 1) (s : BitVec 2) (w : BitVec 1)
    (o : BitVec 4) : Statement (.atomg la d a r s w o) :=
  show 0xa0000000 + 4194304 * la.toNat + 32768 * d.toNat + 256 * a.toNat + 128 * r.toNat + 32 * s.toNat + 16 * w.toNat + o.toNat < 2 ^ 32 by omega
theorem atoms (la : BitVec 4) (d a : BitVec 7) (r w : BitVec 1) (o : BitVec 4) : Statement (.atoms la d a r w o) :=
  show 0xa4000000 + 4194304 * la.toNat + 32768 * d.toNat + 256 * a.toNat + 128 * r.toNat + 16 * w.toNat + o.toNat < 2 ^ 32 by omega
theorem atomh (la : BitVec 4) (d a : BitVec 7) (r w : BitVec 1) (o : BitVec 4) : Statement (.atomh la d a r w o) :=
  show 0xa8000000 + 4194304 * la.toNat + 32768 * d.toNat + 256 * a.toNat + 128 * r.toNat + 16 * w.toNat + o.toNat < 2 ^ 32 by omega
theorem barw (la : BitVec 4) : Statement (.barw la) := show 0xb0000000 + 4194304 * la.toNat < 2 ^ 32 by omega
theorem barb (la : BitVec 4) : Statement (.barb la) := show 0xb0000001 + 4194304 * la.toNat < 2 ^ 32 by omega
theorem barc (la : BitVec 4) (k : BitVec 3) : Statement (.barc la k) :=
  show 0xb0000002 + 4194304 * la.toNat + 32 * k.toNat < 2 ^ 32 by omega
theorem barg (la : BitVec 4) (k : BitVec 2) : Statement (.barg la k) :=
  show 0xb0000003 + 4194304 * la.toNat + 32 * k.toNat < 2 ^ 32 by omega
theorem tbinit (la : BitVec 4) (a b : BitVec 7) : Statement (.tbinit la a b) :=
  show 0xb4000000 + 4194304 * la.toNat + 32768 * a.toNat + 256 * b.toNat < 2 ^ 32 by omega
theorem tbarr (la : BitVec 4) (a : BitVec 7) : Statement (.tbarr la a) :=
  show 0xb4000001 + 4194304 * la.toNat + 32768 * a.toNat < 2 ^ 32 by omega
theorem tbarrOne (la : BitVec 4) (a : BitVec 7) : Statement (.tbarrOne la a) :=
  show 0xb4000021 + 4194304 * la.toNat + 32768 * a.toNat < 2 ^ 32 by omega
theorem tbexp (la : BitVec 4) (a b : BitVec 7) : Statement (.tbexp la a b) :=
  show 0xb4000002 + 4194304 * la.toNat + 32768 * a.toNat + 256 * b.toNat < 2 ^ 32 by omega
theorem tbwait (la : BitVec 4) (a b : BitVec 7) : Statement (.tbwait la a b) :=
  show 0xb4000003 + 4194304 * la.toNat + 32768 * a.toNat + 256 * b.toNat < 2 ^ 32 by omega
theorem fenceEng (d : BitVec 7) : Statement (.fenceEng d) := show 0xb8000000 + 524288 * d.toNat < 2 ^ 32 by omega
theorem fenceSys (d : BitVec 7) : Statement (.fenceSys d) := show 0xb8000001 + 524288 * d.toNat < 2 ^ 32 by omega
theorem fenceMir (d : BitVec 7) : Statement (.fenceMir d) := show 0xb8000002 + 524288 * d.toNat < 2 ^ 32 by omega
theorem fenceAll (d : BitVec 7) : Statement (.fenceAll d) := show 0xb8000003 + 524288 * d.toNat < 2 ^ 32 by omega
theorem fwait (a : BitVec 7) : Statement (.fwait a) := show 0xb8000004 + 4096 * a.toNat < 2 ^ 32 by omega
theorem waitcLd (n : BitVec 6) : Statement (.waitcLd n) := show 0xbc000000 + n.toNat < 2 ^ 32 by omega
theorem waitcSt (n : BitVec 6) : Statement (.waitcSt n) := show 0xbc000800 + n.toNat < 2 ^ 32 by omega
theorem xlaneAt (d a b : BitVec 7) : Statement (.xlaneAt d a b) :=
  show 0xc0000000 + 524288 * d.toNat + 4096 * a.toNat + 32 * b.toNat < 2 ^ 32 by omega
theorem xlaneBack (d a b : BitVec 7) : Statement (.xlaneBack d a b) :=
  show 0xc0000001 + 524288 * d.toNat + 4096 * a.toNat + 32 * b.toNat < 2 ^ 32 by omega
theorem xlaneFwd (d a b : BitVec 7) : Statement (.xlaneFwd d a b) :=
  show 0xc0000002 + 524288 * d.toNat + 4096 * a.toNat + 32 * b.toNat < 2 ^ 32 by omega
theorem xlaneSwz (d a b : BitVec 7) : Statement (.xlaneSwz d a b) :=
  show 0xc0000003 + 524288 * d.toNat + 4096 * a.toNat + 32 * b.toNat < 2 ^ 32 by omega
theorem push (d a b : BitVec 7) : Statement (.push d a b) :=
  show 0xc4000000 + 524288 * d.toNat + 4096 * a.toNat + 32 * b.toNat < 2 ^ 32 by omega
theorem scanAdd (d a : BitVec 7) : Statement (.scanAdd d a) :=
  show 0xc4000001 + 524288 * d.toNat + 4096 * a.toNat < 2 ^ 32 by omega
theorem scanAddx (d a : BitVec 7) : Statement (.scanAddx d a) :=
  show 0xc4000002 + 524288 * d.toNat + 4096 * a.toNat < 2 ^ 32 by omega
theorem scanMin (d a : BitVec 7) : Statement (.scanMin d a) :=
  show 0xc4000003 + 524288 * d.toNat + 4096 * a.toNat < 2 ^ 32 by omega
theorem scanMax (d a : BitVec 7) : Statement (.scanMax d a) :=
  show 0xc4000004 + 524288 * d.toNat + 4096 * a.toNat < 2 ^ 32 by omega
theorem pgath (d a : BitVec 7) : Statement (.pgath d a) :=
  show 0xc4000005 + 524288 * d.toNat + 4096 * a.toNat < 2 ^ 32 by omega
theorem pall (d a : BitVec 7) : Statement (.pall d a) :=
  show 0xc4000006 + 524288 * d.toNat + 4096 * a.toNat < 2 ^ 32 by omega
theorem pany (d a : BitVec 7) : Statement (.pany d a) :=
  show 0xc4000007 + 524288 * d.toNat + 4096 * a.toNat < 2 ^ 32 by omega
theorem lsame (d a : BitVec 7) : Statement (.lsame d a) :=
  show 0xc4000008 + 524288 * d.toNat + 4096 * a.toNat < 2 ^ 32 by omega
theorem lsameAll (d a : BitVec 7) : Statement (.lsameAll d a) :=
  show 0xc4000009 + 524288 * d.toNat + 4096 * a.toNat < 2 ^ 32 by omega
theorem lfoldAdd (d a : BitVec 7) : Statement (.lfoldAdd d a) :=
  show 0xc400000a + 524288 * d.toNat + 4096 * a.toNat < 2 ^ 32 by omega
theorem lfoldMin (d a : BitVec 7) : Statement (.lfoldMin d a) :=
  show 0xc400000b + 524288 * d.toNat + 4096 * a.toNat < 2 ^ 32 by omega
theorem lfoldMax (d a : BitVec 7) : Statement (.lfoldMax d a) :=
  show 0xc400000c + 524288 * d.toNat + 4096 * a.toNat < 2 ^ 32 by omega
theorem lfoldAnd (d a : BitVec 7) : Statement (.lfoldAnd d a) :=
  show 0xc400000d + 524288 * d.toNat + 4096 * a.toNat < 2 ^ 32 by omega
theorem lfoldOr (d a : BitVec 7) : Statement (.lfoldOr d a) :=
  show 0xc400000e + 524288 * d.toNat + 4096 * a.toNat < 2 ^ 32 by omega
theorem lfoldXor (d a : BitVec 7) : Statement (.lfoldXor d a) :=
  show 0xc400000f + 524288 * d.toNat + 4096 * a.toNat < 2 ^ 32 by omega
theorem cpy (la : BitVec 4) (a b : BitVec 7) (n : BitVec 1) (r z : BitVec 2) : Statement (.cpy la a b n r z) :=
  show 0xc8000000 + 4194304 * la.toNat + 32768 * a.toNat + 256 * b.toNat + 32 * n.toNat + 4 * r.toNat + z.toNat < 2 ^ 32 by omega
theorem tld (la : BitVec 4) (a b : BitVec 7) (x : BitVec 3) : Statement (.tld la a b x) :=
  show 0xcc000000 + 4194304 * la.toNat + 32768 * a.toNat + 256 * b.toNat + 32 * x.toNat < 2 ^ 32 by omega
theorem tst (la : BitVec 4) (a b : BitVec 7) (x : BitVec 3) : Statement (.tst la a b x) :=
  show 0xcc000001 + 4194304 * la.toNat + 32768 * a.toNat + 256 * b.toNat + 32 * x.toNat < 2 ^ 32 by omega
theorem mcast (la : BitVec 4) (a b : BitVec 7) : Statement (.mcast la a b) :=
  show 0xcc000002 + 4194304 * la.toNat + 32768 * a.toNat + 256 * b.toNat < 2 ^ 32 by omega
theorem slotClaim (la k : BitVec 4) : Statement (.slotClaim la k) :=
  show 0xd0000000 + 4194304 * la.toNat + k.toNat < 2 ^ 32 by omega
theorem slotRel (la k : BitVec 4) : Statement (.slotRel la k) :=
  show 0xd0000010 + 4194304 * la.toNat + k.toNat < 2 ^ 32 by omega
theorem spawn (a b : BitVec 7) : Statement (.spawn a b) :=
  show 0xd4000000 + 4096 * a.toNat + 32 * b.toNat < 2 ^ 32 by omega
theorem idem : Statement (.idem) := show 0xd4000001 < 2 ^ 32 by omega
theorem idemx : Statement (.idemx) := show 0xd4000002 < 2 ^ 32 by omega
theorem yield (i : BitVec 12) : Statement (.yield i) := show 0xd8000000 + i.toNat < 2 ^ 32 by omega
theorem lxbase (d a : BitVec 7) : Statement (.lxbase d a) :=
  show 0xdc000000 + 524288 * d.toNat + 4096 * a.toNat < 2 ^ 32 by omega
theorem lxext0 (d a : BitVec 7) : Statement (.lxext0 d a) :=
  show 0xdc000001 + 524288 * d.toNat + 4096 * a.toNat < 2 ^ 32 by omega
theorem lxext1 (d a : BitVec 7) : Statement (.lxext1 d a) :=
  show 0xdc000002 + 524288 * d.toNat + 4096 * a.toNat < 2 ^ 32 by omega
theorem lxext2 (d a : BitVec 7) : Statement (.lxext2 d a) :=
  show 0xdc000003 + 524288 * d.toNat + 4096 * a.toNat < 2 ^ 32 by omega
theorem lxext3 (d a : BitVec 7) : Statement (.lxext3 d a) :=
  show 0xdc000004 + 524288 * d.toNat + 4096 * a.toNat < 2 ^ 32 by omega
theorem gkset (a : BitVec 7) : Statement (.gkset a) := show 0xdc000008 + 4096 * a.toNat < 2 ^ 32 by omega
theorem gkrd (d : BitVec 7) : Statement (.gkrd d) := show 0xdc000009 + 524288 * d.toNat < 2 ^ 32 by omega
theorem mma (la : BitVec 4) (a b : BitVec 7) (f s : BitVec 3) : Statement (.mma la a b f s) :=
  show 0xe0000000 + 4194304 * la.toNat + 32768 * a.toNat + 256 * b.toNat + 32 * f.toNat + s.toNat < 2 ^ 32 by omega
theorem accld (la : BitVec 4) (d a : BitVec 7) (s : BitVec 3) : Statement (.accld la d a s) :=
  show 0xe4000000 + 4194304 * la.toNat + 32768 * d.toNat + 256 * a.toNat + 4 * s.toNat < 2 ^ 32 by omega
theorem accst (la : BitVec 4) (d a : BitVec 7) (f : BitVec 3) : Statement (.accst la d a f) :=
  show 0xe4000001 + 4194304 * la.toNat + 32768 * d.toNat + 256 * a.toNat + 4 * f.toNat < 2 ^ 32 by omega
theorem mmack (la : BitVec 4) (d : BitVec 7) : Statement (.mmack la d) :=
  show 0xe4000002 + 4194304 * la.toNat + 32768 * d.toNat < 2 ^ 32 by omega
theorem mmackCut (la : BitVec 4) (d : BitVec 7) : Statement (.mmackCut la d) :=
  show 0xe4000006 + 4194304 * la.toNat + 32768 * d.toNat < 2 ^ 32 by omega
theorem tdec (la : BitVec 4) (a b : BitVec 7) (f : BitVec 3) : Statement (.tdec la a b f) :=
  show 0xe8000000 + 4194304 * la.toNat + 32768 * a.toNat + 256 * b.toNat + 32 * f.toNat < 2 ^ 32 by omega
theorem tdecQ (la : BitVec 4) (a : BitVec 7) (f : BitVec 3) : Statement (.tdecQ la a f) :=
  show 0xe8007f01 + 4194304 * la.toNat + 32768 * a.toNat + 32 * f.toNat < 2 ^ 32 by omega
theorem venc (la : BitVec 4) (a b : BitVec 7) (f : BitVec 3) : Statement (.venc la a b f) :=
  show 0xe8000002 + 4194304 * la.toNat + 32768 * a.toNat + 256 * b.toNat + 32 * f.toNat < 2 ^ 32 by omega
theorem twget (la : BitVec 4) (d a : BitVec 7) (f : BitVec 3) : Statement (.twget la d a f) :=
  show 0xec000000 + 4194304 * la.toNat + 32768 * d.toNat + 256 * a.toNat + f.toNat < 2 ^ 32 by omega
theorem bra (c : BitVec 4) (o : BitVec 22) : Statement (.bra c o) :=
  show 0xf0000000 + 4194304 * c.toNat + o.toNat < 2 ^ 32 by omega
theorem call (c : BitVec 4) (o : BitVec 22) : Statement (.call c o) :=
  show 0xf4000000 + 4194304 * c.toNat + o.toNat < 2 ^ 32 by omega
theorem jmp (a : BitVec 7) : Statement (.jmp a) := show 0xf8000000 + 4096 * a.toNat < 2 ^ 32 by omega
theorem callr (a : BitVec 7) : Statement (.callr a) := show 0xf8000001 + 4096 * a.toNat < 2 ^ 32 by omega
theorem ret : Statement (.ret) := show 0xf8000002 < 2 ^ 32 by omega
theorem exit : Statement (.exit) := show 0xf8000003 < 2 ^ 32 by omega
theorem fuse : Statement (.fuse) := show 0xf8000004 < 2 ^ 32 by omega
theorem trap (c : BitVec 7) : Statement (.trap c) := show 0xf8000005 + 32 * c.toNat < 2 ^ 32 by omega
theorem guard (p n : BitVec 7) : Statement (.guard p n) :=
  show 0xf8000006 + 4096 * p.toNat + 32 * n.toNat < 2 ^ 32 by omega
theorem guardN (p n : BitVec 7) : Statement (.guardN p n) :=
  show 0xf8000007 + 4096 * p.toNat + 32 * n.toNat < 2 ^ 32 by omega
theorem loop (d a b : BitVec 7) : Statement (.loop d a b) :=
  show 0xf8000008 + 524288 * d.toNat + 4096 * a.toNat + 32 * b.toNat < 2 ^ 32 by omega
theorem loopLong (d a b : BitVec 7) : Statement (.loopLong d a b) :=
  show 0xf8000009 + 524288 * d.toNat + 4096 * a.toNat + 32 * b.toNat < 2 ^ 32 by omega
theorem brk (d : BitVec 7) : Statement (.brk d) := show 0xf800000a + 524288 * d.toNat < 2 ^ 32 by omega
theorem wbase (n : BitVec 7) : Statement (.wbase n) := show 0xf800000b + 32 * n.toNat < 2 ^ 32 by omega
theorem movs (d s : BitVec 7) : Statement (.movs d s) :=
  show 0xf800000c + 524288 * d.toNat + 32 * s.toNat < 2 ^ 32 by omega
theorem nop : Statement (.nop) := show 0xf800000d < 2 ^ 32 by omega
theorem pshare (a b : BitVec 7) : Statement (.pshare a b) :=
  show 0xfc100000 + 8192 * a.toNat + 64 * b.toNat < 2 ^ 32 by omega
theorem pshareRo (a b : BitVec 7) : Statement (.pshareRo a b) :=
  show 0xfc100001 + 8192 * a.toNat + 64 * b.toNat < 2 ^ 32 by omega
theorem prel (a b : BitVec 7) : Statement (.prel a b) :=
  show 0xfc200000 + 8192 * a.toNat + 64 * b.toNat < 2 ^ 32 by omega
theorem pq (a d : BitVec 7) : Statement (.pq a d) := show 0xfc300000 + 8192 * a.toNat + 64 * d.toNat < 2 ^ 32 by omega
theorem nput (a b : BitVec 7) (w : BitVec 6) : Statement (.nput a b w) :=
  show 0xfc400000 + 8192 * a.toNat + 64 * b.toNat + w.toNat < 2 ^ 32 by omega
theorem nget (a b : BitVec 7) (w : BitVec 6) : Statement (.nget a b w) :=
  show 0xfc500000 + 8192 * a.toNat + 64 * b.toNat + w.toNat < 2 ^ 32 by omega
theorem ncoll (a b : BitVec 7) (w : BitVec 6) : Statement (.ncoll a b w) :=
  show 0xfc600000 + 8192 * a.toNat + 64 * b.toNat + w.toNat < 2 ^ 32 by omega
theorem nscmax (a b : BitVec 7) (w : BitVec 6) : Statement (.nscmax a b w) :=
  show 0xfc700000 + 8192 * a.toNat + 64 * b.toNat + w.toNat < 2 ^ 32 by omega
theorem nsum (a b : BitVec 7) (w : BitVec 6) : Statement (.nsum a b w) :=
  show 0xfc800000 + 8192 * a.toNat + 64 * b.toNat + w.toNat < 2 ^ 32 by omega
theorem dxfer (a : BitVec 7) : Statement (.dxfer a) := show 0xfc900000 + 8192 * a.toNat < 2 ^ 32 by omega
theorem sigst (a b : BitVec 7) : Statement (.sigst a b) :=
  show 0xfca00000 + 8192 * a.toNat + 64 * b.toNat < 2 ^ 32 by omega
theorem sigadd (a b : BitVec 7) : Statement (.sigadd a b) :=
  show 0xfcb00000 + 8192 * a.toNat + 64 * b.toNat < 2 ^ 32 by omega
theorem xrf (s d : BitVec 5) : Statement (.xrf s d) := Nat.two_pow_pos 32
theorem xbfx (i : BitVec 12) (s d : BitVec 5) : Statement (.xbfx i s d) := Nat.two_pow_pos 32
theorem xsw (t s d : BitVec 5) : Statement (.xsw t s d) := Nat.two_pow_pos 32
theorem xdisp (s d : BitVec 5) : Statement (.xdisp s d) := Nat.two_pow_pos 32
theorem xjr (t s d : BitVec 5) : Statement (.xjr t s d) := Nat.two_pow_pos 32
theorem schedulingDecision (die pos laneSet : Nat) : Statement (.schedulingDecision die pos laneSet) :=
  Nat.two_pow_pos 32
theorem quadSplit (die pos slot quad : Nat) : Statement (.quadSplit die pos slot quad) := Nat.two_pow_pos 32
theorem pathForced (die pos slot grp : Nat) (pc : BitVec 52) : Statement (.pathForced die pos slot grp pc) :=
  Nat.two_pow_pos 32
theorem fuseHoldExpiry (die pos slot : Nat) (pc : BitVec 52) : Statement (.fuseHoldExpiry die pos slot pc) :=
  Nat.two_pow_pos 32
theorem bedTimerExpiry (die pos bed : Nat) : Statement (.bedTimerExpiry die pos bed) := Nat.two_pow_pos 32
theorem bedLaunch (die pos bed : Nat) : Statement (.bedLaunch die pos bed) := Nat.two_pow_pos 32
theorem watchdogExpiry (die pos slot : Nat) : Statement (.watchdogExpiry die pos slot) := Nat.two_pow_pos 32
theorem divideResult (op : Nat) : Statement (.divideResult op) := Nat.two_pow_pos 32
theorem loadDataReturn (op lane : Nat) : Statement (.loadDataReturn op lane) := Nat.two_pow_pos 32
theorem storePerformed (op lane : Nat) : Statement (.storePerformed op lane) := Nat.two_pow_pos 32
theorem atomicElementApply (op lane : Nat) : Statement (.atomicElementApply op lane) := Nat.two_pow_pos 32
theorem hoodAccessArrival (op lane : Nat) : Statement (.hoodAccessArrival op lane) := Nat.two_pow_pos 32
theorem signalInstructionUpdate (op : Nat) : Statement (.signalInstructionUpdate op) := Nat.two_pow_pos 32
theorem clusterStopped (die cl : Nat) : Statement (.clusterStopped die cl) := Nat.two_pow_pos 32
theorem pathReplay (die pos slot rec : Nat) : Statement (.pathReplay die pos slot rec) := Nat.two_pow_pos 32
theorem faultRecordPost (die : Nat) : Statement (.faultRecordPost die) := Nat.two_pow_pos 32
theorem copyUnitPerformed (op lane : Nat) : Statement (.copyUnitPerformed op lane) := Nat.two_pow_pos 32
theorem tensorCopyPart (op part : Nat) : Statement (.tensorCopyPart op part) := Nat.two_pow_pos 32
theorem mcastChunk (op recv chunk : Nat) : Statement (.mcastChunk op recv chunk) := Nat.two_pow_pos 32
theorem mmaKstepComplete (op : Nat) : Statement (.mmaKstepComplete op) := Nat.two_pow_pos 32
theorem arrayHangReset (op : Nat) : Statement (.arrayHangReset op) := Nat.two_pow_pos 32
theorem tdecSector (op sector : Nat) : Statement (.tdecSector op sector) := Nat.two_pow_pos 32
theorem tdecQRow (op : Nat) : Statement (.tdecQRow op) := Nat.two_pow_pos 32
theorem vencBlock (op : Nat) : Statement (.vencBlock op) := Nat.two_pow_pos 32
theorem accstSector (op sector : Nat) : Statement (.accstSector op sector) := Nat.two_pow_pos 32
theorem accldRead (op lane : Nat) : Statement (.accldRead op lane) := Nat.two_pow_pos 32
theorem twgetResult (op lane : Nat) : Statement (.twgetResult op lane) := Nat.two_pow_pos 32
theorem tblldCopy (die pos entry : Nat) : Statement (.tblldCopy die pos entry) := Nat.two_pow_pos 32
theorem packageReset : Statement (.packageReset) := Nat.two_pow_pos 32
theorem bootRomReady : Statement (.bootRomReady) := Nat.two_pow_pos 32
theorem fwrangeWrite (v : BitVec 64) : Statement (.fwrangeWrite v) := Nat.two_pow_pos 32
theorem firmwareVerify : Statement (.firmwareVerify) := Nat.two_pow_pos 32
theorem feataccWrite (k : Nat) (v : BitVec 32) : Statement (.feataccWrite k v) := Nat.two_pow_pos 32
theorem memcfgWrite (v : BitVec 32) : Statement (.memcfgWrite v) := Nat.two_pow_pos 32
theorem keypolWrite (v : BitVec 32) : Statement (.keypolWrite v) := Nat.two_pow_pos 32
theorem ctxheapWrite (size : Bool) (v : BitVec 64) : Statement (.ctxheapWrite size v) := Nat.two_pow_pos 32
theorem heapbwWrite (v : BitVec 32) : Statement (.heapbwWrite v) := Nat.two_pow_pos 32
theorem vfsliceWrite (v : BitVec 32) : Statement (.vfsliceWrite v) := Nat.two_pow_pos 32
theorem pwrcapWrite (v : BitVec 32) : Statement (.pwrcapWrite v) := Nat.two_pow_pos 32
theorem qdescBaseWrite (die : Nat) (v : BitVec 64) : Statement (.qdescBaseWrite die v) := Nat.two_pow_pos 32
theorem mircfgWrite (v : BitVec 64) : Statement (.mircfgWrite v) := Nat.two_pow_pos 32
theorem clkindWrite (die : Nat) (v : BitVec 32) : Statement (.clkindWrite die v) := Nat.two_pow_pos 32
theorem clusterRebind (die : Nat) : Statement (.clusterRebind die) := Nat.two_pow_pos 32
theorem tlbinvWrite (v : BitVec 128) : Statement (.tlbinvWrite v) := Nat.two_pow_pos 32
theorem tlbinvComplete : Statement (.tlbinvComplete) := Nat.two_pow_pos 32
theorem pooladdWrite (v : BitVec 64) : Statement (.pooladdWrite v) := Nat.two_pow_pos 32
theorem rcwinWrite (frame : Nat) (v : BitVec 16) : Statement (.rcwinWrite frame v) := Nat.two_pow_pos 32
theorem confwatchWrite (die i : Nat) (v : BitVec 128) : Statement (.confwatchWrite die i v) := Nat.two_pow_pos 32
theorem hooddropClear (die cl : Nat) : Statement (.hooddropClear die cl) := Nat.two_pow_pos 32
theorem ringBaseWrite (die ring : Nat) (v : BitVec 64) : Statement (.ringBaseWrite die ring v) := Nat.two_pow_pos 32
theorem ringConsWrite (die ring : Nat) (v : BitVec 64) : Statement (.ringConsWrite die ring v) := Nat.two_pow_pos 32
theorem migtailWrite (die : Nat) (v : BitVec 64) : Statement (.migtailWrite die v) := Nat.two_pow_pos 32
theorem registerWrite (fn offset : Nat) (v : BitVec 128) : Statement (.registerWrite fn offset v) := Nat.two_pow_pos 32
theorem qtailWrite (die q : Nat) (v : BitVec 64) : Statement (.qtailWrite die q v) := Nat.two_pow_pos 32
theorem queueStart (die q : Nat) : Statement (.queueStart die q) := Nat.two_pow_pos 32
theorem queueReset (die q : Nat) : Statement (.queueReset die q) := Nat.two_pow_pos 32
theorem queueResetReport (die : Nat) : Statement (.queueResetReport die) := Nat.two_pow_pos 32
theorem faultreplyResume (die : Nat) (seq : BitVec 32) : Statement (.faultreplyResume die seq) := Nat.two_pow_pos 32
theorem faultreplyKill (die : Nat) (seq : BitVec 32) : Statement (.faultreplyKill die seq) := Nat.two_pow_pos 32
theorem signotifyWrite (die : Nat) (v : BitVec 64) : Statement (.signotifyWrite die v) := Nat.two_pow_pos 32
theorem debugGo (die cl : Nat) (v : BitVec 32) : Statement (.debugGo die cl v) := Nat.two_pow_pos 32
theorem debugStep (die cl : Nat) (v : BitVec 32) : Statement (.debugStep die cl v) := Nat.two_pow_pos 32
theorem dbgaccRead (die cl : Nat) (v : BitVec 64) : Statement (.dbgaccRead die cl v) := Nat.two_pow_pos 32
theorem dbgaccWrite (die cl : Nat) (v : BitVec 64) : Statement (.dbgaccWrite die cl v) := Nat.two_pow_pos 32
theorem checkpointSave (cmd : Nat) : Statement (.checkpointSave cmd) := Nat.two_pow_pos 32
theorem checkpointRestore (cmd : Nat) : Statement (.checkpointRestore cmd) := Nat.two_pow_pos 32
theorem checkpointComplete : Statement (.checkpointComplete) := Nat.two_pow_pos 32
theorem getVersion : Statement (.getVersion) := Nat.two_pow_pos 32
theorem getCapabilities : Statement (.getCapabilities) := Nat.two_pow_pos 32
theorem negotiateAlgorithms : Statement (.negotiateAlgorithms) := Nat.two_pow_pos 32
theorem getDigests : Statement (.getDigests) := Nat.two_pow_pos 32
theorem getCertificate : Statement (.getCertificate) := Nat.two_pow_pos 32
theorem challenge : Statement (.challenge) := Nat.two_pow_pos 32
theorem getMeasurements (signed inSession : Bool) : Statement (.getMeasurements signed inSession) := Nat.two_pow_pos 32
theorem keyExchange : Statement (.keyExchange) := Nat.two_pow_pos 32
theorem finish : Statement (.finish) := Nat.two_pow_pos 32
theorem keyrel (inSession : Bool) (gen : BitVec 32) (pairs : List (BitVec 16 × BitVec 256)) : Statement
    (.keyrel inSession gen pairs) :=
  Nat.two_pow_pos 32
theorem unsupportedRequest (code : BitVec 8) : Statement (.unsupportedRequest code) := Nat.two_pow_pos 32
theorem worldSwitch : Statement (.worldSwitch) := Nat.two_pow_pos 32
theorem functionLevelReset (vf : Nat) : Statement (.functionLevelReset vf) := Nat.two_pow_pos 32
theorem peerMemoryAccess (write : Bool) (pa : Nat) (bytes : List (BitVec 8)) : Statement
    (.peerMemoryAccess write pa bytes) :=
  Nat.two_pow_pos 32
theorem packetDispatch (die q : Nat) : Statement (.packetDispatch die q) := Nat.two_pow_pos 32
theorem packetBarrier (die q : Nat) : Statement (.packetBarrier die q) := Nat.two_pow_pos 32
theorem barrierReevaluate (die q packet : Nat) : Statement (.barrierReevaluate die q packet) := Nat.two_pow_pos 32
theorem barrierRereadTimeout (die q packet : Nat) : Statement (.barrierRereadTimeout die q packet) := Nat.two_pow_pos 32
theorem packetSignal (die q : Nat) : Statement (.packetSignal die q) := Nat.two_pow_pos 32
theorem packetDieTransfer (die q : Nat) : Statement (.packetDieTransfer die q) := Nat.two_pow_pos 32
theorem dieTransferPart (op part : Nat) : Statement (.dieTransferPart op part) := Nat.two_pow_pos 32
theorem completionSignalUpdate (die upd : Nat) : Statement (.completionSignalUpdate die upd) := Nat.two_pow_pos 32
theorem gridBarrierBlockArrival (grid blk k : Nat) : Statement (.gridBarrierBlockArrival grid blk k) :=
  Nat.two_pow_pos 32
theorem schedulerCoreFailed (die core : Nat) : Statement (.schedulerCoreFailed die core) := Nat.two_pow_pos 32
theorem standbyTakeover (die : Nat) : Statement (.standbyTakeover die) := Nat.two_pow_pos 32
theorem placementRound (die : Nat) : Statement (.placementRound die) := Nat.two_pow_pos 32
theorem restoreListEntry (die pos : Nat) : Statement (.restoreListEntry die pos) := Nat.two_pow_pos 32
theorem neighbourhoodStarving (die grid hood : Nat) : Statement (.neighbourhoodStarving die grid hood) :=
  Nat.two_pow_pos 32
theorem saveCapture (grid hood : Nat) : Statement (.saveCapture grid hood) := Nat.two_pow_pos 32
theorem saveToDrain (grid hood : Nat) : Statement (.saveToDrain grid hood) := Nat.two_pow_pos 32
theorem blockFlush (grid hood : Nat) : Statement (.blockFlush grid hood) := Nat.two_pow_pos 32
theorem contextSaved (ctx : Nat) : Statement (.contextSaved ctx) := Nat.two_pow_pos 32
theorem contextDiscard (ctx : Nat) : Statement (.contextDiscard ctx) := Nat.two_pow_pos 32
theorem partialCompletionRecord (die : Nat) : Statement (.partialCompletionRecord die) := Nat.two_pow_pos 32
theorem coppiceSlot (die cl : Nat) : Statement (.coppiceSlot die cl) := Nat.two_pow_pos 32
theorem coppiceScanStart (die pos : Nat) : Statement (.coppiceScanStart die pos) := Nat.two_pow_pos 32
theorem coppiceScanDone (die pos : Nat) (bad : List Nat) : Statement (.coppiceScanDone die pos bad) :=
  Nat.two_pow_pos 32
theorem suspectReport (die : Nat) : Statement (.suspectReport die) := Nat.two_pow_pos 32
theorem confirmedShadowCopy (die i : Nat) : Statement (.confirmedShadowCopy die i) := Nat.two_pow_pos 32
theorem uncorrectableError (sp : Space) (addr : Nat) : Statement (.uncorrectableError sp addr) :=
  Nat.two_pow_pos 32
theorem copyOnWriteResolution (die : Nat) (asid : BitVec 12) (vpage : Nat) : Statement
    (.copyOnWriteResolution die asid vpage) :=
  Nat.two_pow_pos 32
theorem tierMove (die : Nat) (asid : BitVec 12) (vpage : Nat) (readError : Bool) : Statement
    (.tierMove die asid vpage readError) :=
  Nat.two_pow_pos 32
theorem migrationCommand (die : Nat) : Statement (.migrationCommand die) := Nat.two_pow_pos 32
theorem demotionCopyDone (die : Nat) : Statement (.demotionCopyDone die) := Nat.two_pow_pos 32
theorem ngurothPutFlit (port : Nat) (hdr : BitVec 256) (pay : List (BitVec 8 × BitVec 256)) : Statement
    (.ngurothPutFlit port hdr pay) :=
  Nat.two_pow_pos 32
theorem getRequest (port : Nat) (hdr : BitVec 256) (pay : List (BitVec 8 × BitVec 256)) : Statement
    (.getRequest port hdr pay) :=
  Nat.two_pow_pos 32
theorem getData (port : Nat) (hdr : BitVec 256) (pay : List (BitVec 8 × BitVec 256))
    (op sector err : Nat) : Statement (.getData port hdr pay op sector err) :=
  Nat.two_pow_pos 32
theorem acknowledgement (port : Nat) (hdr : BitVec 256) (op sector err : Nat) : Statement
    (.acknowledgement port hdr op sector err) :=
  Nat.two_pow_pos 32
theorem combine (port : Nat) (hdr : BitVec 256) (pay : List (BitVec 8 × BitVec 256)) : Statement
    (.combine port hdr pay) :=
  Nat.two_pow_pos 32
theorem remoteSignalFlit (port : Nat) (hdr : BitVec 256) : Statement (.remoteSignalFlit port hdr) := Nat.two_pow_pos 32
theorem mirrorFlit (port : Nat) (hdr : BitVec 256) (pay : List (BitVec 8 × BitVec 256)) : Statement
    (.mirrorFlit port hdr pay) :=
  Nat.two_pow_pos 32
theorem mirrorAck (id : Nat) : Statement (.mirrorAck id) := Nat.two_pow_pos 32
theorem mirrorAckTimeout : Statement (.mirrorAckTimeout) := Nat.two_pow_pos 32
theorem sectorAckTimeout (op sector : Nat) : Statement (.sectorAckTimeout op sector) := Nat.two_pow_pos 32
theorem portDown (port : Nat) : Statement (.portDown port) := Nat.two_pow_pos 32
theorem systemStoreAcknowledged (op lane : Nat) (err : Bool) : Statement (.systemStoreAcknowledged op lane err) :=
  Nat.two_pow_pos 32
theorem xswWaitTimeout (die core : Nat) : Statement (.xswWaitTimeout die core) := Nat.two_pow_pos 32
theorem portUp (port : Nat) : Statement (.portUp port) := Nat.two_pow_pos 32

end Sys2Proof.Laws.WordFits
end

