-- ==== Sys2Proof/Laws/Shapes.lean ====
section
/-! SUPPORT. What each operand form of Machine/Operands.lean leaves, once for every instruction that uses it. -/

namespace Sys2Proof.Laws

open Sys2Proof.Machine

/-- What the issue of a register instruction comes to. -/
def Leaves (o : Host.Outcome State Fault Refusal) (s : State) (p : Path) (f : Nat → Thread → Thread) (sh : Shared) : Prop :=
  ∃ t, o = .next t ∧ Untouched s t ∧ Around s t p ∧ WarpBecomes t p (p.lanesWith f) sh

variable {i : Instr} {s : State} {p : Path}

/-- The threads of the active lanes change. -/
theorem leaves_threads (h : Ready i s p) {body : Path → State → Step1} (f : Nat → Thread → Thread)
    (hf : ∀ k t, (f k (t.advance p.w.stopReq)).Alike (f k t))
    (hb : body p (advanced s p) = .done (p.setThreads (advanced s p) p.act f)) :
    Leaves (issue i s body) s p f p.w.sh :=
  issue_lanes h f (fun w => { w with th := mapLanes p.act f w.th }) p.w.sh hf (fun _ => rfl) rfl rfl
    ⟨p.w.sh, p.w.flSet, rfl⟩ hb

/-- A per-thread register is written. -/
theorem leaves_write (h : Ready i s p) {body : Path → State → Step1} (d : Nat) (g : Nat → Word)
    (hb : body p (advanced s p) = .done (p.write (advanced s p) d g)) :
    Leaves (issue i s body) s p (fun k t => t.setReg d (g k)) p.w.sh :=
  leaves_threads h _ (fun _ t => setReg_alike (alike_advance t _) _ _) hb

/-- Threads and flags change. -/
theorem leaves_flags (h : Ready i s p) {body : Path → State → Step1} (f : Nat → Thread → Thread) (x : Fl)
    (hf : ∀ k t, (f k (t.advance p.w.stopReq)).Alike (f k t))
    (hb : body p (advanced s p) = .done (p.flags (p.setThreads (advanced s p) p.act f) x)) :
    Leaves (issue i s body) s p f (p.withFlags x) := by
  refine issue_lanes h f _ (p.withFlags x) hf ?_ ?_ ?_ ?_
    (hb.trans (congrArg Step1.done (modWarp_modWarp _ _ _ _ _ _ (by intro _; rfl))))
  · exact fun _ => rfl
  · rfl
  · rfl
  · exact ⟨p.withFlags x, p.w.flSet ||| x, rfl⟩

/-- A change of the warp that changes nothing is none. -/
theorem mod_none (s : State) (p : Path) : p.mod (advanced s p) (fun w => w) = advanced s p :=
  modWarp_modWarp (issued s p) p.die p.pos p.slot (moveOn1 p) (fun w => w) (by intro _; rfl)

/-- The per-warp state changes. -/
theorem leaves_share (h : Ready i s p) {body : Path → State → Step1} (g : Shared → Shared)
    (hb : body p (advanced s p) = .done (p.share (advanced s p) g)) :
    Leaves (issue i s body) s p (fun _ t => t) (g p.w.sh) := by
  refine issue_lanes h (fun _ t => t) (fun w => { w with sh := g w.sh }) (g p.w.sh) (fun _ t => alike_advance t _)
    (fun _ => rfl) ?_ rfl ⟨g p.w.sh, p.w.flSet, rfl⟩ hb
  simp [mapLanes, List.mapIdx_eq_zipIdx_map]

/-- The lanes move on and nothing else happens. -/
theorem leaves_none (h : Ready i s p) {body : Path → State → Step1} (hb : body p (advanced s p) = .done (advanced s p)) :
    Leaves (issue i s body) s p (fun _ t => t) p.w.sh := by
  refine leaves_share h (fun x => x) (hb.trans (congrArg Step1.done ?_))
  exact (mod_none s p).symm

/-- A uniform register is written (R82). -/
theorem leaves_uni (h : Ready i s p) {body : Path → State → Step1} (d : Nat) (x : Word)
    (hb : body p (advanced s p) = .done (p.writeU (advanced s p) d x)) :
    Leaves (issue i s body) s p (fun _ t => t) (p.withUni d x) := by
  unfold Path.writeU at hb
  unfold Path.withUni
  by_cases ha : p.any = true
  · rw [if_pos ha] at hb ⊢
    exact leaves_share h (fun y => { y with s := y.s.set d x }) hb
  · rw [if_neg ha] at hb ⊢
    exact leaves_none h hb

/-! ### The operand forms -/

theorem leaves_perThread (h : Ready i s p) (d : BitVec 7) (f : Thread → Word) :
    Leaves (perThread i d f s) s p (fun k t => t.setReg d.toNat (f (p.th k))) p.w.sh :=
  leaves_write h d.toNat _ rfl

theorem leaves_perLane1 (h : Ready i s p) (d a : BitVec 7) (f : Word → Word) :
    Leaves (perLane1 i d a f s) s p (fun k t => t.setReg d.toNat (f ((p.th k).reg a.toNat))) p.w.sh :=
  leaves_write h d.toNat _ rfl

theorem leaves_perLane2 (h : Ready i s p) (d a b : BitVec 7) (f : Word → Word → Word) :
    Leaves (perLane2 i d a b f s) s p
      (fun k t => t.setReg d.toNat (f ((p.th k).reg a.toNat) ((p.th k).reg b.toNat))) p.w.sh :=
  leaves_write h d.toNat _ rfl

theorem leaves_perLane3 (h : Ready i s p) (d a b : BitVec 7) (f : Word → Word → Word → Word) :
    Leaves (perLane3 i d a b f s) s p
      (fun k t => t.setReg d.toNat (f ((p.th k).reg d.toNat) ((p.th k).reg a.toNat) ((p.th k).reg b.toNat))) p.w.sh :=
  leaves_write h d.toNat _ rfl

theorem leaves_perThreadPair (h : Ready i s p) (d : BitVec 7) (f : Thread → BitVec 64) :
    Leaves (perThreadPair i d f s) s p (fun k t => t.setPair d.toNat (f (p.th k))) p.w.sh :=
  leaves_threads h _ (fun _ t => setPair_alike (alike_advance t _) _ _) rfl

theorem leaves_perPred (h : Ready i s p) (d : BitVec 7) (f : Thread → Bool) :
    Leaves (perPred i d f s) s p (fun k t => t.setPred d.toNat (f (p.th k))) p.w.sh :=
  leaves_threads h _ (fun _ t => setPred_alike (alike_advance t _) _ _) rfl

theorem leaves_perFloat (h : Ready i s p) (d : BitVec 7) (f : Thread → Word × Fl) :
    Leaves (perFloat i d f s) s p (fun k t => t.setReg d.toNat (f (p.th k)).1)
      (p.withFlags (orFlags ((laneList p.act).map fun k => (f (p.th k)).2))) :=
  leaves_flags h _ _ (fun _ t => setReg_alike (alike_advance t _) _ _) rfl

theorem leaves_uniform2 (h : Ready i s p) (d a b : BitVec 7) (f : Word → Word → Word) :
    Leaves (uniform2 i d a b f s) s p (fun _ t => t)
      (p.withUni d.toNat (f (p.w.old.u a.toNat) (p.w.old.u b.toNat))) :=
  leaves_uni h _ _ rfl

theorem leaves_uniform1 (h : Ready i s p) (d a : BitVec 7) (f : Word → Word) :
    Leaves (uniform1 i d a f s) s p (fun _ t => t) (p.withUni d.toNat (f (p.w.old.u a.toNat))) :=
  leaves_uni h _ _ rfl

/-- An instruction that acts once for a path does nothing for a path without active lanes (R193). -/
theorem leaves_perPath_idle (h : Ready i s p) {body : Path → State → Step1} (ha : p.any = false) :
    Leaves (perPath i s body) s p (fun _ t => t) p.w.sh :=
  leaves_none h (by simp [ha])

end Sys2Proof.Laws
end

