-- ==== Sys2Proof/Tests/Slice0.lean ====
section
/-! SUPPORT. Tests of the decoder and of single steps against the tables of the spec, an ill-formed instruction for each
check, and a state that meets the hypotheses of each claim. -/

namespace Sys2Proof.Tests

open Sys2Proof.Machine

set_option Elab.async false

/-! ### Words written out from the spec's tables and examples -/

/-- R83, R85 to R90 (chapters 04, 05). -/
theorem test_decode_integer :
    decodeWord 0x00184E41 = .ok (.add 3 4 114) ∧
    decodeWord 0x00780089 = .ok (.sra 15 0 4) ∧
    decodeWord 0x0C083082 = .ok (.cmp 1 3 4 2) ∧
    decodeWord 0x3817FFFB = .ok (.movi 2 0x7FFFB) ∧
    decodeWord 0x3817F678 = .ok (.movi 2 0x7F678) ∧
    decodeWord 0x3C1091A2 = .ok (.movhi 2 0x091A2) :=
  ⟨rfl, rfl, rfl, rfl, rfl, rfl⟩

/-- R83. -/
theorem test_decode_uniform :
    decodeWord 0x702860E1 = .ok (.uadd 5 6 7) :=
  rfl

/-- R91. -/
theorem test_decode_divide :
    decodeWord 0x18820506 = .ok (.div 2 4 5 6) :=
  rfl

/-- R112, R116, R118. -/
theorem test_decode_float :
    decodeWord 0x401840A1 = .ok (.fadd 3 4 5 1) ∧
    decodeWord 0x44307100 = .ok (.ffma 6 7 8 0) ∧
    decodeWord 0x50101042 = .ok (.fcmp 2 1 2 2) ∧
    decodeWord 0x58184000 = .ok (.rcp 3 4) :=
  ⟨rfl, rfl, rfl, rfl⟩

/-- R122, R124, R126, R111. -/
theorem test_decode_table :
    decodeWord 0x5C489000 = .ok (.sfe 9 9) ∧
    decodeWord 0x5C002002 = .ok (.tblld 2) ∧
    decodeWord 0x5C000003 = .ok .tblsw ∧
    decodeWord 0x680007E1 = .ok (.flclr 0x3F) :=
  ⟨rfl, rfl, rfl, rfl⟩

/-- R65 Table 6. -/
theorem test_decode_memory :
    decodeWord 0x80C47284 = .ok (.ldg 3 8 114 16 4) :=
  rfl

/-- R98, R100. -/
theorem test_decode_control :
    decodeWord 0xF0FFFFF0 = .ok (.bra 3 0x3FFFF0) ∧
    decodeWord 0xF440003E = .ok (.call 1 0x3E) ∧
    decodeWord 0xF8074000 = .ok (.jmp 116) ∧
    decodeWord 0xF8074001 = .ok (.callr 116) ∧
    decodeWord 0xF8000002 = .ok .ret ∧
    decodeWord 0xF8000003 = .ok .exit ∧
    decodeWord 0xF8000004 = .ok .fuse ∧
    decodeWord 0xF8000545 = .ok (.trap 42) ∧
    decodeWord 0xF8001046 = .ok (.guard 1 2) ∧
    decodeWord 0xF800004B = .ok (.wbase 2) ∧
    decodeWord 0xF818024C = .ok (.movs 3 18) ∧
    decodeWord 0xF800000D = .ok .nop :=
  ⟨rfl, rfl, rfl, rfl, rfl, rfl, rfl, rfl, rfl, rfl, rfl, rfl⟩

/-- R202, R200, R199, R211, R213. -/
theorem test_decode_engine :
    decodeWord 0xD8000064 = .ok (.yield 100) ∧
    decodeWord 0xD4000001 = .ok .idem ∧
    decodeWord 0xD4000002 = .ok .idemx ∧
    decodeWord 0xD0000003 = .ok (.slotClaim 0 3) ∧
    decodeWord 0xD0000013 = .ok (.slotRel 0 3) ∧
    decodeWord 0xB0000000 = .ok (.barw 0) ∧
    decodeWord 0xB0000001 = .ok (.barb 0) :=
  ⟨rfl, rfl, rfl, rfl, rfl, rfl, rfl⟩

/-- R296, R298, R301. -/
theorem test_decode_fence :
    decodeWord 0xB8000000 = .ok (.fenceEng 0) ∧
    decodeWord 0xB8180001 = .ok (.fenceSys 3) ∧
    decodeWord 0xB8100002 = .ok (.fenceMir 2) ∧
    decodeWord 0xB8280003 = .ok (.fenceAll 5) ∧
    decodeWord 0xB8003004 = .ok (.fwait 3) ∧
    decodeWord 0xBC000004 = .ok (.waitcLd 4) ∧
    decodeWord 0xBC000800 = .ok (.waitcSt 0) :=
  ⟨rfl, rfl, rfl, rfl, rfl, rfl, rfl⟩

/-- R222, R231. -/
theorem test_decode_matrix :
    decodeWord 0xDC006008 = .ok (.gkset 6) ∧
    decodeWord 0xDC300009 = .ok (.gkrd 6) ∧
    decodeWord 0xE4050002 = .ok (.mmack 0 10) ∧
    decodeWord 0xE4050006 = .ok (.mmackCut 0 10) :=
  ⟨rfl, rfl, rfl, rfl⟩

/-- R364, R366, R367. -/
theorem test_decode_frames :
    decodeWord 0xFC1E8200 = .ok (.pshare 116 8) ∧
    decodeWord 0xFC1E8201 = .ok (.pshareRo 116 8) ∧
    decodeWord 0xFC2E8200 = .ok (.prel 116 8) ∧
    decodeWord 0xFC3E8280 = .ok (.pq 116 10) :=
  ⟨rfl, rfl, rfl, rfl⟩

/-- R317, R318. -/
theorem test_decode_signals :
    decodeWord 0xFCAE8180 = .ok (.sigst 116 6) ∧
    decodeWord 0xFCBE8180 = .ok (.sigadd 116 6) ∧
    decodeWord 0xFC9E8000 = .ok (.dxfer 116) :=
  ⟨rfl, rfl, rfl⟩

/-- R305: the scheduler cores' own words. -/
theorem test_decode_xlorekq : decodeX 0x0005850B = .ok (.xrf 11 10) ∧ decodeX 0x0005B50B = .ok (.xdisp 11 10) :=
  ⟨rfl, rfl⟩

/-- R67: the all-zero and the all-one word are illegal, cond 14 is, a field that must be zero is checked before a range,
and a uniform field of 71 is out of range. -/
theorem test_decode_illegal : decodeWord 0 = .error 1 ∧ decodeWord 0xFFFFFFFF = .error 1 ∧
    decodeWord 0xF3800000 = .error 4 ∧ decodeWord 0xF8080003 = .error 2 ∧ decodeWord 0x702868E1 = .error 3 :=
  ⟨rfl, rfl, rfl, rfl, rfl⟩

/-! ### An ill-formed instruction for each check (R63, R67) -/

theorem test_illformed_kinds :
    [Instr.lea 3 2 1 0, .lea 126 2 1 0, .lea 4 2 1 5, .sfe2 1 2, .uadd 64 0 0, .uadd 0 0 71, .pand 12 0 0, .cmp 12 0 0 0,
     .lxbase 8 2, .brk 3, .loop 3 1 0, .pshare 4 2, .gkset 7, .jmp 5].map wellFormed =
    [false, false, false, true, false, false, false, false, false, false, false, false, false, false] := by decide

theorem test_illformed_integer :
    [Instr.leas 4 2 1 5, .addc 1 2 3 12, .subc 1 2 3 12, .cmp 1 2 3 10, .sel 1 2 3 12, .seln 1 2 3 12, .bfx 1 2 31 1,
     .bfxs 1 2 31 1, .bfi 1 2 31 1].all (fun i => !(wellFormed i)) = true := by decide

theorem test_illformed_float :
    [Instr.fcmp 1 2 3 8, .cvt 1 2 0 0 11 0, .cvt 1 2 0 0 0 11, .cvto 4 4 4 0 12, .flclr 64].all
      (fun i => !(wellFormed i)) = true := by decide

theorem test_illformed_access :
    [Instr.ldg 0 4 4 0 7, .lds 0 4 4 0 7, .ldh 0 4 4 0 7, .ldsys 0 4 4 0 7, .stg 0 4 4 0 0 5, .sts 0 4 4 0 0 5,
     .sth 0 4 4 0 0 5, .stsys 0 4 4 0 5, .atomg 0 4 4 0 0 0 13, .atomg 0 4 4 0 3 0 0, .atoms 0 4 4 0 1 11,
     .atomh 0 4 4 0 1 11, .accld 0 4 4 3].all (fun i => !(wellFormed i)) = true := by decide

theorem test_illformed_control :
    [Instr.bra 14 0, .call 15 0, .guard 1 0, .guard 1 9, .guardN 1 0, .wbase 16, .movs 1 27, .mma 0 4 4 4 5,
     .cpy 0 4 4 0 0 3].all (fun i => !(wellFormed i)) = true := by decide

/-! ### One step on one lane (chapter 05, Table 4) -/

/-- The one-lane path of the placed program (log 2), its grid and core. -/
def base : State :=
  { setCore { State.reset with grids := [placedGrid State.reset] } (placedCore 0) with cur := ⟨0, 0, 0, 8, 1, 0, 0⟩ }

/-- The same with its thread changed. -/
def withLane (f : Thread → Thread) : State := modWarp base 0 0 0 fun w => { w with th := w.th.mapIdx fun k t => if k = 0 then f t else t }

/-- The lane of the path after an instruction. -/
def after (i : Instr) (s : State) : Thread :=
  match exec i s with
  | .next t => match (coreAt t 0 0).warpAt 0 with
    | some w => w.lane 0
    | none => Thread.absent
  | _ => Thread.absent

/-- The initial values of chapter 05, Table 4. -/
def table4 : State := withLane fun t =>
  { t with
    v := (([(0, 0x80000000#32), (1, 0xFFFFFFFF#32), (3, 0x7FFFFFF0#32), (4, 32#32), (5, 0x12345678#32), (25, 0x64#32)] :
      List (Nat × Word)).foldl (fun l x => l.set x.1 x.2) t.v),
    g := (t.g.set 2 0x1000#32).set 3 0x10#32, p := 2#12 }

/-- R83. -/
theorem test_addsat : (after (.addsat 14 3 4) table4).reg 14 = 0x7FFFFFFF#32 := by decide +kernel

/-- R83. -/
theorem test_sra : (after (.sra 15 0 4) table4).reg 15 = 0xFFFFFFFF#32 := by decide +kernel

/-- R83. -/
theorem test_shl : (after (.shl 16 5 4) table4).reg 16 = 0#32 := by decide +kernel

/-- R83. -/
theorem test_rotl : (after (.rotl 17 5 4) table4).reg 17 = 0x12345678#32 := by decide +kernel

/-- R84. -/
theorem test_clz : (after (.clz 18 2) table4).reg 18 = 32#32 := by decide +kernel

/-- R84. -/
theorem test_abs : (after (.abs 19 0) table4).reg 19 = 0x80000000#32 := by decide +kernel

/-- R89. -/
theorem test_bfxs : (after (.bfxs 20 5 3 1) table4).reg 20 = 0xFFFFFFFC#32 := by decide +kernel

/-- R84. -/
theorem test_mulhi : (after (.mulhi 21 0 1) table4).reg 21 = 0#32 := by decide +kernel

/-- R84. -/
theorem test_mulhu : (after (.mulhu 22 0 1) table4).reg 22 = 0x7FFFFFFF#32 := by decide +kernel

/-- R84. -/
theorem test_dot4s : (after (.dot4s 25 5 1) table4).reg 25 = 0xFFFFFF50#32 := by decide +kernel

/-- R84. -/
theorem test_popc : (after (.popc 26 5) table4).reg 26 = 13#32 := by decide +kernel

/-- R84. -/
theorem test_ctz : (after (.ctz 27 5) table4).reg 27 = 3#32 := by decide +kernel

/-- R84. -/
theorem test_brev : (after (.brev 28 5) table4).reg 28 = 0x1E6A2C48#32 := by decide +kernel

/-- R85. -/
theorem test_leas : (after (.leas 116 114 1 2) table4).reg 116 = 0x00000FFC#32 := by decide +kernel

/-- R85. -/
theorem test_lea : (after (.lea 118 114 1 2) table4).reg 119 = 0x00000014#32 := by decide +kernel

/-- R90. -/
theorem test_movi : (after (.movi 2 0x7F678) table4).reg 2 = 0xFFFFF678#32 := by decide +kernel

/-- R86: the carry out of bit 31. -/
theorem test_addc : (after (.addc 23 1 4 1) table4).reg 23 = 0x20#32 ∧ (after (.addc 23 1 4 1) table4).pred 1 = true := by
  decide +kernel

/-- R86: the borrow. -/
theorem test_subc : (after (.subc 24 2 4 2) table4).reg 24 = 0xFFFFFFE0#32 ∧
    (after (.subc 24 2 4 2) table4).pred 2 = true := by decide +kernel

/-- R92: what a division writes when its result comes. -/
def divided (i : Instr) : Thread :=
  match exec i table4 with
  | .next t => after (.divideResult 1) t
  | _ => Thread.absent

/-- R92: signed overflow. -/
theorem test_div : (divided (.div 0 10 0 1)).reg 10 = 0x80000000#32 ∧ (divided (.rem 0 11 0 1)).reg 11 = 0#32 := by
  decide +kernel

/-- R92: division by zero. -/
theorem test_divu : (divided (.divu 0 12 5 2)).reg 12 = 0xFFFFFFFF#32 ∧
    (divided (.remu 0 13 5 2)).reg 13 = 0x12345678#32 := by decide +kernel

/-- R19: a write to `z` is discarded, and the lane goes on. -/
theorem test_z : after (.movi 127 5) table4 = { after .nop table4 with v := (after (.movi 127 5) table4).v } ∧
    (after (.movi 127 5) table4).v = (after .nop table4).v ∧ (after .nop table4).pc = 4#52 := by decide +kernel

/-- R105: the window base moves the names of registers. -/
theorem test_wbase : (after (.wbase 2) table4).wb = 2#4 := by decide +kernel

/-! ### States that meet the hypotheses of the claims -/

/-- `Ready` as a test. -/
def readyB (i : Instr) (s : State) : Bool :=
  match pathOf s with
  | none => false
  | some p => wellFormed i && !(featureIllegal s i) && decide (p.w.restoring = []) && !(waits i s p) &&
      (List.range 32).all fun k => !((activeLanes i p).getLsbD k) ||
        (inRange i (p.th k) && !(interlocked i (p.th k)) && decide (violation i (p.th k) = 0))

/-- The path of a state that has one. -/
def pathIn (s : State) : Path :=
  (pathOf s).getD ⟨0, 0, 0, 0, 0, 0, 0, Core.fresh 0 0, Warp.start 0 0 0 none 0 [], placedGrid s⟩

theorem lane_lt {m : BitVec 32} {k : Nat} (h : m.getLsbD k = true) : k ∈ List.range 32 :=
  List.mem_range.2 (BitVec.lt_of_getLsbD h)

theorem ready {i : Instr} {s : State} (h : readyB i s = true) : Ready i s (pathIn s) := by
  unfold readyB at h
  unfold pathIn
  cases hp : pathOf s with
  | none => rw [hp] at h; cases h
  | some p =>
    rw [hp] at h
    simp only [Bool.and_eq_true, Bool.not_eq_true', decide_eq_true_eq, List.all_eq_true, Bool.or_eq_true] at h
    obtain ⟨⟨⟨⟨h1, h2⟩, h3⟩, h4⟩, h5⟩ := h
    have lane : ∀ k, (activeLanes i p).getLsbD k = true →
        (inRange i (p.th k) = true ∧ interlocked i (p.th k) = false) ∧ violation i (p.th k) = 0 := by
      intro k hk
      rcases h5 k (lane_lt hk) with h | h
      · rw [hk] at h; cases h
      · exact h
    exact ⟨hp, h1, h2, fun k hk => (lane k hk).1.1, h3, fun k hk => (lane k hk).1.2, fun k hk => (lane k hk).2, h4⟩

theorem ready_all {l : List Instr} {s : State} (h : l.all (fun i => readyB i s) = true) :
    ∀ i ∈ l, Ready i s (pathIn s) := fun i hi => ready (List.all_eq_true.1 h i hi)

/-- The path with its one lane disabled by a guard (R73). -/
def disabled : State := withLane fun t => { t with guardN := 1, guardEn := false }

/-! #### Integer, predicate, float -/

theorem witness_IntegerArithmetic : ∀ i ∈
    ([(Instr.add 4 8 0), (.sub 4 8 0), (.and 4 8 0), (.or 4 8 0), (.xor 4 8 0), (.andn 4 8 0), (.shl 4 8 0),
     (.shr 4 8 0), (.sra 4 8 0), (.rotl 4 8 0), (.min 4 8 0), (.max 4 8 0), (.minu 4 8 0), (.maxu 4 8 0),
     (.addsat 4 8 0), (.subsat 4 8 0), (.mul 4 8 0), (.mulhi 4 8 0), (.mulhu 4 8 0), (.dot4s 4 8 0),
     (.dot4u 4 8 0), (.popc 4 8), (.clz 4 8), (.ctz 4 8), (.brev 4 8), (.abs 4 8), (.addi 4 8 0), (.andi 4 8 0),
     (.ori 4 8 0), (.xori 4 8 0), (.shli 4 8 0), (.shri 4 8 0), (.srai 4 8 0), (.rotli 4 8 0), (.bfx 4 8 0 0),
     (.bfxs 4 8 0 0), (.bfi 4 8 0 0), (.movi 4 0), (.movhi 4 0), (.sel 4 8 0 0), (.seln 4 8 0 0), (.bcast 4 8),
     (.lea 4 8 0 0), (.leas 4 8 0 0), (.addc 4 8 0 0), (.subc 4 8 0 0)] : List Instr),
    Ready i base (pathIn base) := ready_all (by decide +kernel)

theorem witness_UniformsAndPredicates : ∀ i ∈
    ([(Instr.uadd 4 8 0), (.usub 4 8 0), (.uand 4 8 0), (.uor 4 8 0), (.uxor 4 8 0), (.uandn 4 8 0), (.ushl 4 8 0),
     (.ushr 4 8 0), (.usra 4 8 0), (.urotl 4 8 0), (.umin 4 8 0), (.umax 4 8 0), (.uminu 4 8 0), (.umaxu 4 8 0),
     (.uaddsat 4 8 0), (.usubsat 4 8 0), (.uaddi 4 8 0), (.umovi 4 0), (.rdfirst 4 8), (.cmp 4 8 0 0),
     (.pand 4 8 0), (.por 4 8 0), (.pxor 4 8 0), (.pandn 4 8 0), (.pnot 4 8), (.pmov 4 8), (.pset 4), (.pclr 4)] : List Instr),
    Ready i base (pathIn base) := ready_all (by decide +kernel)

theorem witness_FloatArithmetic : ∀ i ∈
    ([(Instr.fadd 4 8 0 0), (.fsub 4 8 0 0), (.fmul 4 8 0 0), (.ffma 4 8 0 0), (.ffms 4 8 0 0), (.ffnma 4 8 0 0),
     (.bfadd2 4 8 0 0), (.bfsub2 4 8 0 0), (.bfmul2 4 8 0 0), (.bffma2 4 8 0 0), (.bffms2 4 8 0 0),
     (.bffnma2 4 8 0 0), (.fmin 4 8 0), (.fmax 4 8 0), (.bfmin2 4 8 0), (.bfmax2 4 8 0), (.fabs 4 8),
     (.fneg 4 8), (.bfabs2 4 8), (.bfneg2 4 8), (.rcp 4 8), (.rsqrt 4 8), (.sqrt 4 8), (.exp2 4 8), (.log2 4 8),
     (.sin 4 8), (.cos 4 8), (.cvt 4 8 0 0 0 0), (.fcmp 4 8 0 0), (.fclass 4 8)] : List Instr),
    Ready i base (pathIn base) := ready_all (by decide +kernel)

theorem witness_SpecialFunctions : fp32.decode 0x3F800001 = .fin false 8388609 (-23) ∧ fp32.decode 1 = .fin false 1 (-149) ∧
    bf16.decode 0x8001 = .fin true 1 (-133) ∧ fp16.decode 0x7BFF = .fin false 2047 5 ∧ (f8e4.decode 0x7E) = .fin false 14 5 ∧
    f8e5.decode 0x7B = .fin false 7 13 := by decide +kernel

/-- Without a table grant (R127). -/
def noTable : State := modKernel base 0 0 0 fun k => { k with tbl := false }

theorem witness_FlagsAndActivation :
    Ready (.flrd 4) base (pathIn base) ∧ Ready (.flclr 0x3F) base (pathIn base) ∧ Ready (.flclr 1) disabled (pathIn disabled) ∧
    Ready (.sfe 4 8) base (pathIn base) ∧ Ready (.sfe2 4 8) base (pathIn base) ∧ Ready (.sfe 4 8) noTable (pathIn noTable) ∧
    Ready (.sfe2 4 8) noTable (pathIn noTable) ∧
    ((pathIn base).any = true ∧ (pathIn base).kernel.tbl = true ∧ (pathIn noTable).any = true ∧
      (pathIn noTable).kernel.tbl = false ∧ (pathIn disabled).any = false) :=
  ⟨ready (by decide +kernel), ready (by decide +kernel), ready (by decide +kernel), ready (by decide +kernel),
    ready (by decide +kernel), ready (by decide +kernel), ready (by decide +kernel), by decide +kernel⟩

/-! #### Control -/

/-- A branch backward from address 0 leaves the address space; one forward does not; a branch on a false predicate has
no taking lane. -/
theorem witness_BranchAndCall :
    (∀ i ∈ ([Instr.bra 12 1, .bra 13 1, .bra 0 0x3FFFFF, .bra 12 0x3FFFFF, .call 12 1, .call 12 0x3FFFFF] : List Instr),
      Ready i base (pathIn base)) ∧ (pathIn base).pc = 0#52 ∧ (1#22).toInt = 1 ∧ (0x3FFFFF#22).toInt = -1 ∧
    Rules.takes (pathIn base) 12 0 = true ∧ (∀ k ∈ List.range 32, Rules.takes (pathIn base) 0 k = false) :=
  ⟨ready_all (by decide +kernel), by decide +kernel, by decide, by decide, by decide +kernel, by decide +kernel⟩

/-- A target that is an instruction address, one that is misaligned, one at 2^52. -/
def target (x : BitVec 64) : State := withLane fun t => (t.setPair 4 x).setPair 124 x

theorem witness_RegisterTransfer :
    ([0x100#64, 0x102#64, 0x10000000000000#64].all fun x => [Instr.jmp 4, .callr 4, .ret].all fun i => readyB i (target x)) = true ∧
    ((pathIn (target 0x100#64)).th 0).pair 4 = 0x100#64 ∧ ((pathIn (target 0x102#64)).th 0).pair 124 = 0x102#64 ∧
    (pathIn (target 0x102#64)).act = 1#32 := by decide +kernel

theorem witness_GuardWindow : Ready (.guard 4 1) base (pathIn base) ∧ Ready (.guardN 11 8) disabled (pathIn disabled) :=
  ⟨ready (by decide +kernel), ready (by decide +kernel)⟩

theorem witness_TrapsAndExits :
    (∀ i ∈ ([Instr.exit, .trap 0, .trap 127] : List Instr), Ready i base (pathIn base) ∧ Ready i disabled (pathIn disabled)) ∧
    (pathIn base).any = true ∧ (pathIn disabled).any = false :=
  ⟨fun i hi => ⟨ready_all (l := [.exit, .trap 0, .trap 127]) (by decide +kernel) i hi,
    ready_all (l := [.exit, .trap 0, .trap 127]) (by decide +kernel) i hi⟩, by decide +kernel, by decide +kernel⟩

/-- The warp with a sprig of its second quad, whose lane 4 runs (R31). -/
def sprig : State := modWarp base 0 0 0 fun w =>
  { w with sprigs := 2, th := w.th.mapIdx fun k t => if k = 4 then { w.lane 0 with pc := 8 } else t }

theorem witness_FuseHolds :
    Ready .fuse base (pathIn base) ∧ (pathIn base).w.sprigs = 0#8 ∧ Ready .fuse sprig (pathIn sprig) ∧
    ((pathIn sprig).w.sprigs ≠ 0#8 ∧ (pathIn sprig).any = true ∧ (pathIn sprig).act.getLsbD 4 = false ∧
      ((pathIn sprig).th 4).running = true ∧ ∀ k ∈ List.range 32, (pathIn sprig).w.groupOf k = (pathIn sprig).w.groupOf 4 →
        (pathIn sprig).act.getLsbD k = false ∧ (pathIn sprig).w.fusing (pathIn sprig).pc k = false) ∧
    ((pathIn sprig).w.th.all fun t => decide (t.wait = .none)) = true :=
  ⟨ready (by decide +kernel), by decide +kernel, ready (by decide +kernel), by decide +kernel, by decide +kernel⟩

theorem witness_LoopEntry :
    (∀ i ∈ ([Instr.loop 0 4 0, .loopLong 2 4 127] : List Instr), Ready i base (pathIn base) ∧ Ready i table4 (pathIn table4)) ∧
    (pathIn base).any = true ∧ (pathIn base).w.sh.loops.length = 3 ∧ (∀ m ∈ (pathIn base).w.sh.loops ++ (pathIn base).w.old.loops, m.active = false) ∧
    (pathIn base).v 0 4 = 0#32 ∧ (pathIn table4).v 0 4 = 32#32 :=
  ⟨fun i hi => ⟨ready_all (l := [.loop 0 4 0, .loopLong 2 4 127]) (by decide +kernel) i hi,
    ready_all (l := [.loop 0 4 0, .loopLong 2 4 127]) (by decide +kernel) i hi⟩, by decide +kernel, by decide +kernel,
    by decide +kernel, by decide +kernel, by decide +kernel⟩

/-- Level 1 is active over the word at 0, with a count. -/
def looped (c : Word) : State := modWarp base 0 0 0 fun w =>
  let sh := { w.sh with loops := w.sh.loops.set 1 ⟨true, c, 0, 0, 1, 1⟩ }
  { w with sh := sh, old := sh }

theorem witness_LoopAgain : ∀ c ∈ ([1#32, 2#32] : List Word), Ready .nop (looped c) (pathIn (looped c)) ∧
    (pathIn (looped c)).w.sh.loops[1]? = some ⟨true, c, 0, 0, 1, 1⟩ ∧
    (∀ m ∈ [0, 2], ∀ j ∈ (pathIn (looped c)).w.sh.loops[m]?, j.active = false) ∧ (pathIn (looped c)).lanes = 1#32 ∧
    (pathIn (looped c)).pc.toNat = 0 := by
  intro c hc
  simp only [List.mem_cons, List.not_mem_nil, or_false] at hc
  rcases hc with rfl | rfl <;> exact ⟨ready (by decide +kernel), by decide +kernel⟩

theorem witness_LoopBreak : Ready (.brk 1) (looped 5) (pathIn (looped 5)) ∧ (pathIn (looped 5)).any = true ∧
    (pathIn (looped 5)).w.old.loops[1]? = some ⟨true, 5, 0, 0, 1, 1⟩ ∧ (pathIn (looped 5)).act = 1#32 ∧
    (∀ j ∈ (pathIn (looped 5)).w.sh.loops, j.active = true → 1 ≤ j.order) :=
  ⟨ready (by decide +kernel), by decide +kernel⟩

theorem witness_WindowBase : (∀ i ∈ ([Instr.wbase 15, .wbase 0, .nop] : List Instr), Ready i base (pathIn base)) ∧
    ((pathIn base).th 0).v.length = 256 ∧
    Ready (.wbase 2) (withLane fun t => { t with v := t.v.take 32 }) (pathIn (withLane fun t => { t with v := t.v.take 32 })) :=
  ⟨ready_all (by decide +kernel), by decide +kernel, ready (by decide +kernel)⟩

theorem witness_CacheHints : ∀ i ∈
    ([(Instr.pfl1 0 4), (.pfl2 0 4), (.evl1 0 4)] : List Instr),
    Ready i base (pathIn base) := ready_all (by decide +kernel)

theorem witness_ValuesAndExchanges : ∀ i ∈
    ([(Instr.movs 4 8), (.xlaneAt 4 8 0), (.xlaneBack 4 8 0), (.xlaneFwd 4 8 0), (.xlaneSwz 4 8 0), (.push 4 8 0),
     (.scanAdd 4 8), (.scanAddx 4 8), (.scanMin 4 8), (.scanMax 4 8), (.pgath 4 8), (.lsame 4 8),
     (.lsameAll 4 8), (.lfoldAdd 4 8), (.lfoldMin 4 8), (.lfoldMax 4 8), (.lfoldAnd 4 8), (.lfoldOr 4 8),
     (.lfoldXor 4 8), (.pall 4 8), (.pany 4 8)] : List Instr),
    Ready i base (pathIn base) := ready_all (by decide +kernel)

/-- A pair of v4:v5. -/
def pairIs (x : BitVec 64) : State := withLane fun t => t.setPair 4 x

theorem witness_WarpState :
    (∀ i ∈ ([Instr.idem, .idemx, .lxext0 0 4, .lxext1 0 4, .lxext2 0 4, .lxext3 7 4, .lxbase 0 4, .gkrd 4, .yield 0,
      .gkset 4] : List Instr), Ready i base (pathIn base)) ∧
    Ready (.lxbase 0 4) (pairIs 0x10000000000000#64) (pathIn (pairIs 0x10000000000000#64)) ∧
    Ready (.gkset 4) (pairIs 3#64) (pathIn (pairIs 3#64)) ∧ Ready (.gkset 4) (pairIs 1#64) (pathIn (pairIs 1#64)) ∧
    ((pathIn base).any = true ∧ ((pathIn base).th (pathIn base).l0).pair 4 = 0#64 ∧
      ((pathIn (pairIs 1#64)).th (pathIn (pairIs 1#64)).l0).pair 4 = 1#64 ∧
      ∀ w ∈ (coreAt base 0 0).warps, w.latch = none) :=
  ⟨ready_all (by decide +kernel), ready (by decide +kernel), ready (by decide +kernel), ready (by decide +kernel),
    by decide +kernel⟩

/-- A fence token in s3, read at the start of the cycle. -/
def token (x : Word) : State := modWarp base 0 0 0 fun w => { w with old := { w.old with s := w.old.s.set 3 x } }

theorem witness_Fences :
    (∀ i ∈ ([Instr.fenceEng 0, .fenceSys 3, .fenceMir 2, .fenceAll 63, .waitcLd 0, .waitcSt 63] : List Instr),
      Ready i base (pathIn base)) ∧ (pathIn base).any = true ∧
    ([0x100#32, 0x107#32, 0xF#32].all fun x => readyB (.fwait 3) (token x)) = true ∧
    Ready (.fwait 3) disabled (pathIn disabled) ∧ (token 0x107#32).mirBroken = false ∧
    (pathIn (token 0x107#32)).w.old.s.getD 3 0 = 0x107#32 :=
  ⟨ready_all (by decide +kernel), by decide +kernel, by decide +kernel, ready (by decide +kernel), by decide +kernel,
    by decide +kernel⟩

/-! #### Accesses -/

theorem ok_of {ε α : Type} {x : Except ε α} {a : α} (h : x.toOption = some a) : x = .ok a := by
  cases x with
  | error e => cases h
  | ok b => exact congrArg Except.ok (Option.some.inj h)

theorem error_of {ε α : Type} {x : Except ε α} {e : ε} (h : (match x with | .error y => some y | .ok _ => none) = some e) :
    x = .error e := by
  cases x with
  | error y => exact congrArg Except.error (Option.some.inj h)
  | ok b => cases h

/-- Only lane 0 of a path of one lane is active. -/
theorem lane_zero {m : BitVec 32} (hm : m = 1#32) {k : Nat} (h : m.getLsbD k = true) : k = 0 := by
  have hk := lane_lt h
  rw [hm] at h
  revert h
  exact (by decide : ∀ k ∈ List.range 32, (1#32).getLsbD k = true → k = 0) k hk

/-- The state after an instruction. -/
def ran (i : Instr) (s : State) : State :=
  match exec i s with
  | .next t => t
  | _ => s

/-- The placed program with its page tables and 64 KiB of scratch; page 1 lies in host memory, page 2 is another frame;
the count of page 0's frame is 2, the ASID may share frames, and firmware has started (R355, R360, R362, R364, R386). -/
def paged : State :=
  let s := placeThreadWord State.reset 0xF800000D
  let s := writeN s .phys 0x50008 8 0x800000000027
  let s := writeN s .phys 0x50010 8 0x7000F
  let s := writeN s .phys 0x50018 8 0x80000
  let s := setAsidField s 0 393 393 1
  let s := modGrid s 0 fun g => { g with lrec := g.lrec ||| BitVec.ofNat 2048 (2 ^ 416) }
  { setCount s 0x60000 2 with cur := ⟨0, 0, 0, 8, 1, 0, 0⟩, agenda := [], passed := true }

/-- The same with the thread of lane 0 changed. -/
def pagedLane (f : Thread → Thread) : State :=
  modWarp paged 0 0 0 fun w => { w with th := w.th.mapIdx fun k t => if k = 0 then f t else t }

/-- Registers of lane 0. -/
def regs (l : List (Nat × Word)) : State := pagedLane fun t => l.foldl (fun t x => t.setReg x.1 x.2) t

/-- The bytes before the page of host memory. -/
def atHost : State := regs [(8, 0x10000)]

/-- R134 to R136, R144: a form of each space passes its checks at address 0, or at the start of the page in host memory. -/
theorem witness_AccessStarts :
    (∀ i ∈ ([Instr.ldg 0 4 8 0 6, .stg 0 4 8 0 1 4, .stg 15 4 8 1 0 0, .lds 0 4 8 0 1, .sts 0 4 8 0 0 3, .ldh 0 4 8 0 0,
      .sth 0 4 8 0 0 2, .atomg 0 4 8 1 0 1 9, .atoms 0 4 8 0 0 0, .atomh 0 4 8 1 0 12] : List Instr),
      Ready i paged (pathIn paged) ∧ ∃ f, Rules.rowAccess i = some f ∧
        (checkLane paged (pathIn paged) f.sp f.write f.size 0 (f.ea (pathIn paged) 0)).toOption.isSome = true) ∧
    (pathIn paged).any = true ∧ (pathIn paged).act = 1#32 ∧
    (∀ i ∈ ([Instr.ldsys 0 4 8 0 4, .stsys 0 4 8 0 2] : List Instr), Ready i atHost (pathIn atHost) ∧
      ∃ f, Rules.rowAccess i = some f ∧
        (checkLane atHost (pathIn atHost) f.sp f.write f.size 0 (f.ea (pathIn atHost) 0)).toOption.isSome = true) := by
  refine ⟨?_, by decide +kernel, by decide +kernel, ?_⟩
  · intro i hi
    refine ⟨ready_all (l := [Instr.ldg 0 4 8 0 6, .stg 0 4 8 0 1 4, .stg 15 4 8 1 0 0, .lds 0 4 8 0 1, .sts 0 4 8 0 0 3,
      .ldh 0 4 8 0 0, .sth 0 4 8 0 0 2, .atomg 0 4 8 1 0 1 9, .atoms 0 4 8 0 0 0, .atomh 0 4 8 1 0 12])
      (by decide +kernel) i hi, ?_⟩
    simp only [List.mem_cons, List.not_mem_nil, or_false] at hi
    rcases hi with rfl | rfl | rfl | rfl | rfl | rfl | rfl | rfl | rfl | rfl <;> exact ⟨_, rfl, by decide +kernel⟩
  · intro i hi
    refine ⟨ready_all (l := [Instr.ldsys 0 4 8 0 4, .stsys 0 4 8 0 2]) (by decide +kernel) i hi, ?_⟩
    simp only [List.mem_cons, List.not_mem_nil, or_false] at hi
    rcases hi with rfl | rfl <;> exact ⟨_, rfl, by decide +kernel⟩

theorem witness_MisalignedAccess : Ready (.stg 0 4 8 1 0 2) (regs [(8, 2)]) (pathIn (regs [(8, 2)])) ∧
    maskOf ((List.range 32).filter fun k => (pathIn (regs [(8, 2)])).act.getLsbD k &&
      decide ((Rules.aStore .global 4 8 0 2 true).ea (pathIn (regs [(8, 2)])) k % 4 ≠ 0)) ≠ 0#32 :=
  ⟨ready (by decide +kernel), by decide +kernel⟩

/-- R135, R136: the ends of the carve-out and of the window, and the members of its one neighbourhood. -/
theorem witness_LaneChecks : (pathIn paged).scratchBytes = 65536 * 2 ∧ (pathIn paged).grid.hoodSize = 1 ∧
    ((pathIn paged).grid.hoodOf ((pathIn paged).th 0).blk).isSome = true ∧
    (((pathIn paged).grid.hoodOf ((pathIn paged).th 0).blk).bind fun h => h.blocks[0]?).isSome = true ∧
    0x20000 % 4 = 0 ∧ 0x1FFFC + 4 ≤ 65536 * 2 ∧ 65536 * 2 < 0x20000 + 4 ∧ 2 ^ 52 % 4 = 0 := by decide +kernel

/-- What a pending access of lane 0 of an operation 1 meets. -/
def pendingOk (s : State) (kind : AccKind → Bool) : Bool :=
  match pendingAt s 1 0 with
  | none => false
  | some (o, a) => kind a.kind && enabled s o a && genCurrent s a.gen &&
      (match a.kind with | .store => decide (a.own.length = a.size) | _ => true) &&
      (readError s a.sp a.addr a.size a.kd o.asid).isNone && decide (a.kd = 0 ∧ a.size ≤ 16) && Memory.wf s.mem && (s.locals.all fun l => Memory.wf l.cells) &&
      decide (s.ops.length = 1)

/-- Loads, stores and atomics in flight, in device memory and through the window (R143, R265, R272). -/
theorem witness_AccessPerformed :
    pendingOk (ran (.ldg 0 4 8 0 5) paged) (fun k => match k with | .load 8 false => true | _ => false) = true ∧
    pendingOk (ran (.ldh 0 4 8 0 1) paged) (fun k => match k with | .load 1 true => true | _ => false) = true ∧
    pendingOk (ran (.stg 0 4 8 0 0 2) paged) (fun k => match k with | .store => true | _ => false) = true ∧
    pendingOk (ran (.stsys 0 4 8 0 2) atHost) (fun k => match k with | .store => true | _ => false) = true ∧
    pendingOk (ran (.sth 0 4 8 0 0 2) paged) (fun k => match k with | .store => true | _ => false) = true ∧
    pendingOk (ran (.atomg 0 4 8 1 0 0 0) paged) (fun k => match k with | .atomic 0 4 true => true | _ => false) = true ∧
    pendingOk (ran (.atomh 0 4 8 0 1 9) paged) (fun k => match k with | .atomic 9 8 false => true | _ => false) = true := by
  decide +kernel

/-- A divide in flight (R93). -/
theorem witness_Divisions : (∀ i ∈ ([Instr.div 2 4 8 0, .divu 0 4 8 0, .rem 0 4 8 0, .remu 15 4 8 0] : List Instr),
      Ready i base (pathIn base) ∧ Ready i disabled (pathIn disabled)) ∧
    (match opAt (ran (.div 2 4 8 0) base) 1 with
      | some o => match o.kind with
        | .divide res => decide (res.map (·.1) = [0])
        | _ => false
      | none => false) = true ∧
    ((ran (.div 2 4 8 0) base).cores.all fun c => c.warps.all fun w => (w.lane 0).owed.any fun e => e.op = 1 && !e.done) = true :=
  ⟨fun i hi => ⟨ready_all (l := [.div 2 4 8 0, .divu 0 4 8 0, .rem 0 4 8 0, .remu 15 4 8 0]) (by decide +kernel) i hi,
    ready_all (l := [.div 2 4 8 0, .divu 0 4 8 0, .rem 0 4 8 0, .remu 15 4 8 0]) (by decide +kernel) i hi⟩,
    by decide +kernel, by decide +kernel⟩

/-! #### Barriers -/

/-- Lane 4 runs beside lane 0 and has not arrived. -/
def two : State := modWarp base 0 0 0 fun w =>
  { w with th := w.th.mapIdx fun k t => if k = 4 then { w.lane 0 with pc := 8 } else t }

/-- The thread is a cutting. -/
def cut : State := withLane fun t => { t with cutting := true }

/-- A cooperative launch (R321). -/
def coop : State := modGrid base 0 fun g => { g with lrec := g.lrec ||| BitVec.ofNat 2048 (2 ^ 419) }

theorem witness_ThreadBarriers :
    (∀ i ∈ ([Instr.barw 0, .barb 0, .barc 0 1, .barg 0 3] : List Instr), Ready i base (pathIn base) ∧ Ready i two (pathIn two) ∧
      Ready i cut (pathIn cut) ∧ Ready i coop (pathIn coop)) ∧
    ((pathIn base).any = true ∧ (pathIn base).w.looping = false ∧ (pathIn base).grid.lrec.getLsbD 419 = false ∧
      (pathIn coop).grid.lrec.getLsbD 419 = true ∧ ((pathIn cut).th 0).cutting = true ∧
      (∀ j ∈ List.range 32, ((pathIn base).th j).running = true → (pathIn base).lanes.getLsbD j = true) ∧
      ((pathIn two).th 4).running = true ∧ ((pathIn two).th 4).arrived = [] ∧ (pathIn two).lanes.getLsbD 4 = false) := by
  refine ⟨fun i hi => ?_, by decide +kernel⟩
  have h : ∀ s, ([Instr.barw 0, .barb 0, .barc 0 1, .barg 0 3].all fun i => readyB i s) = true → Ready i s (pathIn s) :=
    fun s hs => ready_all hs i hi
  exact ⟨h _ (by decide +kernel), h _ (by decide +kernel), h _ (by decide +kernel), h _ (by decide +kernel)⟩

/-- A grid of two blocks of which one has arrived at counter 3 and the other, a default block beside it, has not. -/
def gridBar : State := modGrid (ran (.barg 0 3) (modWarp coop 0 0 0 fun w =>
    { w with th := w.th.mapIdx fun k t => if k = 4 then { w.lane 0 with blk := 1, pc := 8 } else t })) 0 fun g =>
  { g with hoods := g.hoods.map fun h => { h with blocks := h.blocks ++ [⟨1, .placed, 0, 0, 0, [], 0, true, false, []⟩] } }

theorem witness_GridBarrierArrival : (match gridAt gridBar 0 with
    | some g => match g.block 0 with
      | some b => g.lrec.getLsbD 419 && decide (b.st = .placed) && blockArrived gridBar g 0 3 && decide ((3, 0) ∉ g.barg) &&
          (g.hoods.flatMap (·.blocks)).any fun x => decide (x.st ≠ .retired) && decide (x.idx ≠ 0) && decide ((3, x.idx) ∉ g.barg)
      | none => false
    | none => false) = true := by decide +kernel

/-- A barrier of two arrivals at address 16 of scratch, and one whose reserved bits are set at 32. -/
def barriers (l : List (Nat × Word)) : State :=
  writeN (writeN (regs l) (.scratch 0 0) 16 16 (2 * 2 ^ 4 + 2 * 2 ^ 24)) (.scratch 0 0) 32 16 (2 ^ 88)

theorem witness_TransactionBarriers :
    ([16#32, 8#32, 0x20000#32, 32#32, 48#32].all fun x => [Instr.tbinit 0 4 8, .tbarr 0 4, .tbarrOne 0 4, .tbexp 0 4 8].all
      fun i => readyB i (barriers [(4, x), (8, 3)])) = true ∧
    readyB (.tbwait 0 4 8) (barriers [(4, 16), (8, 1)]) = true ∧
    (pathIn (barriers [(4, 16), (8, 3)])).v 0 4 = 16#32 ∧ (pathIn (barriers [(4, 16), (8, 3)])).scratchBytes = 0x20000 ∧
    (pathIn (barriers [(4, 16), (8, 3)])).any = true ∧
    ofBytes (readBytes (barriers [(4, 16), (8, 3)]) (.scratch 0 0) 16 16) = 2 * 2 ^ 4 + 2 * 2 ^ 24 ∧
    ofBytes (readBytes (barriers [(4, 16), (8, 3)]) (.scratch 0 0) 32 16) / 2 ^ 88 % 2 ^ 3 = 1 ∧
    clusterArmed (barriers [(4, 16), (8, 1)]) 0 0 = false ∧
    Memory.wf (barriers [(4, 16), (8, 3)]).mem = true ∧
    ((barriers [(4, 16), (8, 3)]).locals.all fun l => Memory.wf l.cells) = true := by decide +kernel

/-! #### Engines -/

/-- The placed program with registers of lane 0, format codes 7, 11 and 12 in format slots 0 to 2 and slot 0 owned. -/
def engines (l : List (Nat × Word)) : State :=
  let slots := BitVec.ofNat 2048 (7 * 2 ^ 1024 + 11 * 2 ^ 1152 + 12 * 2 ^ 1280)
  modKernel (modGrid (regs l) 0 fun g => { g with lrec := g.lrec ||| slots }) 0 0 0 fun k =>
    { k with owner := [(0, (pathIn paged).w.uid)] }

/-- A sound 64-byte record at a virtual address (R318, R403). -/
def descriptorB (s : State) (p : Path) (va d : Nat) : Bool :=
  match translate s p.grid.asid va false false (some false) with
  | .error _ => false
  | .ok tr => decide (va % 64 = 0) && decide (d = ofBytes (agentBytes s .phys tr.pa 64 tr.kd)) &&
      (readError s .phys tr.pa 64 tr.kd p.grid.asid).isNone && !(fwDenied s .phys tr.pa 64) &&
      !(clusterArmed s p.die (clusterOf p.pos))

theorem descriptor_of {s : State} {p : Path} {va d : Nat} (h : descriptorB s p va d = true) : Rules.descriptor s p va d := by
  unfold descriptorB at h
  split at h
  · cases h
  · rename_i tr ht
    simp only [Bool.and_eq_true, decide_eq_true_eq, Bool.not_eq_true', Option.isNone_iff_eq_none] at h
    exact ⟨h.1.1.1.1, tr, ht, h.1.1.1.2, h.1.1.2, h.1.2, h.2⟩

/-- A barrier at an address can be charged. -/
def chargeB (s : State) (ad : Nat) : Bool :=
  let b := ofBytes (readBytes s (pathIn s).scratch ad 16)
  decide (ad % 16 = 0 ∧ ad + 16 ≤ (pathIn s).scratchBytes ∧ b / 2 ^ 88 % 2 ^ 3 = 0 ∧ b / 2 ^ 92 % 2 ^ 36 = 0)

/-- Registers for copies: global address 0, local offset 16, barrier 0x100. -/
def copies : State := engines [(8, 16), (9, 0x100)]

theorem witness_CopyStarts : ([0#2, 1, 2, 3].all fun r => [0#1, 1].all fun n =>
      readyB (.cpy 0 4 8 n r 2) copies && decide (0 % 16 = 0 ∧ 16 % 16 = 0 ∧ 0 < 2 ^ 52)) = true ∧
    (pathIn copies).any = true ∧ (pathIn copies).act = 1#32 ∧
    ((pathIn copies).th 0).pair 4 = 0#64 ∧ (pathIn copies).v 0 8 = 16#32 ∧ Rules.r0 (pathIn copies) 8 1 = 0x100 ∧
    16 + 16 ≤ (pathIn copies).scratchBytes ∧ 16 + 16 ≤ (pathIn copies).kernel.wst * 4096 ∧ 0 < (pathIn copies).kernel.slots ∧
    16 + 16 ≤ 4096 * (pathIn copies).core.halves ∧
    (pathIn copies).kernel.owner.lookup 0 = some (pathIn copies).w.uid := by decide +kernel

/-- Registers for tensor copies: a record of zeros at virtual address 0x1000, a destination, barrier 0x100. -/
def tensors (dst : Word) : State := engines [(4, 0x1000), (8, dst), (9, 0x100)]

/-- The one-element tile of a record of zeros. -/
def tile : Tile := { rec_ := 0, base := 0, ext := [0, 0, 0, 0], c0 := 0, c1 := 0, c2 := 0, c3 := 0 }

theorem witness_TensorCopyStarts : (∀ dst ∈ ([0#32, 0x40000000, 0x80000000] : List Word),
      Rules.descriptor (tensors dst) (pathIn (tensors dst)) (Rules.p0 (pathIn (tensors dst)) 4 0) 0 ∧
      (readyB (.tld 0 4 8 0) (tensors dst) && readyB (.tst 0 4 8 0) (tensors dst) && chargeB (tensors dst) 0x100 &&
        (pathIn (tensors dst)).any) = true ∧ Rules.r0 (pathIn (tensors dst)) 8 0 / 2 ^ 20 % 2 ^ 10 = 0) ∧
    layoutBad 0 = false ∧ tile.base % tile.e = 0 ∧ 0 % tile.e = 0 ∧ 0 < tile.count ∧
    tile.count * tile.e ≤ (pathIn paged).scratchBytes ∧ tile.count * tile.e ≤ (pathIn paged).kernel.wst * 4096 ∧
    tile.count * tile.e ≤ 4096 * (pathIn paged).core.halves ∧
    (pathIn copies).w.old.lx.getD 0 0 = 0 ∧ ((pathIn copies).th 0).reg 10 = 0#32 := by
  refine ⟨fun dst h => ?_, by decide +kernel⟩
  simp only [List.mem_cons, List.not_mem_nil, or_false] at h
  rcases h with rfl | rfl | rfl <;> exact ⟨descriptor_of (by decide +kernel), by decide +kernel, by decide +kernel⟩

/-- Source 0, destination 0x100, 16 bytes, barrier 0x200, member 0. -/
def casts : State := regs [(5, 0x100), (6, 16), (7, 0x200), (8, 1)]

theorem witness_MulticastStarts : readyB (.mcast 0 4 8) casts = true ∧ (pathIn casts).any = true ∧
    (((pathIn casts).grid.hoodOf ((pathIn casts).th (pathIn casts).l0).blk).bind fun h => h.blocks[0]?).any
      (fun x => decide (x.st ≠ .retired)) = true ∧ (pathIn casts).grid.hoodSize = 1 ∧
    (List.range 24).filter (fun k => (Rules.r0 (pathIn casts) 8 0).testBit k) = [0] ∧ Rules.r0 (pathIn casts) 8 1 = 0 ∧
    Rules.r0 (pathIn casts) 4 0 = 0 ∧ Rules.r0 (pathIn casts) 4 1 = 0x100 ∧ Rules.r0 (pathIn casts) 4 2 = 16 ∧
    Rules.r0 (pathIn casts) 4 3 = 0x200 ∧ 0x210 ≤ (pathIn casts).scratchBytes := by decide +kernel

/-- Operands of `accst` (8 elements to 0, barrier 0x100), of `tdec` and `tdec.q` (one block, scales at 0x800) and of
`venc` (a group at 0 of the scratch, encoded to 0x800, counts at 0x900). -/
def stores : State := engines [(5, 0x100), (9, 8)]
def decodes : State := engines [(5, 0x800), (6, 1), (7, 0x100)]
def encodes : State := engines [(4, 0), (5, 0x800), (7, 0x1100), (8, 0x900)]

theorem witness_ConvertingEnginesStart :
    (readyB (.accst 0 4 8 0) stores = true ∧ (pathIn stores).any = true ∧ Rules.fmtOf (pathIn stores) 0 = 7 ∧
      Rules.r0 (pathIn stores) 4 0 = 0 ∧ Rules.r0 (pathIn stores) 4 1 = 0x100 ∧ Rules.r0 (pathIn stores) 8 0 = 0 ∧
      Rules.r0 (pathIn stores) 8 1 = 8 ∧ 4 * 8 ≤ (pathIn stores).kernel.acc * 4096 ∧
      8 * elemBytes 7 ≤ (pathIn stores).scratchBytes ∧ chargeB stores 0x100 = true) ∧
    ((([1#3, 2].all fun x => readyB (.tdecQ 0 4 x) decodes && readyB (.tdec 0 4 8 x) decodes &&
        decide ((Rules.blockOf (pathIn decodes) x.toNat).1 % (64 * ((pathIn decodes).core.halves / 2)) = 0)) = true) ∧
      (pathIn decodes).any = true ∧ Rules.fmtOf (pathIn decodes) 1 = 11 ∧ Rules.fmtOf (pathIn decodes) 2 = 12 ∧
      Rules.r0 (pathIn decodes) 4 0 = 0 ∧ Rules.r0 (pathIn decodes) 4 1 = 0x800 ∧ Rules.r0 (pathIn decodes) 4 2 = 1 ∧
      Rules.r0 (pathIn decodes) 4 3 = 0x100 ∧ Rules.r0 (pathIn decodes) 8 0 = 0 ∧
      0x800 + 8 ≤ (pathIn decodes).kernel.wst * 4096 ∧ (pathIn decodes).core.halves = 2 ∧ 256 * 2 ≤ 4096 * 2 ∧
      (pathIn decodes).kernel.owner.lookup 0 = some (pathIn decodes).w.uid ∧ chargeB decodes 0x100 = true) ∧
    (readyB (.venc 0 4 8 2) encodes = true ∧ (pathIn encodes).any = true ∧ Rules.r0 (pathIn encodes) 4 0 = 0 ∧
      Rules.r0 (pathIn encodes) 4 1 = 0x800 ∧ Rules.r0 (pathIn encodes) 4 2 = 0 ∧ Rules.r0 (pathIn encodes) 4 3 = 0x1100 ∧
      Rules.r0 (pathIn encodes) 8 0 = 0x900 ∧ (Rules.blockOf (pathIn encodes) 2).2.1 ≤ 56 ∧
      0x1110 ≤ (pathIn encodes).scratchBytes ∧ chargeB encodes 0x1100 = true) := by decide +kernel

/-- Operands of `twget`: block 0 with its scale at 0x800. -/
def weights : State := engines [(5, 0x800 + 3 * 2 ^ 24)]

theorem witness_LateReadsStart :
    ([0#3, 1, 2].all fun z => readyB (.accld 0 8 4 z) (engines [])) = true ∧ (pathIn (engines [])).any = true ∧
    (pathIn (engines [])).v 0 4 = 0#32 ∧ 16 ≤ (pathIn (engines [])).kernel.acc * 4096 ∧
    readyB (.twget 0 8 4 2) weights = true ∧ (pathIn weights).any = true ∧ (pathIn weights).act = 1#32 ∧
    ((pathIn weights).th 0).reg 5 = 0x3000800#32 ∧ (pathIn weights).v 0 4 = 0#32 ∧ Rules.fmtOf (pathIn weights) 2 = 12 ∧
    0x800 + 2 ≤ (pathIn weights).kernel.wst * 4096 := by decide +kernel

/-- An open window of one unit. -/
def windowed (s : State) : State := { s with fabwin := [(0, BitVec.ofNat 128 (2 ^ 127 + 2 ^ 126 + 2 ^ 125 + 2 ^ 64))] }

/-- Operands of `nput` and `nget`: 4 bytes at 0, barrier 0x100, remote offset 0, signal offset 8. -/
def remote : State := windowed (regs [(6, 4), (7, 0x100), (10, 8)])

/-- A collective of 4 elements at virtual address 0x1000, barrier 0x100. -/
def reducing : State := windowed (writeN (regs [(4, 0x1000), (8, 0x100)]) .phys 0x61000 64 (2 ^ 258))

theorem witness_FabricOperationsStart :
    (readyB (.nput 4 8 0) remote = true ∧ readyB (.nget 4 8 0) remote = true ∧ (pathIn remote).any = true ∧
      Rules.p0 (pathIn remote) 4 0 = 0 ∧ Rules.r0 (pathIn remote) 4 2 = 4 ∧ Rules.r0 (pathIn remote) 4 3 = 0x100 ∧
      Rules.p0 (pathIn remote) 8 0 = 0 ∧ Rules.p0 (pathIn remote) 8 2 = 8 ∧ (pathIn remote).grid.asid = 0 ∧
      (Rules.winOf remote 0).testBit 127 = true ∧ (Rules.winOf remote 0).testBit 126 = true ∧
      (Rules.winOf remote 0).testBit 125 = true ∧ Rules.winOf remote 0 / 2 ^ 112 % 2 ^ 12 = 0 ∧
      Rules.winOf remote 0 / 2 ^ 64 % 2 ^ 36 = 1 ∧ chargeB remote 0x100 = true) ∧
    (([Instr.ncoll 4 8 0, .nscmax 4 8 0, .nsum 4 8 0].all fun i => readyB i reducing) = true ∧ (pathIn reducing).any = true ∧
      collBad 3 (2 ^ 258) = false ∧ collBad 4 (2 ^ 258) = false ∧ collBad 5 (2 ^ 258) = false ∧
      Rules.r0 (pathIn reducing) 8 0 = 0x100 ∧ chargeB reducing 0x100 = true) ∧
    Rules.descriptor reducing (pathIn reducing) (Rules.p0 (pathIn reducing) 4 0) (2 ^ 258) :=
  ⟨by decide +kernel, by decide +kernel, descriptor_of (by decide +kernel)⟩

/-- A packet of an 8-byte transfer at virtual address 0x1000. -/
def transfers : State := writeN (regs [(4, 0x1000)]) .phys 0x61000 64 (4 + 2 ^ 135 + 2 ^ 195)

theorem witness_SignalsAndTransfersStart :
    (readyB (.sigadd 8 12) paged = true ∧ readyB (.sigst 8 12) paged = true ∧ (pathIn paged).any = true ∧
      Rules.p0 (pathIn paged) 8 0 = 0 ∧
      (translate paged (pathIn paged).grid.asid 0 true false (some false)).toOption.isSome = true) ∧
    (readyB (.dxfer 4) transfers = true ∧ (pathIn transfers).any = true) ∧
    Rules.descriptor transfers (pathIn transfers) (Rules.p0 (pathIn transfers) 4 0) (4 + 2 ^ 135 + 2 ^ 195) :=
  ⟨by decide +kernel, by decide +kernel, descriptor_of (by decide +kernel)⟩

/-! #### Tables, slots, spawns, matrix, frames -/

/-- A sound table header at 0 of the scratch (R121). -/
def headed : State := writeN paged (.scratch 0 0) 0 8 0x3F80000000000000

theorem witness_TableLoadAndSwitch : Ready .tblsw base (pathIn base) ∧ Ready .tblsw noTable (pathIn noTable) ∧
    Ready (.tblld 4) headed (pathIn headed) ∧
    (headerBad (readN headed (pathIn headed).scratch 0 64) = false ∧ (pathIn headed).v 0 4 = 0#32 ∧
      4160 ≤ (pathIn headed).scratchBytes ∧ (pathIn headed).any = true ∧ (pathIn headed).kernel.tbl = true) ∧
    ((ran (.tblld 4) headed).ops.map fun o => match o.kind with
      | .table l 0 b => decide (l = List.range 256) && b && decide (o.die = 0 ∧ o.pos = 0 ∧ o.kern = o.grid)
      | _ => false) = [true] ∧ Memory.wf headed.mem = true ∧ (headed.locals.all fun l => Memory.wf l.cells) = true :=
  ⟨ready (by decide +kernel), ready (by decide +kernel), ready (by decide +kernel), by decide +kernel, by decide +kernel,
    by decide +kernel, by decide +kernel⟩

/-- FP32 operands of `cvto`: a value, the threshold 1.0, the scale 1.0, the address 16. -/
def values (x : Word) : State := regs [(4, x), (8, 0x3F800000), (9, 0x3F80), (10, 16)]

/-- The one lane's value within the threshold, a NaN on the side list (R130). -/
theorem witness_ConvertToN4x : (([0x3F800000#32, 0x7FC00000].all fun x => readyB (.cvto 12 4 8 0 0) (values x) &&
      (pathIn (values x)).any && Memory.wf (values x).mem && (values x).locals.all fun l => Memory.wf l.cells) = true) ∧
    withinT (fp32.decode 0x3F800000) (fp32.decode 0x3F800000) = true ∧
    (quantise (1#32).getLsbD (fun k => if k = 0 then fp32.decode 0x7FC00000 else .fin false 0 0) (fp32.decode 0x3F800000)
      (bf16.decode 0x3F80)).side.length = 1 ∧
    (bf16.decode 0x3F80).isZero = false ∧ (bf16.decode 0x3F80).isInf = false ∧ (bf16.decode 0x3F80).isNan = false ∧
    16 + 4 ≤ (pathIn paged).scratchBytes := by decide +kernel

/-- Slot 0 owned by the warp, and by another one. -/
def owned (u : Nat) : State := modKernel base 0 0 0 fun k => { k with owner := [(0, u)] }

theorem witness_OperandSlots : ([base, owned (pathIn base).w.uid, owned 77].all fun s => (pathIn s).any &&
      ((pathIn s).core.kernelOf (pathIn s).grid.id).isSome &&
      [Instr.slotClaim 0 0, .slotRel 0 0, .slotClaim 0 1, .slotRel 0 1].all fun i => readyB i s) = true ∧
    (pathIn base).kernel.slots = 1 ∧ (pathIn base).kernel.owner = [] ∧ (pathIn base).w.uid ≠ 77 ∧
    (pathIn (owned (pathIn base).w.uid)).w.uid = (pathIn base).w.uid ∧ (pathIn (owned 77)).w.uid ≠ 77 := by decide +kernel

/-- A kernel without beds, and a bed of entry 0 with one cutting. -/
def bedless : State := modKernel base 0 0 0 fun k => { k with beds := 0 }
def bedded : State := ran (.spawn 4 8) base

theorem witness_SpawnFillsBeds : ([base, bedless, bedded, target 0x100, target 0x102, target 0x10000000000000].all fun s =>
      readyB (.spawn 4 8) s && (pathIn s).any) = true ∧
    (pathIn base).core.beds = [] ∧ (pathIn base).kernel.beds = 1 ∧ (pathIn bedless).kernel.beds = 0 ∧
    (pathIn bedded).core.beds.map (fun x => (x.grid, x.entry, x.cuttings.length)) = [(0, 0, 1)] ∧
    (pathIn bedded).grid.id = 0 ∧ ((pathIn bedded).th 0).pair 4 = 0#64 := by decide +kernel

/-- A descriptor of one k-step over slot 0. -/
def matrix : State := engines [(5, 16)]

/-- The `mma` with its first k-step under way, and before that k-step. -/
def stepping : State := ran (.mma 0 4 8 0 0) matrix
def multiplying : State := { stepping with ops := stepping.ops.map fun o => match o.kind with
  | .mma m => { o with kind := .mma { m with began := false } }
  | _ => o }

theorem witness_MatrixOperations : Ready (.mma 0 4 8 0 0) matrix (pathIn matrix) ∧ Ready (.mmack 0 4) multiplying (pathIn multiplying) ∧
    Ready (.mmackCut 0 4) multiplying (pathIn multiplying) ∧ Ready (.mmackCut 0 4) stepping (pathIn stepping) ∧
    Ready (.mmackCut 0 4) base (pathIn base) ∧ Ready (.mmack 0 4) base (pathIn base) ∧
    ((pathIn matrix).any = true ∧ (pathIn matrix).w.sh.gk = 0#64 ∧
      ((List.range 32).all fun k => !((pathIn matrix).th k).running || (pathIn matrix).lanes.getLsbD k) = true ∧
      ((mmaChecks (pathIn matrix) 0 ((pathIn matrix).grid.fslot 0) ((pathIn matrix).grid.fslot 0)
        (((pathIn matrix).th (pathIn matrix).l0).pair 4) (Rules.r0 (pathIn matrix) 8 0)).all fun c => !c.1) = true ∧
      (pathIn matrix).kernel.owner.lookup 0 = some (pathIn matrix).w.uid) ∧
    ([(multiplying, false), (stepping, true)].all fun x => (opAt x.1 (pathIn x.1).w.mmaOp).any (fun o => match o.kind with
      | .mma m => decide (m.began = x.2)
      | _ => false) && x.1.ops.all (fun o => decide (o.id < x.1.nextId))) = true ∧
    opAt base (pathIn base).w.mmaOp = none :=
  ⟨ready (by decide +kernel), ready (by decide +kernel), ready (by decide +kernel), ready (by decide +kernel),
    ready (by decide +kernel), ready (by decide +kernel), by decide +kernel, by decide +kernel, by decide +kernel⟩

/-- The ASID may share the frame at 0x60000; page 0 is shared to the unmapped page 3, or page 0 is given up. -/
def framed (l : List (Nat × Word)) : State := setAsidField (setAsidField (regs l) 0 255 192 0x70000) 0 191 128 0x60000

def sharing : State := framed [(8, 0x30000), (10, 1)]
def releasing : State := framed [(8, 1)]

theorem witness_FrameInstructions :
    (readyB (.pq 4 8) paged = true ∧ (match walk paged 0 0 with | .leaf 0 e ad => decide (e = 0x6000F ∧ ad = 0x50000) | _ => false) = true ∧
      readyB (.pq 4 8) (regs [(4, 0x30000)]) = true ∧
      (match walk paged 0 0x30000 with | .unmapped false false => true | _ => false) = true) ∧
    (readyB (.pshare 4 8) sharing = true ∧ readyB (.pshareRo 4 8) sharing = true ∧ (pathIn sharing).any = true ∧
      (asidEntry sharing 0).testBit 393 = true ∧ Rules.p0 (pathIn sharing) 4 0 = 0 ∧ Rules.p0 (pathIn sharing) 8 0 = 0x30000 ∧
      Rules.r0 (pathIn sharing) 8 2 = 1 ∧ (translate sharing 0 0 false false (some false)).toOption.isSome = true ∧
      (match walk sharing 0 0 with | .leaf 0 e ad => decide (e = 0x6000F ∧ ad = 0x50000) | _ => false) = true ∧
      frameShared sharing 0 0 = true ∧ entryOf sharing 0 0x30000 = some 0x50018 ∧
      (readN sharing .phys 0x50018 8).testBit 0 = false ∧ pageWaits sharing 0 0 true = false ∧
      countOf sharing 0x60000 = 2#16 ∧ fwDenied sharing .phys 0x50018 8 = false) ∧
    (readyB (.prel 4 8) releasing = true ∧ (pathIn releasing).any = true ∧ (asidEntry releasing 0).testBit 393 = true ∧
      Rules.r0 (pathIn releasing) 8 0 = 1 ∧ Rules.p0 (pathIn releasing) 4 0 = 0 ∧
      (match walk releasing 0 0 with | .leaf 0 e ad => decide (e = 0x6000F ∧ ad = 0x50000) | _ => false) = true ∧
      frameShared releasing 0 0 = true ∧ pageWaits releasing 0 0 false = false ∧ countOf releasing 0x60000 = 2#16) ∧
    (pathIn paged).grid.asid = 0 ∧ sharing.ops = [] ∧ sharing.contexts = [] ∧ Memory.wf sharing.mem = true ∧
    (sharing.locals.all fun l => Memory.wf l.cells) = true ∧ Memory.wf releasing.mem = true := by decide +kernel

/-- Scheduler core 0 of die 0 with registers x1 and x2. -/
def schedRegs (s : State) (a b : BitVec 64) : State :=
  let put := fun (c : Sched) => { c with x := (c.x.set 1 a).set 2 b }
  modDie s 0 fun d => { d with scheds := updAt 0 put d.scheds }

/-- Queue 0 is active with one packet in page 0, or empty; another descriptor is inactive. -/
def queued : State := writeN paged .phys (qdescAddr paged 0 0) 64 (2 ^ 238 + 2 ^ 128)
def emptied : State := writeN paged .phys (qdescAddr paged 0 0) 64 (2 ^ 238)

/-- A launch record at 0x100 of the local memory, its side table at virtual address 0x2000. -/
def dispatching : State :=
  let r := placedRecord.toNat + 0x2000 * 2 ^ 128 + (1 + 8 * 2 ^ 6) * 2 ^ 192
  schedRegs (writeN (writeN paged (.cpLocal 0) 0x100 256 r) .phys 0x62000 8 1) 0x100 0

/-- A journal of 4096 records. -/
def journaled : State := modDie paged 0 fun d => { d with journal := List.replicate 4096 (0, 0, 0) }

theorem witness_SchedulerCoreInstructions :
    (Rules.xr paged 1 = 0#64 ∧ Rules.xr (schedRegs paged 4096 0) 1 = 4096#64 ∧ qdesc paged 0 0 / 2 ^ 238 % 4 ≠ 1 ∧
      qdesc queued 0 0 = 2 ^ 238 + 2 ^ 128 ∧ qdesc emptied 0 0 = 2 ^ 238 ∧ paged.cur.die = 0 ∧
      (match translate queued 0 0 false false none with
        | .ok tr => !(isPoisoned queued .phys tr.pa 64) && !(tagMismatch queued .phys tr.pa 64 tr.kd)
        | .error _ => false) = true) ∧
    ((1#12).toNat % 2 ^ 6 + (1#12).toNat / 2 ^ 6 + 1 ≤ 64 ∧ 64 < (0xFFF#12).toNat % 2 ^ 6 + (0xFFF#12).toNat / 2 ^ 6 + 1) ∧
    (Rules.xr (schedRegs paged 4 0) 1 = 4#64 ∧ Rules.xr (schedRegs paged 0 1) 2 = 1#64 ∧
      (BitVec.ofNat 64 (readN paged .phys 0 8)).toInt = 0 ∧ Config.hbmEnd % 8 = 0 ∧ Config.hbmEnd < 2 ^ 64 ∧
      (Rules.sc paged).wait = none ∧ Rules.xr (schedRegs paged 0 1) 1 = 0#64) ∧
    (Rules.xr dispatching 1 = 0x100#64 ∧ launchCheck dispatching 0 0 (BitVec.ofNat 2048 (readN dispatching (.cpLocal 0) 0x100 256)) = 0 ∧
      launchCheck dispatching 0 0 0#2048 ≠ 0 ∧ readN dispatching (.cpLocal 0) 0 256 = 0) ∧
    ((dieOf paged 0).journal.length = 0 ∧ (dieOf journaled 0).journal.length = 4096) := by decide +kernel

/-! #### Registers of the package and of the dies -/

theorem witness_TrustRegisters : (State.reset.fwlock = false ∧ Rules.FirmwareRangeOk State.reset 0x1000000000000 ∧
      ¬Rules.FirmwareRangeOk State.reset 0 ∧ ¬Rules.FirmwareRangeOk State.reset 0x1000000BF8000) ∧
    (State.reset.featWritten.length = 4 ∧ State.reset.featacc.length = 4 ∧ State.reset.featWritten[3]? = some false ∧
      State.reset.passed = false ∧
      (ran (.feataccWrite 3 1) { State.reset with passed := true }).featWritten[3]? = some true) := by
  unfold Rules.FirmwareRangeOk
  decide +kernel

/-- The state that a meaning leaves. -/
def got (o : Host.Outcome State Fault Refusal) : State :=
  match o with
  | .next t => t
  | _ => State.reset

/-- The pool of ASID 0 has 64 places at 0x90000. -/
def pooled : State := setAsidField (setAsidField paged 0 319 256 0x90000) 0 327 320 6

/-- CLKIND asks for kind 1 on cluster 0. -/
def rebinding : State := got (execClkindWrite 0 1 State.reset)

/-- The watch of index 3 is on and holds nothing. -/
def watched : State := got (execConfwatchWrite 0 3 (2 ^ 127) State.reset)

theorem witness_HostControls :
    ((dieOf rebinding 0).clkind.getLsbD 31 = true ∧ Rules.kindChanges (dieOf rebinding 0) 0 ∧
      ((List.range 144).all fun q => (coreAt rebinding 0 q).warps.isEmpty && (coreAt rebinding 0 q).beds.isEmpty &&
        (coreAt rebinding 0 q).restore.isEmpty && (residents rebinding 0 q).isEmpty) = true) ∧
    State.reset.tlbBusy = false ∧
    (poolUsable pooled 0 = true ∧ poolUsable paged 0 = false ∧ asidEntry pooled 0 / 2 ^ 328 % 2 ^ 32 = 0 ∧
      pooled.asidtab = 0x10000 ∧ Memory.wf pooled.mem = true) ∧
    ((dieOf watched 0).watches.lookup 3).isSome = true ∧ (dieOf watched 0).watches.lookup 4 = none := by
  unfold Rules.kindChanges
  decide +kernel

/-- A user trap that goes to the host (R154), and the record it posts. -/
def debugging : State := modGrid base 0 fun g => { g with lrec := g.lrec ||| BitVec.ofNat 2048 (2 ^ 420) }
def trapped : State := ran (.trap 7) debugging

theorem witness_HostActions :
    (meetsReserved State.reset 0xBFFFFFFF0 4 = true ∧ meetsReserved State.reset 64 4 = false ∧
      movingEntries State.reset = [] ∧ isPoisoned State.reset .phys 64 4 = false ∧ tagMismatch State.reset .phys 64 4 0 = false ∧
      isPoisoned { State.reset with poison := [(.phys, 2)] } .phys 64 4 = true) ∧
    ([{ State.reset with unitKd := [(1, 3)] }, { State.reset with unitKd := [(1, 256)] }].all fun s => s.memcfg.getLsbD 0 &&
      foreign s (64 / 64) (keyId s 0) && !(foreign s (128 / 64) (keyId s 0)) && !(marked s (64 / 64)) && decide (s.rmwBad = []) && !(meetsReserved s 64 4) && !(fwDenied s .phys 64 4) && decide (movingEntries s = [])) = true ∧
    (parkedAt State.reset 0 5 = [] ∧ savedAt State.reset 0 5 = [] ∧
      (unitWaiting State.reset 0 5).isNone = true ∧ (updateWaiting State.reset 0 5).isNone = true) ∧
    ((parkedAt trapped 0 0).map (fun x => x.1.grid) = [0] ∧ (gridAt trapped 0).any (fun g => decide (g.ended = none) && !g.complete &&
      g.hoods.all fun h => h.blocks.all fun b => decide (b.st = .placed → g.block b.idx = some b)) = true) ∧
    ((List.range 4).all fun d => !(dieOf State.reset d).qdescWritten) = true := by decide +kernel

/-! #### Reset, boot, attestation, slices -/

/-- The cells of an image of bytes. -/
def imageCells : Nat → List Byte → List Host.Cell
  | _, [] => []
  | k, b :: l => if b = 0#8 then imageCells (k + 1) l else (k, b) :: imageCells (k + 1) l

theorem cellGet_imageCells (l : List Byte) (k a : Nat) :
    cellGet (imageCells k l) a = if a < k then 0#8 else l.getD (a - k) 0#8 := by
  induction l generalizing k with
  | nil => simp [imageCells, cellGet]
  | cons b l ih =>
    unfold imageCells
    rcases Nat.lt_trichotomy a k with h | h | h
    · have h' : a < k + 1 := by omega
      split <;> simp [cellGet, ih, h', Nat.ne_of_gt h]
    · subst h
      split <;> rename_i hb <;> simp [cellGet, ih, hb]
    · obtain ⟨i, rfl⟩ : ∃ i, a = k + 1 + i := ⟨a - (k + 1), by omega⟩
      have e2 : ¬ k + 1 + i < k + 1 := by omega
      have e3 : k + 1 + i - k = i + 1 := by omega
      have e4 : k + 1 + i - (k + 1) = i := by omega
      have e5 : k ≠ k + 1 + i := by omega
      have e6 : ¬ k + 1 + i < k := by omega
      have e7 : ¬ k + 1 + i ≤ k := by omega
      split <;> simp [cellGet, ih, e2, e3, e4, e5, e6, e7]

theorem map_getD {α : Type} (d : α) (l : List α) (n : Nat) : ∀ lo, lo + n ≤ l.length →
    (List.range n).map (fun i => l.getD (lo + i) d) = (l.drop lo).take n := by
  intro lo h
  apply List.ext_getElem
  · simp; omega
  · intro i h1 h2
    simp at h1
    simp [List.getD_eq_getElem?_getD, List.getElem?_eq_getElem (show lo + i < l.length by omega)]

/-- An image of an empty body under the modulus 2^3071 + 2291, signed by its private key. -/
def modulus : List Byte := toBytes 384 (0x80 + 0x8 * 2 ^ 3056 + 0xf3 * 2 ^ 3064)
def signature : List Byte := toBytes 384 (([0x60df65dc2b481af51c0e39cf55bac9b54de76731916a5fb2fef2f61a482e745ab5b9e222b28fc2cb351aa971358e35af,
    0x8e46c7ef07a48e28eb025494f2b39287dbc863fcbf4d5b09a424bb7c898ef28d9609c5baa5a4bb3ab60d74bfbad26a35,
    0x6b2a21bd4035581d211d7056755a07977e143f6ed04c529b5bf19a1a560d3cf8deee2d441584fc8a68539f890c235698,
    0xacecadd5c88147df9aeac8c2e7db6af6829f4227d77f45b8fef1da9618bac7bd3c893a24838232b101e7ccb7b9d7b468,
    0x9444f41cf2cd946bbf732706a5e8ab77576c650e291ffc6877d84b72c4caec63e5efc0fffa9d9c120b22818cb92c1d5d,
    0xf595d64a1f2efe7077dfb6c321eec16d226f76b69903e5736020f32f6462dfc1753475334df165a74e17de7752df0995,
    0x52afb63a9d7cd5b565b1e60a99ff736bfef7634010c18f97b2b295768f961a43ef1a5e5933c933fc37cdad5d5a3118e5,
    0xc33b4dc3d8cfc96ad55103c49c53fd7e8b7e183150b62f3ff76ce39e2fb2679312d1fd604d1f6ce0a7f733a7ac40ad36] : List Nat).foldl (fun n x => n * 2 ^ 384 + x) 0)
def image : List Byte := toBytes 4 0x4C474657 ++ List.replicate 124 0 ++ modulus ++ signature ++ List.replicate 128 0

/-- The image at the start of the locked range, and the digest of its key in the fuses. -/
def signed : State := { State.reset with
  mem := imageCells 0 image, ready := true, fwlock := true, fwrange := 0x1000000000000,
  fuseDigest := 0x810e8406f2f08647c9a8a8713b4c0578ffffe65aa12543a0fef8616fbecbb775 }

theorem imageField_signed (lo n : Nat) (h : lo + n ≤ 1024) :
    Rules.imageField signed lo n = (image.drop lo).take n := by
  have hl : image.length = 1024 := by decide +kernel
  have hr : ∀ a, readByte signed .phys a = image.getD a 0#8 := fun a => by
    show cellGet (imageCells 0 image) a = _
    rw [cellGet_imageCells, if_neg (Nat.not_lt_zero a), Nat.sub_zero]
  unfold Rules.imageField readBytes
  simp only [hr, show Rules.fld signed.fwrange 35 0 * 65536 + lo = lo by simp [signed, Rules.fld]]
  exact map_getD 0#8 image n lo (by omega)

theorem modulusDigest : ofBytes (sha256 modulus).reverse = signed.fuseDigest.toNat := by decide +kernel

theorem signatureVerifies : rsaVerifies modulus signature ((image.drop 0).take 512) = true := by decide +kernel

theorem witness_BootVerifies : signed.ready = true ∧ signed.fwlock = true ∧ signed.fwpass = [none, none, none, none] ∧ Rules.r379 signed = 0 := by
  refine ⟨rfl, rfl, rfl, ?_⟩
  have h1 : (image.drop 128).take 384 = modulus := by decide +kernel
  have h2 : (image.drop 512).take 384 = signature := by decide +kernel
  have h3 : ofBytes ((image.drop 4).take 4) = 0 := by decide +kernel
  unfold Rules.r379 Rules.imageSigned
  simp only [imageField_signed _ _ (show 0 + 4 ≤ 1024 by omega), imageField_signed _ _ (show 4 + 4 ≤ 1024 by omega), h3,
    imageField_signed _ _ (show 12 + 116 ≤ 1024 by omega), imageField_signed _ _ (show 896 + 128 ≤ 1024 by omega),
    imageField_signed _ _ (show 128 + 384 ≤ 1024 by omega), imageField_signed _ _ (show 512 + 384 ≤ 1024 by omega),
    imageField_signed _ _ (show 8 + 2 ≤ 1024 by omega), imageField_signed _ _ (show 0 + 512 ≤ 1024 by omega),
    imageField_signed _ _ (show 1024 + 0 ≤ 1024 by omega), h1, h2, modulusDigest, List.take_zero, List.append_nil, signatureVerifies]
  decide +kernel

theorem witness_BootRefuses : Rules.r379 { State.reset with ready := true, fwlock := true } = 1 := by decide +kernel

/-- A session whose signed measurements carried generation 0. -/
def released : State := { State.reset with passed := true, keys := [(3, 5)], spdm := ⟨true, true, true, false, true, some 0⟩ }

theorem witness_Attestation : released.spdm.algs = true ∧ released.spdm.session = true ∧ released.spdm.signedGen = some 0 ∧
    released.measgen = 0 ∧ released.passed = true ∧ released.keys.lookup 3 = some 5 ∧ foreign released 0 (keyId released 3) = true ∧
    foreign { released with unitKd := [(0, 3)] } 0 (keyId released 3) = false ∧ Rules.fld released.keypol 7 0 = 255 ∧ released.keypol.getLsbD 31 = false ∧
    Rules.rowSpdm .keyExchange ≠ none :=
  ⟨rfl, rfl, rfl, rfl, rfl, by decide, by decide, by decide, by decide, by decide, nofun⟩

/-- The slice of function 1 has passed while a queue of function 2 is active on die 0. -/
def sliced : State := modDie (writeN { base with activeVf := 1, ns := 20000000 } .phys 0 64 (2 ^ 238 + 2 * 2 ^ 228)) 0 fun d =>
  { d with qdescWritten := true }

theorem witness_WorldSwitch : sliced.sliceNs + Rules.fld sliced.vfslice 16 0 * 1000 ≤ sliced.ns ∧ nextVf sliced = 2 ∧
    State.reset.ns < State.reset.sliceNs + Rules.fld State.reset.vfslice 16 0 * 1000 ∧
    (sliced.grids.all fun g => decide (gridAt sliced g.id = some g) &&
      g.hoods.all fun h => decide (g.hoods.find? (fun y => y.idx = h.idx) = some h)) = true := by decide +kernel

/-! #### Queues, packets, scheduler cores -/

/-- Queue 0 of die 0 is active with one packet, which lies at virtual address 0. -/
def packet (p : Nat) : State := writeN (writeN paged .phys 0 64 (2 ^ 238 + 2 ^ 128)) .phys 0x60000 64 p

/-- The conditions of `Rules.PacketAt` for queue 0 of die 0. -/
def packetB (s : State) (kind p : Nat) : Bool :=
  let x := qdesc s 0 0
  let d := dieOf s 0
  decide (0 < s.dies.length) && Memory.wf s.mem && (s.locals.all fun l => Memory.wf l.cells) && startable s 0 0 &&
  (match translate s (Rules.dAsid x) (x % 2 ^ 64 + Rules.dRead x % Rules.dSize x * 64) false false none with
    | .error _ => false
    | .ok tr => !(isPoisoned s .phys tr.pa 64) && !(tagMismatch s .phys tr.pa 64 tr.kd) &&
      decide (ofBytes (agentBytes s .phys tr.pa 64 tr.kd) = p)) &&
  !(packetBad p) && decide (p % 16 = kind) && (d.packets.all fun k => decide (k.queue = 0 → k.idx ≠ Rules.dRead x)) &&
  d.updates.all fun u => decide (u.queue = 0 → u.pkt ≠ some (Rules.dRead x))

theorem packetAt_of {s : State} {kind p : Nat} (h : packetB s kind p = true) : Rules.PacketAt s 0 0 kind p := by
  unfold packetB at h
  simp only [Bool.and_eq_true, decide_eq_true_eq, List.all_eq_true, Bool.not_eq_true'] at h
  obtain ⟨⟨⟨⟨⟨⟨⟨⟨h1, h2⟩, h3⟩, h4⟩, h5⟩, h6⟩, h7⟩, h8⟩, h9⟩ := h
  refine ⟨h1, ⟨h2, h3⟩, h4, ?_, h6, h7, h8, h9⟩
  split at h5
  · cases h5
  · rename_i tr ht
    simp only [Bool.and_eq_true, decide_eq_true_eq, Bool.not_eq_true'] at h5
    exact ⟨tr, ht, h5.1.1, h5.1.2, h5.2⟩

/-- Packets: a signal of 7 at address 0x4000 and one without a signal, a transfer of 8 bytes and one of none. -/
def signalPacket : Nat := 3 + 0x4000 * 2 ^ 64 + 7 * 2 ^ 128
def transferPacket (n : Nat) : Nat := 4 + 0x1000 * 2 ^ 128 + n * 2 ^ 192 + 0x4000 * 2 ^ 256

/-- A dispatch of the record at address 0x3000, with a signal; its record, with its side table at 0x2000. -/
def dispatchPacket : Nat := 1 + 0x3000 * 2 ^ 64 + 0x4000 * 2 ^ 128
def launching (r : Nat) : State :=
  writeN (writeN (packet dispatchPacket) .phys 0x63000 256 r) .phys 0x62000 8 1

/-- A barrier on the signal at 0x4000 with the value there. -/
def barrierPacket : Nat := 2 + 0x4000 * 2 ^ 64 + 0x5000 * 2 ^ 384
def waitingOn (v : Nat) : State := writeN (packet barrierPacket) .phys 0x64000 8 v

theorem witness_PacketsAt : (∀ p ∈ ([signalPacket, 3] : List Nat), Rules.PacketAt (packet p) 0 0 3 p) ∧
    (∀ p ∈ ([transferPacket 0, transferPacket 8, 4 + 0x1000 * 2 ^ 128] : List Nat), Rules.PacketAt (packet p) 0 0 4 p) ∧
    Rules.PacketAt (launching 0) 0 0 1 dispatchPacket ∧
    (∀ v ∈ ([0, 1, 2 ^ 64 - 1] : List Nat), Rules.PacketAt (waitingOn v) 0 0 2 barrierPacket) := by
  refine ⟨fun p h => ?_, fun p h => ?_, packetAt_of (by decide +kernel), fun p h => ?_⟩ <;>
    simp only [List.mem_cons, List.not_mem_nil, or_false] at h
  · rcases h with rfl | rfl <;> exact packetAt_of (by decide +kernel)
  · rcases h with rfl | rfl | rfl <;> exact packetAt_of (by decide +kernel)
  · rcases h with rfl | rfl | rfl <;> exact packetAt_of (by decide +kernel)

/-- A record that passes its checks, and one that does not. -/
def goodRecord : Nat := placedRecord.toNat + 0x2000 * 2 ^ 128 + (1 + 8 * 2 ^ 6) * 2 ^ 192

/-- What reading a record gives. -/
def recordIs (s : State) (r : Nat) : Bool :=
  match readRecord s 0 0x3000 with
  | .ok x => decide (x = BitVec.ofNat 2048 r)
  | .error _ => false

/-- The value of a signal. -/
def signalIs (s : State) (v : Int) : Bool :=
  (match readSignal s 0 0x4000 with
  | .ok x => decide (x = v)
  | .error _ => false) &&
  match translate s 0 0x4000 false false (some false) with
  | .ok tr => !(tagMismatch s .phys tr.pa 8 tr.kd)
  | .error _ => false

/-- The waiting barrier packet, and the same notified or 1 ms later. -/
def waitingBarrier : State := got (execPacketBarrier 0 0 (waitingOn 1))
def notified : State := got (execSignotifyWrite 0 0 waitingBarrier)

theorem witness_Packets :
    (recordIs (launching goodRecord) goodRecord = true ∧ launchCheck (launching goodRecord) 0 0 (BitVec.ofNat 2048 goodRecord) = 0 ∧
      packetB (launching goodRecord) 1 dispatchPacket = true ∧ recordIs (launching 0) 0 = true ∧
      launchCheck (launching 0) 0 0 0 = 2 ∧ (launchNotes (launching 0) 0 0 0).mem = (launching 0).mem ∧ Rules.dState (qdesc (launching 0) 0 0) = 1) ∧
    (signalIs (waitingOn 0) 0 = true ∧ signalIs (waitingOn 1) 1 = true ∧ signalIs (waitingOn (2 ^ 64 - 1)) (-1) = true) ∧
    (((dieOf waitingBarrier 0).packets.map fun k => (k.queue, k.kind, k.rereads, k.lastRead)) = [(0, 2, false, 0)] ∧
      ((dieOf notified 0).packets.map fun k => (k.queue, k.kind, k.rereads)) = [(0, 2, true)] ∧ waitingBarrier.ns = 0 ∧
      (dieOf waitingBarrier 0).updates = [] ∧ Memory.wf waitingBarrier.mem = true) := by decide +kernel

/-- The owed update of a signal packet, to a mapped page and to one that is not. -/
def owing (p : Nat) : State := got (execPacketSignal 0 0 (packet p))

theorem witness_SignalUpdates :
    ([signalPacket, 3 + 0x30000 * 2 ^ 64].all fun p => ((dieOf (owing p) 0).updates.map fun u =>
      decide (u.seq = none ∧ u.grid = none ∧ u.own = true)) == [true] && Memory.wf (owing p).mem) = true ∧
    (translate (owing signalPacket) 0 0x4000 true false (some false)).toOption.isSome = true ∧
    (match translate (owing (3 + 0x30000 * 2 ^ 64)) 0 0x30000 true false (some false) with
      | .error d => decide (d.cls ≠ 7)
      | .ok _ => false) = true ∧ Rules.dState (qdesc (owing (3 + 0x30000 * 2 ^ 64)) 0 0) = 1 := by decide +kernel

/-- Features and the descriptor base were written; the queue is in state 0 (R325). -/
def configured : State := modDie { paged with featWritten := [true, false, false, false] } 0 fun d => { d with qdescWritten := true }

/-- The reset of queue 1, which has no grid, and of queue 0, whose grid ends. -/
def resettingQueue : State := got (execQueueReset 0 1 paged)

theorem witness_QueueControl :
    (Rules.dState (qdesc (packet 0) 0 0) = 1 ∧ Rules.dState (qdesc paged 0 0) = 0 ∧ Rules.dWrite (qdesc (packet 0) 0 0) = 1 ∧
      Rules.dRead (qdesc (packet 0) 0 0) + Rules.dSize (qdesc (packet 0) 0 0) = 1 ∧ Memory.wf (packet 0).mem = true) ∧
    ((dieOf configured 0).qctl.getLsbD 31 = false ∧ Rules.dState (qdesc configured 0 0) = 0 ∧
      (dieOf configured 0).qdescWritten = true ∧ configured.featWritten.getD 0 false = true) ∧
    ((dieOf paged 0).qctl.getLsbD 31 = false ∧ (dieOf resettingQueue 0).qctl.getLsbD 31 = true ∧
      (paged.grids.map fun g => (g.id, g.die, g.queue, g.ended, g.complete)) = [(0, 0, 0, none, false)] ∧
      (gridAt paged 0).isSome = true) ∧
    ((dieOf resettingQueue 0).resetting = [1] ∧ (dieOf resettingQueue 0).packets = [] ∧ (dieOf resettingQueue 0).updates = [] ∧
      resettingQueue.grids.all (fun g => decide (g.queue ≠ 1)) = true ∧ Memory.wf resettingQueue.mem = true) := by decide +kernel

/-- Core 2 of die 0 failed, with and without a standby (R307). -/
def failed : State := got (execSchedulerCoreFailed 0 2 State.reset)
def standing : State := modDie State.reset 0 fun d => { d with cpstat := d.cpstat &&& 0xBFFFFFFF#32 }

/-- Core 0 waits since time 0, and 4 ms have passed. -/
def waiting (ns : Nat) : State :=
  let put := fun (c : Sched) => { c with wait := some (5, 0, 0, 0) }
  modDie { State.reset with ns := ns } 0 fun d => { d with scheds := updAt 0 put d.scheds }

theorem witness_SchedulerFailures :
    (((dieOf State.reset 0).scheds.getD 2 Sched.reset).failed = false ∧ (dieOf State.reset 0).cpstat.getLsbD 30 = true ∧
      (dieOf standing 0).cpstat.getLsbD 30 = false ∧ ((dieOf standing 0).scheds.getD 2 Sched.reset).failed = false ∧
      ((dieOf failed 0).scheds.map fun c => c.failed) = [false, false, true, false, false] ∧
      (dieOf failed 0).cpstat.getLsbD 30 = true ∧ (dieOf State.reset 0).scheds.length = 5) ∧
    ([0, 4000000].all fun ns => decide ((Rules.sc (waiting ns)).wait = some (5, 0, 0, 0))) = true ∧
    (0 * 6 + 4096 * 5 ≤ 4000000 * 6 ∧ 0 * 6 < 0 * 6 + 4096 * 5) := by decide +kernel

/-! #### What engine operations do -/

/-- A unit of one run of the operation 1 that may move (`Rules.UnitGoes`). -/
def unitGoesB (s : State) (tag recv : Nat) : Bool :=
  match unitAt s 1 tag recv with
  | none => false
  | some (o', u) => let o := o'.forLane (if recv = 0 then tag else o'.l0)
    !(unitHeld s o' u) && o.here s && u.err.isNone && u.seq.isNone && u.out.isNone && decide (o.die < s.dies.length) &&
    Memory.wf s.mem && (s.locals.all fun l => Memory.wf l.cells) &&
    match resolveSegs s o u.segs with
    | .ok [⟨some (sp, a, kd, _), some (dp, b, kd', _, _), n⟩] =>
      !(isPoisoned s sp a n) && decide (kd' = 0) && !(tagMismatch s sp a n kd) && !(fwDenied s dp b n)
    | _ => false

/-- A tensor of one element at address 0. -/
def oneElement : State := modWarp (tensors 0) 0 0 0 fun w =>
  let sh := { w.sh with lx := w.sh.lx.set 0 (2 ^ 64 + 2 ^ 96 + 2 ^ 128 + 2 ^ 160) }
  { w with sh := sh, old := sh }

/-- The receiver's generation changed after the multicast began. -/
def casting : State := ran (.mcast 0 4 8) casts
def outdated : State := modCore casting 0 0 fun c => { c with gen := c.gen + 1 }

theorem witness_CopiesAndTransfersMove :
    (unitGoesB (ran (.cpy 0 4 8 0 0 2) copies) 0 0 = true ∧ unitGoesB (ran (.tld 0 4 8 0) oneElement) 0 1 = true ∧
      unitGoesB (ran (.dxfer 4) transfers) 0 0 = true) ∧
    ([(casting, true), (outdated, false)].all fun x =>
      let s := x.1
      match unitAt s 1 0 0 with
      | some (o, u) => (match o.kind with | .mcast _ => true | _ => false) &&
        (match u.segs with | [⟨some (.at sp a), some (.at dp _), 16⟩] => decide (sp ≠ .phys ∧ dp ≠ .phys) && !(isPoisoned s sp a 16) | _ => false) &&
        u.gen.any fun g => decide (decide ((coreAt s g.1 g.2.1).gen = g.2.2) = x.2)
      | none => false) = true ∧
    (match (ran (.sigadd 8 12) paged).ops with
      | [o] => (match o.kind with
        | .signal a true => laneAccessesDone (ran (.sigadd 8 12) paged) o && decide (a.sp = .phys ∧ a.kd = 0) &&
            !(fwDenied (ran (.sigadd 8 12) paged) .phys a.addr 8)
        | _ => false)
      | _ => false) = true := by decide +kernel

/-- Two k-steps, and 65,536 cycles after the first began. -/
def twoSteps : State := ran (.mma 0 4 8 0 0) (engines [(5, 32)])
def hung : State := modDie twoSteps 0 fun d => { d with cycles := 65536 }

/-- The k-step of a state goes (`Rules.KStepGoes`); whether it is the last. -/
def kstepB (s : State) (last : Bool) : Bool :=
  match s.ops with
  | [o] => match o.kind with
    | .mma m => m.began && !m.cut && !m.clr && decide (m.early = [] ∧ m.tile = none ∧ m.out = [] ∧ m.cleared = []) && o.here s && Memory.wf s.mem && (s.locals.all fun l => Memory.wf l.cells) &&
      !(kstepPoisoned s o m (mmaRows m.desc) (mmaCols m.desc (coreAt s o.die o.pos).halves)) &&
      decide (decide (m.next + 1 = mmaK m.desc / 16) = last) && decide (m.members.length = 1) &&
      (m.members.all fun x => (warpOfUid s x.1).any fun y => decide (y.2.faults.length < 8 ∧ y.2.mmaOp = o.id ∧
        y.1.die = o.die ∧ y.1.pos = o.pos) && (gridAt s y.2.grid).isSome)
    | _ => false
  | _ => false

theorem witness_MatrixSteps : kstepB stepping true = true ∧ kstepB twoSteps false = true ∧ kstepB hung false = true ∧
    ([twoSteps, hung].all fun s => s.ops.all fun o => match o.kind with | .mma m => decide (m.readyAt = 0) | _ => false) = true ∧
    (dieOf hung 0).cycles = 65536 ∧ (dieOf twoSteps 0).cycles = 0 ∧
    ((ran (.mma 0 4 8 3 0) (engines [(4, 0x6000), (5, 16)])).ops.any fun o => match o.kind with
      | .mma m => m.int && decide (m.fn = 0) && !(mmaBq m.desc)
      | _ => false) = true ∧
    (stepping.ops.any fun o => match o.kind with
      | .mma m => !m.int && decide (m.fn = 0) && !(mmaBq m.desc)
      | _ => false) = true := by decide +kernel

/-- A late access of lane 0 of the operation 1. -/
def lateB (s : State) (kind : AccKind → Bool) : Bool :=
  match pendingAt s 1 0 with
  | none => false
  | some (o, a) => kind a.kind && mmasBefore s o && enabled s o a && !(isPoisoned s a.sp a.addr a.size) && decide (s.ops.length = 1) &&
    match a.kind with
    | .weight f _ sc => ((List.range (espBits (fsShift f) / 8)).all fun b => !(isPoisoned s a.sp (a.addr + b) 1)) &&
        !(isPoisoned s a.sp sc 2)
    | _ => true

theorem witness_ConvertingEnginesMove :
    (lateB (ran (.accld 0 8 4 2) (engines [])) (fun k => match k with | .accum => true | _ => false) = true ∧
      lateB (ran (.twget 0 8 4 2) weights) (fun k => match k with | .weight _ 3 _ => true | _ => false) = true) ∧
    (match (ran (.accst 0 4 8 0) stores).ops with
      | [o] => (match o.kind with
        | .accst x l => mmasBefore (ran (.accst 0 4 8 0) stores) o && afterDone (ran (.accst 0 4 8 0) stores) o.after &&
            o.here (ran (.accst 0 4 8 0) stores) && decide (l = [0] ∧ x.n = 8 ∧ x.dst = 0 ∧ x.early = [])
        | _ => false)
      | _ => false) = true ∧
    (match (ran (.tdec 0 4 8 1) decodes).ops with
      | [o] => (match o.kind with
        | .tdec w l => !(slotBusy (ran (.tdec 0 4 8 1) decodes) o w.slot) && afterDone (ran (.tdec 0 4 8 1) decodes) o.after &&
            o.here (ran (.tdec 0 4 8 1) decodes) && decide (l = [0, 1, 2, 3] ∧ w.offset = 0 ∧ w.early = []) &&
            !(w.poisoned (ran (.tdec 0 4 8 1) decodes) o.weights (List.range 16))
        | _ => false)
      | _ => false) = true ∧
    (match (ran (.tdecQ 0 4 1) decodes).ops with
      | [o] => (match o.kind with
        | .tdecQ w 0 1 => queueFree (ran (.tdecQ 0 4 1) decodes) o w.gang && afterDone (ran (.tdecQ 0 4 1) decodes) o.after &&
            !(w.poisoned (ran (.tdecQ 0 4 1) decodes) o.weights (List.range 64))
        | _ => false)
      | _ => false) = true ∧
    (match (ran (.venc 0 4 8 2) encodes).ops with
      | [o] => (match o.kind with
        | .venc v 0 => afterDone (ran (.venc 0 4 8 2) encodes) o.after && o.here (ran (.venc 0 4 8 2) encodes) &&
            decide (v.targets = 0 ∧ v.nb = 1 ∧ v.dest = 0x800 ∧ v.errs = 0x900 ∧ v.sol = none ∧ v.out = [] ∧ v.done = [] ∧ v.toWeight = false ∧
              v.q ≤ fsWin v.fmt ∧ v.dest + v.nb * (espBits (fsShift v.fmt) / 8) ≤ v.errs ∧ v.errs + 4 * v.nb ≤ 0x1100) && decide (o.bar = some 0x1100)
        | _ => false)
      | _ => false) = true ∧
    ((List.range 256).all fun j => let x := bf16.decode (readN (ran (.venc 0 4 8 2) encodes) (.scratch 0 0) (2 * j) 2); !x.isNan && !x.isInf) = true := by
  decide +kernel

/-! #### Scheduling, beds, watchdogs, debug -/

/-- The cycle count of die 0. -/
def atCycle (n : Nat) (s : State) : State := modDie s 0 fun d => { d with cycles := n }

/-- A hold that began at cycle 0. -/
def held : State := withLane fun t => { t with wait := .fuse 0 }

/-- Three paths of the warp group. -/
def three : List Cand := [⟨8, 0, 1⟩, ⟨8, 4, 2⟩, ⟨8, 8, 4⟩]

theorem witness_Scheduling :
    ((coreAt held 0 0).warpAt 0).any (fun w => w.fusing 0 0 && decide (w.th.length = 32) && w.sh.loops.all fun l => !l.active) = true ∧
    (dieOf (atCycle 64 held) 0).cycles = 64 ∧ (dieOf held 0).cycles = 0 ∧
    ((coreAt base 0 0).kind ≠ 3 ∧ 1 < (coreAt base 0 0).halves ∧ issueClosed base 0 0 = false ∧
      (coreAt base 0 0).decided = [] ∧ ((coreAt base 0 0).warps.all fun w => !w.stopReq) = true ∧
      ((coreAt base 0 0).warps.map fun w => w.slot) = [0] ∧
      ((coreAt base 0 0).warpAt 0).any (fun w => decide (freeLanes
        (modCore base 0 0 fun c => { c with decided := assign c.decided 0 (dieOf base 0).cycles }) 0 0 w ≠ 0#32)) = true ∧
      0 % (coreAt base 0 0).halves = 0) ∧
    ((pathIn base).w.chosen (fun _ => (true, false)) [] three).length = 2 ∧ three.length = 3 := by decide +kernel

/-- The bed of a kernel with room for more warps; its timer is 0, or 100 cycles. -/
def roomy : State := modKernel bedded 0 0 0 fun k => { k with warps := 4, regs := 32 }
def timed : State := modGrid roomy 0 fun g => { g with lrec := g.lrec ||| BitVec.ofNat 2048 (100 * 2 ^ 432) }

/-- The core runs in service mode with a watchdog at 0. -/
def watchdog : State := modCore (modWarp base 0 0 0 fun w => { w with wdog := 0, wdFired := false }) 0 0 fun c => { c with service := true }

/-- The parked path of a user trap after the host's reply; and with a ring of 16 units at 0x100000. -/
def replied : State := got (execFaultreplyResume 0 0 trapped)
def ringed : State := modDie trapped 0 fun d => { d with fault := { d.fault with base := 0x100004 } }

theorem witness_BedsWatchdogsReplays :
    ([roomy, timed, bedded].all fun s => ((coreAt s 0 0).beds[0]?).any fun b => (gridAt s b.grid).isSome &&
      ((coreAt s 0 0).kernelOf b.grid).isSome && decide (b.cuttings.length = 1 ∧ b.opened = 0)) = true ∧
    (((coreAt roomy 0 0).beds[0]?).any fun b => ((coreAt roomy 0 0).kernelOf b.grid).any fun k =>
      decide ((coreAt roomy 0 0).freeSlots ≠ [] ∧ (coreAt roomy 0 0).warpsOf b.grid < k.warps) &&
        (gridAt roomy b.grid).any fun g => (coreAt roomy 0 0).roomFor k g 1) = true ∧
    clusterChanging roomy 0 (clusterOf 0) = false ∧ (coreAt bedded 0 0).warpsOf 0 = 1 ∧
    (((coreAt watchdog 0 0).warpAt 0).any fun w => decide (w.wdog = 0#32 ∧ w.wdFired = false ∧ w.faults = []) &&
      (gridAt watchdog w.grid).isSome) = true ∧ (coreAt watchdog 0 0).service = true ∧
    clusterArmed watchdog 0 (clusterOf 0) = false ∧ (coreAt base 0 0).service = false ∧
    ([(trapped, false), (replied, true)].all fun x => ((coreAt x.1 0 0).warpAt 0).any fun w => !w.stopReq &&
      (w.faults[0]?).any fun f => decide (f.ready = x.2 ∧ f.held = false ∧ Rules.fld f.bits 195 192 = 10) &&
        (w.lane 0).owed.isEmpty && (gridAt x.1 w.grid).isSome) = true ∧ clusterStopped replied 0 (clusterOf 0) = false ∧
    ((dieOf trapped 0).fault.waiting.map (·.length) = [64] ∧ baseUsable (dieOf trapped 0).fault.base 64 = false ∧
      baseUsable (dieOf ringed 0).fault.base 64 = true ∧ (dieOf ringed 0).fault.waiting.map (·.length) = [64] ∧
      (dieOf ringed 0).fault.prod.toNat + 1 ≤ (dieOf ringed 0).fault.cons.toNat + 2 ^ 4 ∧ Memory.wf ringed.mem = true) := by
  decide +kernel

/-- Cluster 0 is stopping, and it has stopped. -/
def stopping : State := modCluster base 0 0 fun c => { c with stopping := some 0 }
def stopped : State := got (execClusterStopped 0 0 stopping)

/-- DBGACC values: an access to an item of lane 0 of warp slot 0. -/
def item (n : Nat) : BitVec 64 := BitVec.ofNat 64 (2 ^ 63 + n * 2 ^ 36 + 7)

theorem witness_DebugController :
    ((clusterAt stopping 0 0).stopping = some 0 ∧ (clusterAt stopping 0 0).dbgctl.getLsbD 30 = false ∧
      (clusterAt stopped 0 0).dbgctl.getLsbD 30 = true ∧ (clusterAt stopped 0 0).held = [] ∧ (dieOf stopped 0).clusters.length = 6 ∧
      (clusterAt base 0 0).stopping = none ∧ posOfLocal 0 0 = 0) ∧
    ((List.range 24).all fun k => (coreAt stopped 0 (posOfLocal 0 k)).warps.all fun w => w.faults.isEmpty &&
      decide ((coreAt stopped 0 (posOfLocal 0 k)).warpAt w.slot = some w)) = true ∧
    ((0x38000000#32).getLsbD 28 = true ∧ (0x38000000#32).getLsbD 27 = true ∧ Rules.fld (0x38000000#32) 20 16 = 0 ∧
      ((coreAt stopped 0 0).warpAt 0).any (fun w => (freeLanes (modCluster stopped 0 0 fun c =>
        { c with dbgctl := Rules.r278 stopped 0 0 c.dbgctl 0x38000000 }) 0 0 w.splitDue).getLsbD 0 &&
        !((freeLanes stopped 0 0 w.splitDue).getLsbD 5) && decide (w.splitDue.groupOf 5 = w.groupOf 0) &&
        decide (w.th.length = 32 ∧ w.sh.s.length = 64) && (List.range 32).all fun k => decide ((w.lane k).life = .live → (w.lane k).g.length = 15)) = true) ∧
    ([0, 111, 112, 127, 128, 129, 130, 131, 195].all fun n => (Rules.accessed stopped 0 0 (item n)).isSome) = true ∧
    ([196, 255].all fun n => (Rules.accessed stopped 0 0 (item n)).isNone) = true ∧
    (Rules.accessed base 0 0 (item 0)).isNone = true ∧ (item 0).getLsbD 63 = true := by decide +kernel

/-! #### Placement, saves, flushes -/

/-- The neighbourhood of the placed program's grid changed. -/
def withHood (s : State) (f : Hood → Hood) : State :=
  modGrid s 0 fun g => { g with hoods := g.hoods.map f }

/-- A grid was launched, and its one neighbourhood waits to be placed; no core is enabled for it in the second. -/
def launched : State := setCore (got (execPacketDispatch 0 0 (launching goodRecord)))
  { placedCore 0 with pos := 1, warps := [], kernels := [] }
def crowded : State := { launched with cores := [] }

/-- The conditions of a placement round for the grid that was launched. -/
def roundB (s : State) (fit : Bool) : Bool :=
  match readyList s 0 with
  | [r] => r.ctx.isNone && decide (gridAt s r.grid.id = some r.grid ∧ (Rules.hoodAt s r.grid.id r.hood.idx) = some r.hood ∧
      r.hood.st = .ready ∧ r.grid.coop = false ∧ r.hood.starving = [] ∧ Rules.fld r.grid.lrec 479 448 = 0) &&
    decide ((dieOf s 0).resvFor = []) && decide (r.hood.blocks.length = 1 ∧ 0 < s.dies.length) && (r.hood.blocks.all fun b => decide (b.st = .waiting)) &&
    let good := fun (ps : List Nat) => ps.all fun p => admits s 0 p r.grid r.grid.warpsPerBlock && !(reservedFor s 0 p r.grid.id r.hood.idx)
    decide (((allRects r.grid.kind r.grid.cols r.grid.rows).any good) = fit) &&
    ((allRects r.grid.kind r.grid.cols r.grid.rows).find? good).all fun ps => decide (ps.Nodup ∧ ps.length = 1) &&
      ps.all fun p => decide (r.grid.warpsPerBlock ≤ (coreAt s 0 p).freeSlots.length)
  | _ => false

theorem witness_PlacementRounds : roundB launched true = true ∧ roundB crowded false = true := by decide +kernel

/-- The waiting neighbourhood was skipped at cycle 0, and 21,000,000 cycles have passed. -/
def skipped : State := { crowded with grids := crowded.grids.map fun g => { g with hoods := g.hoods.map fun h => { h with skipSince := [(0, 0)] } } }
def starved : State := atCycle 21000000 skipped

theorem witness_Starvation : (([starved, skipped].all fun s =>
      (gridAt s 1).any fun g => (Rules.hoodAt s 1 0).any fun h =>
        decide (((readyList s 0).find? fun r => decide (r.grid.id = 1 ∧ r.hood.idx = 0)) = some ⟨g, h, none⟩) &&
        decide (h.skipSince.lookup 0 = some 0 ∧ h.starving = [])) = true) ∧
    (dieOf starved 0).cycles = 21000000 ∧ (dieOf skipped 0).cycles = 0 := by decide +kernel

/-- A cutting waits on the restore list for a bed: there is room, or there is none. -/
def restoring (s : State) : State := modCore s 0 0 fun c => { c with restore := [⟨[0, 0, 0, 0], 16, 0, 0, 0, 0, 0, []⟩] }

theorem witness_RestoreLists : ([(restoring base, true), (restoring bedless, false)].all fun x =>
    let c := coreAt x.1 0 0
    c.restore.map (fun y => bedRoom c (((c.kernelOf y.grid).map fun k => k.beds).getD 0) y.grid y.entry) == [x.2]) = true := by
  decide +kernel

/-- The neighbourhood of grid 0 is being saved to a context: its thread, here without registers to
keep the image short, waits at a barrier, or still runs. -/
def context : Context :=
  { id := 5, addr := 0, units := 0, st := 1, cdie := 0, kind := 0, grid := 0, hood := 0, savedNs := 0, blocks := [] }
def saving (w : Wait) (heap : BitVec 64) : State :=
  let s := withHood (withLane fun t => { t with v := [], wait := w, stopIssues := 65536 }) fun h => { h with st := .saving }
  let s := modKernel s 0 0 0 fun k => { k with tbl := false }
  { modWarp s 0 0 0 fun w => { w with stopReq := true } with contexts := [context], ctxBase := 0x100000, ctxSize := heap }

/-- The captured context, here without what the capture wrote to memory, and the same once it is ready (R337). -/
def captured : State := { got (execSaveCapture 0 0 (saving (.bar .b) 0x100000)) with mem := base.mem }
def savedContext : State := { captured with contexts := captured.contexts.map fun c => { c with st := 2 } }

/-- The conditions of a save of the one neighbourhood. -/
def saveB (s : State) (rest room : Bool) : Bool :=
  (gridAt s 0).any fun g => (Rules.hoodAt s 0 0).any fun h => (contextOf s 0 0).any fun c =>
    let s1 := stopHoods s g [h]
    decide (h.st = .saving) && decide (readyToCapture s1 g (h.placed.map (·.idx)) h = rest) && match h.placed with
    | [b] => decide (g.block b.idx = some b) && ((coreAt s b.die b.pos).warps.all fun w => decide (w.th.length = 32)) &&
      (!rest || decide ((findUnits s1 c.id (unitsFor (imageOf s1 [captureBlock s1 g b (b.idx % g.hoodSize)]).length)).isSome = room ∧ c.units = 0 ∧ g.coop = false))
    | _ => false

theorem witness_SavesCapture : saveB (saving (.bar .b) 0x100000) true true = true ∧ saveB (saving (.bar .b) 0) true false = true ∧
    saveB (saving .none 0) false false = true := by decide +kernel

/-- A lane of a warp that is saved, with a side-table entry for its address that lists v3, g0 and p2. -/
def sided : State :=
  let s := modGrid paged 0 fun g => { g with lrec := g.lrec ||| BitVec.ofNat 2048 (0x2000 * 2 ^ 128) }
  writeN (writeN s .phys 0x62000 64 1) .phys 0x62040 64 (2 ^ 155 + 2 ^ 172 + 2 ^ 259)

theorem witness_SavedRegisters : ((pathIn sided).w.th.length = 32 ∧ ((pathIn sided).th 0).life = .live ∧
      ((pathIn sided).th 0).wait = .none ∧ ((pathIn sided).th 0).v.length = (pathIn sided).grid.regs) ∧
    (sideEntryAt sided (pathIn sided).grid ((pathIn sided).th 0).pc.toNat).any (fun e =>
      e.testBit 259 && !(e.testBit 260) && e.testBit 155 && e.testBit 172) = true ∧
    ((coreAt trapped 0 0).warpAt 0).any (fun w => decide ((w.lane 0).wait = .parked ∧ (w.lane 0).v.length = (pathIn base).grid.regs)) = true := by decide +kernel

theorem witness_SavesDrain : ([(saving .none 0, true), (base, false)].all fun x =>
    (gridAt x.1 0).any fun g => (Rules.hoodAt x.1 0 0).any fun h => decide (decide (h.st = .saving) = x.2) &&
      (hoodWarps x.1 g h).any fun y => y.2.th.any fun t => decide (t.life = .live ∧ t.wait = .none ∧ t.blk = 0 ∧
        (x.2 = true → 65536 ≤ t.stopIssues)) && h.placed.any fun b => decide (b.idx = 0)) = true := by decide +kernel

/-- The neighbourhood is being flushed; its warp has left its idempotent region in the second. -/
def flushing : State :=
  withHood (modWarp base 0 0 0 fun w => { w with sh := { w.sh with idem := true } }) fun h => { h with st := .flushing }
def stored : State := modWarp flushing 0 0 0 fun w => { w with sh := { w.sh with idem := false } }

theorem witness_Flushes : ([(flushing, true), (stored, false)].all fun x =>
    (gridAt x.1 0).any fun g => (Rules.hoodAt x.1 0 0).any fun h => decide (h.st = .flushing) && windowQuiet x.1 g h &&
      decide ((hoodWarps x.1 g h).map (fun y => y.2.sh.idem) = [x.2])) = true := by decide +kernel

theorem witness_ContextsEnd : ([(captured, 1), (savedContext, 2)].all fun x =>
    (x.1.contexts.find? fun c => decide (c.id = 5)).any fun c => decide (c.st = x.2 ∧ c.blocks ≠ [] ∧ x.1.contexts.length = 1) &&
      (gridAt x.1 c.grid).any fun g => decide (g.ended = none ∧ g.complete = false ∧ g.lrec.getLsbD 418 = false) &&
        (Rules.hoodAt x.1 c.grid c.hood).isSome) = true ∧ Memory.wf captured.mem = true ∧
    (captured.locals.all fun l => Memory.wf l.cells) = true := by decide +kernel

/-! #### The coppice rotation, silent errors -/

/-- The core at position 0 of cluster 0 has no work; it is closed in the second, and in its scan in the third. -/
def freeCore : State := { setCore (withHood base fun h => { h with blocks := [] }) { placedCore 0 with warps := [], kernels := [] } with ns := 1000000 }
def closedCore : State := modCore freeCore 0 0 fun c => { c with closed := true }
def scanningCore : State := got (execCoppiceScanStart 0 0 (modCore closedCore 0 0 fun c => { c with runs := [⟨0, 0, 0, 0, 0, some 0⟩] }))

/-- The same core after the 210,000 cycles of a scan. -/
def scanned : State := atCycle 210000 scanningCore

/-- The one core of the cluster has had its turn. -/
def turned : State := modCluster freeCore 0 0 fun c => { c with turn := 1 }

theorem witness_Coppice :
    ([freeCore, closedCore, scanningCore].all fun s => decide ((clusterAt s 0 0).slotNs / 1000000 < s.ns / 1000000) &&
      decide ((dieOf s 0).clusters.length = 6 ∧ (coreAt s 0 0).kind = Rules.fld (dieOf s 0).clkind 1 0 ∧
        (clusterAt s 0 0).turn = 0) && (List.range 24).all fun k =>
          decide (k = 0 ∨ (coreAt s 0 (posOfLocal 0 k)).kind = 3)) = true ∧
    ((coreAt freeCore 0 0).closed = false ∧ (coreAt closedCore 0 0).closed = true ∧ (coreAt closedCore 0 0).scanning = none ∧
      (coreAt closedCore 0 0).service = false ∧ (residents closedCore 0 0).isEmpty = true ∧ (coreAt closedCore 0 0).warps = [] ∧
      (coreAt scanningCore 0 0).closed = true ∧ (coreAt scanningCore 0 0).scanning = some 0) ∧
    ((dieOf scanned 0).cycles = 210000 ∧ (coreAt scanned 0 0).scanning = some 0 ∧ 5 ∉ (coreAt scanned 0 0).held ∧
      (coreAt scanned 0 0).held.length = 2 ∧ ((coreAt scanned 0 0).held.all fun h => decide (h < 312)) = true ∧
      (coreAt scanned 0 0).runs.length = 1) ∧
    ((clusterAt turned 0 0).turn = 1 ∧ (clusterAt turned 0 0).slotNs / 1000000 < turned.ns / 1000000) := by decide +kernel

/-- Two halves of the core failed: their reports wait, the second with a ring of 16 units at 0x100000. -/
def reporting : State := got (execCoppiceScanDone 0 0 (coreAt scanned 0 0).held scanned)
def reportRing : State := modDie reporting 0 fun d => { d with suspect := { d.suspect with base := 0x100004 } }

/-- A watch on the signal at virtual address 0x4000 with its shadow at 0x5000 and a value that needs no work. -/
def holding (at_once : Bool) : State := modDie paged 0 fun d => { d with
  watches := [(3, ⟨BitVec.ofNat 128 (2 ^ 127 + 0x4000 + 0x5000 * 2 ^ 64), [{ value := 9, needs := [], at_once := at_once }]⟩)] }

/-- Partial-completion records of grid 0, and a ring for them. -/
def partialDue : State := modDie base 0 fun d => { d with pcrs := [⟨0, 2, false⟩] }
def partialRing : State := modDie partialDue 0 fun d => { d with partialR := { d.partialR with base := 0x100004 } }

/-- A ring of 16 units at 0x100000 for memory errors. -/
def memoryRing : State := modDie base 0 fun d => { d with memerr := { d.memerr with base := 0x100004 } }

theorem witness_SilentErrors :
    (((dieOf reporting 0).suspect.waiting.map (·.length)) = [32, 32, 32, 32] ∧ baseUsable (dieOf reporting 0).suspect.base 32 = false ∧
      baseUsable (dieOf reportRing 0).suspect.base 32 = true ∧ (dieOf reportRing 0).suspect.prod = 0 ∧
      ((dieOf reportRing 0).suspect.waiting.map (·.length)) = [32, 32, 32, 32] ∧ Memory.wf reportRing.mem = true) ∧
    ([true, false].all fun b => ((dieOf (holding b) 0).watches.lookup 3).any fun w => w.reg.getLsbD 127 && !(w.reg.getLsbD 126) &&
      decide (Rules.fld w.reg 115 64 = 0x5000 ∧ Rules.fld w.reg 63 52 = 0) && decide (w.held.length = 1)) = true ∧
    (translate (holding true) 0 0x5000 true false (some false)).toOption.isSome = true ∧
    (inHbm 0 = true ∧ dieOfPa 0 = 0 ∧ inHbm (2 ^ 51) = false ∧ baseUsable (dieOf base 0).memerr.base 32 = false ∧
      baseUsable (dieOf memoryRing 0).memerr.base 32 = true ∧ (dieOf memoryRing 0).memerr.prod = 0) ∧
    ([(partialDue, false), (partialRing, true)].all fun x =>
      ((dieOf x.1 0).pcrs.find? fun r => !r.written).any fun r => decide (baseUsable (dieOf x.1 0).partialR.base 64 = x.2) &&
        (gridAt x.1 r.grid).any fun g => decide (g.lrecVa < 2 ^ 52 ∧ g.asid < 2 ^ 12 ∧ r.cause < 2 ^ 8 ∧ g.die < 4 ∧
          g.blockCount = 1 ∧ (g.hoods.flatMap (·.blocks)).length = 1)) = true := by decide +kernel

/-! #### Moving pages -/

/-- The pool of ASID 0 holds one frame at 0xA0000, and page 0 is in copy-on-write resolution (R368). -/
def frames : State := got (execPooladdWrite 0xA0000 pooled)
def resolving (count : Nat) : State :=
  { setCount (writeN frames .phys 0x50000 8 0x6009F) 0x60000 (BitVec.ofNat 16 count) with moves := [.cow 0 0 0] }

/-- What popping the pool gives. -/
def popsFrame (s : State) : Bool := (poolPop s 0).any fun x => decide (x.1 = 0xA0000 ∧ Memory.wf x.2.mem = true)

/-- The leaf of page 0. -/
def leafIs (s : State) (e : Nat) : Bool :=
  match walk s 0 0 with
  | .leaf 0 x ad => decide (x = e ∧ ad = 0x50000)
  | _ => false

/-- Page 0 lies in tier 1 and is on its way to tier 0; with and without room in the reclaim ring (R370). -/
def promoting (stuck : Bool) (ring : BitVec 64) : State :=
  modDie { writeN frames .phys 0x50000 8 (0x40000000008F + 2 ^ 60) with moves := [.promote 0 0 0 1 stuck] } 0 fun d =>
    { d with reclaim := { d.reclaim with base := ring } }

/-- A migration command for page 0 to tier 2, at the head of a ring of 16 at 0x100000 (R371). -/
def migrating (c : Nat) : State := modDie (writeN (setCount paged 0x60000 1) .phys 0x100000 32 c) 0 fun d =>
  { d with migbase := 0x100004, migtail := 1 }

/-- The demotion of page 0, its first copy made, written to or not. -/
def demoting (dirty : Bool) : State := { writeN (migrating (2 ^ 65)) .phys 0x50000 8 0x6008F with
  moves := [.demote 0 0 0 0x60000 2 0 1 dirty] }

theorem witness_PagesMove :
    ([1, 2].all fun n => leafIs (resolving n) 0x6009F && popsFrame (resolving n) && !(accessPending (resolving n) 0 0 1) &&
      decide (countOf (resolving n) 0x60000 = BitVec.ofNat 16 n ∧ (resolving n).moves = [.cow 0 0 0] ∧ (resolving n).ops = [] ∧
        (resolving n).fwlock = false ∧ (resolving n).keyGen = [] ∧ (resolving n).rmwBad = [] ∧ (resolving n).unitKd = []) && Memory.wf (resolving n).mem) = true ∧
    ([(promoting true 0, false), (promoting false 0, false), (promoting false 0x100004, true)].all fun x =>
      leafIs x.1 (0x40000000008F + 2 ^ 60) && popsFrame x.1 && decide (baseUsable (dieOf x.1 0).reclaim.base 16 = x.2) &&
        (x.1.moves.find? fun m => m.isOn 0 0).isSome && Memory.wf x.1.mem && decide (x.1.ops = [])) = true ∧
    ([2 ^ 65, 2 ^ 64 + 2 ^ 65].all fun c => let s := migrating c
      decide ((dieOf s 0).mighead.toNat < (dieOf s 0).migtail.toNat) && baseUsable (dieOf s 0).migbase 32 && (demotionOf s 0).isNone &&
        decide (readN s .phys (Rules.commandAt (dieOf s 0)) 32 = c) && leafIs s 0x6000F && !(moveOn s 0 0) &&
        decide (countOf s 0x60000 = 1#16) && Memory.wf s.mem) = true ∧
    ([true, false].all fun dirty => let s := demoting dirty
      decide (demotionOf s 0 = some (.demote 0 0 0 0x60000 2 0 1 dirty)) && leafIs s 0x6008F && !(accessPending s 0 0 1) &&
        decide (countOf s 0x60000 = 1#16) && decide (asidEntry s 0 / 2 ^ 396 % 16 = 0)) = true := by decide +kernel

/-! #### Checkpoints -/

/-- A quiet package with a command at 0x100000: one shard of no bytes, described at 0x100040. -/
def commanded (op : Nat) : State :=
  writeN { placeThreadWord State.reset 0 with grids := [], agenda := [] } .phys 0x100000 64 (op + 2 ^ 160 + 0x100040 * 2 ^ 192)

/-- A command that never ends before CHECKPOINT_COMPLETE. -/
def busyCommand : State := { commanded 1 with ckpt := some ⟨0, 0, none⟩ }

theorem witness_CommandsAndSaves :
    ([0, 1, 2].all fun op => let s := commanded op
      decide (s.ckpt = none ∧ s.grids = [] ∧ s.contexts = [] ∧ s.ops = [] ∧ s.mirrors = [] ∧ readN s .phys 0x100000 64 % 4 = op) &&
        decide (ckMalformed s 0x100000 (readN s .phys 0x100000 64) = decide (op = 0))) = true ∧
    shardsOf (commanded 1) 0x100040 1 = [(0, 0, 0)] ∧ (shardsWait (commanded 1) [(0, 0, 0)] false).isNone = true ∧
    (match saveShards .yew [(0, 0, 0)] 0 0 (commanded 1) [] with
      | .ok (_, off, es) => inStore .yew off (64 + es.length + 384)
      | .error _ => false) = true ∧ ckStore (commanded 1) (readN (commanded 1) .phys 0x100000 64) = .yew ∧
    (match saveShards .yew [(0x30000, 0, 64)] 0 0 (commanded 1) [] with | .error _ => true | .ok _ => false) = true ∧
    (readShard (commanded 1) (0, 0, 64)).isSome = true ∧ busyCommand.ckpt ≠ none ∧
    (base.grids.any fun g => g.hoods.any fun h => h.blocks.any fun b => decide (b.st = .placed)) = true ∧
    Memory.wf (commanded 1).mem = true := by decide +kernel

/-- Bytes lie at the start of the Yew store, behind 128 zeros. -/
def stamped (l : List Byte) : State := writeBytes (commanded 2) .yew 128 l

theorem writeBytes_else (s : State) (sp : Space) (a : Nat) (l : List Byte) :
    ∃ m k, writeBytes s sp a l = { s with mem := m, locals := k } := by
  induction l generalizing s a with
  | nil => exact ⟨_, _, rfl⟩
  | cons b l ih =>
    obtain ⟨m, k, h⟩ := ih (writeByte s sp a b) (a + 1)
    refine ⟨m, k, h.trans ?_⟩
    cases sp <;> rfl

theorem stamped_byte (l : List Byte) (sp : Space) (a : Nat) : readByte (stamped l) sp a =
    if sp = .yew ∧ 128 ≤ a ∧ a < 128 + l.length then l.getD (a - 128) 0 else readByte (commanded 2) sp a := by
  have h0 : Laws.MemOk (commanded 2) := ⟨by decide +kernel, by decide +kernel⟩
  unfold stamped
  exact Laws.readByte_writeBytes h0 _ _ _ _ _

theorem quiet_else (s : State) (m : List Host.Cell) (k : List Local)
    (h : s.ckpt = none ∧ s.grids = [] ∧ s.contexts = [] ∧ s.ops = [] ∧ s.mirrors = [] ∧ s.poison = []) :
    Rules.quiet410 { s with mem := m, locals := k } ∧ ({ s with mem := m, locals := k } : State).ckpt = none ∧
      isPoisoned { s with mem := m, locals := k } .yew 0 512 = false := by
  obtain ⟨c1, c2, c3, c4, c5, c6⟩ := h
  refine ⟨⟨?_, ?_, ?_, ?_, Or.inl c5⟩, c1, ?_⟩
  · simp [c2]
  · simp [c3]
  · simp [c4]
  · simp [c4]
  · simp [isPoisoned, c6]

/-- A restore of a manifest of zeros: any 384 bytes as its signature (R413). -/
theorem witness_Restore (l : List Byte) (hl : l.length = 384) : (stamped l).ckpt = none ∧ Rules.quiet410 (stamped l) ∧
    readN (stamped l) .phys 0x100000 64 = 2 + 2 ^ 160 + 0x100040 * 2 ^ 192 ∧
    readBytes (stamped l) .yew 0 128 = List.replicate 128 0#8 ∧ readBytes (stamped l) .yew 128 384 = l ∧
    isPoisoned (stamped l) .yew 0 512 = false := by
  obtain ⟨m, k, h⟩ := writeBytes_else (commanded 2) .yew 128 l
  have h' : stamped l = { commanded 2 with mem := m, locals := k } := h
  have h1 : (commanded 2).ckpt = none ∧ (commanded 2).grids = [] ∧ (commanded 2).contexts = [] ∧ (commanded 2).ops = [] ∧
      (commanded 2).mirrors = [] ∧ (commanded 2).poison = [] := by decide +kernel
  obtain ⟨q, c, d⟩ := quiet_else (commanded 2) m k h1
  refine ⟨h' ▸ c, h' ▸ q, ?_, ?_, ?_, h' ▸ d⟩
  · rw [← (show readN (commanded 2) .phys 0x100000 64 = 2 + 2 ^ 160 + 0x100040 * 2 ^ 192 by decide +kernel)]
    unfold readN readBytes
    simp only [stamped_byte, show (Space.phys = Space.yew) = False from by simp, false_and, if_false]
  · rw [← (show readBytes (commanded 2) .yew 0 128 = List.replicate 128 0#8 by decide +kernel)]
    unfold readBytes
    refine List.map_congr_left fun i hi => ?_
    rw [stamped_byte, if_neg]
    have := List.mem_range.1 hi
    omega
  · unfold readBytes
    apply List.ext_getElem
    · simp [hl]
    · intro i h1 h2
      simp only [List.getElem_map, List.getElem_range, stamped_byte]
      rw [if_pos ⟨trivial, by omega, by omega⟩, Nat.add_sub_cancel_left]
      simp [List.getD_eq_getElem?_getD, List.getElem?_eq_getElem h2]

/-- The package's own signature verifies, and one whose first byte differs does not. -/
theorem witness_Signatures (m : List Byte) :
    let own := (List.range 384).map (Config.identitySignature m)
    own.length = 384 ∧ ((Config.identitySignature m 0 + 1) :: own.tail).length = 384 ∧
      (Config.identitySignature m 0 + 1) :: own.tail ≠ own := by
  refine ⟨by simp, by simp, fun h => ?_⟩
  have h0 := congrArg (fun l => l.getD 0 0#8) h
  have h1 : ((List.range 384).map (Config.identitySignature m)).getD 0 0#8 = Config.identitySignature m 0 := by
    simp [List.getD_eq_getElem?_getD]
  have hx : ∀ x : Byte, x + 1 ≠ x := by decide
  exact hx _ (h0.trans h1)

/-! #### The fabric -/

/-- Node 0 with port 0 up, serving node 7. -/
def linked (s : State) : State := { s with ports := s.ports.set 0 ⟨true, 0, []⟩, peermap := [7] }

/-- A flit of a kind from node 7 for sector 0 of the line at an address, with its check word. -/
def header (kind va : Nat) (pay : List (BitVec 8 × BitVec 256)) : BitVec 256 := flitHeader 0 va 1 0 5 0 7 kind pay

/-- One sector with every word valid. -/
def sector : BitVec 8 × BitVec 256 := (0xFF#8, 3#256)

/-- The conditions of `Rules.FlitOk` and `Rules.OneSector` for port 0. -/
def flitB (s : State) (h : BitVec 256) (kind va : Nat) (pay : List (BitVec 8 × BitVec 256)) : Bool :=
  (s.ports[0]?).any (fun p => p.up && !(p.accepted.contains (Rules.fld h 127 96))) &&
    decide (Rules.fld h 95 84 = Rules.fld s.fabnode 11 0 ∧ Rules.fld h 71 68 = kind ∧
      Rules.fld h 255 224 = flitCrc h.toNat pay ∧ Rules.fld h 158 152 = 1 ∧ va = Rules.fld h 211 160 ∧ s.fabnode.toNat < 2 ^ 12)

theorem oneSector_of {s : State} {hdr : BitVec 256} {kind va : Nat} {pay : List (BitVec 8 × BitVec 256)}
    (h : flitB s hdr kind va pay = true) (hp : kind = 2 ∨ pay = [sector]) : Rules.OneSector s 0 hdr pay kind va sector := by
  unfold flitB at h
  simp only [Bool.and_eq_true, decide_eq_true_eq, Option.any_eq_true, Bool.not_eq_true', List.contains_eq_mem,
    decide_eq_false_iff_not] at h
  obtain ⟨⟨p, h1, h2, h3⟩, h4, h5, h6, h7, h8, h9⟩ := h
  exact ⟨⟨⟨p, h1, h2, h3⟩, h4, h5, h6⟩, h9, ⟨0, by omega, h7, h8⟩, hp⟩

theorem witness_FabricRequests :
    (Rules.OneSector (linked paged) 0 (header 1 0 [sector]) [sector] 1 0 sector ∧
      Rules.OneSector (linked paged) 0 (header 2 0 []) [] 2 0 sector ∧
      Rules.OneSector (linked paged) 0 (header 5 0 [sector]) [sector] 5 0 sector ∧
      Rules.OneSector (linked paged) 0 (header 1 0x30000 [sector]) [sector] 1 0x30000 sector ∧
      Rules.OneSector (linked paged) 0 (header 2 0x30000 []) [] 2 0x30000 sector ∧
      Rules.OneSector (linked (resolving 2)) 0 (header 5 0 [sector]) [sector] 5 0 sector) ∧
    (flitB (linked paged) (header 6 0 []) 6 0 [] = true ∧ flitB paged (header 6 0 []) 6 0 [] = false) ∧
    ((linked paged).peermap = [7] ∧ asidEntry (linked paged) 0 / 2 ^ 392 % 2 = 1 ∧ paged.peermap = [] ∧
      Rules.fld (header 6 0 []) 83 72 = 7 ∧ Rules.fld (header 6 0 []) 223 212 = 0) ∧
    ((translate (linked paged) 0 0 true false (some false)).toOption.isSome = true ∧
      (match translate (linked paged) 0 0x30000 true false (some false) with | .error d => decide (d.cls ≠ 7) | .ok _ => false) = true ∧
      (match translate (linked (resolving 2)) 0 0 true false (some false) with | .error d => decide (d.cls = 7) | .ok _ => false) = true) :=
  ⟨⟨oneSector_of (by decide +kernel) (Or.inr rfl), oneSector_of (by decide +kernel) (Or.inl rfl),
    oneSector_of (by decide +kernel) (Or.inr rfl), oneSector_of (by decide +kernel) (Or.inr rfl),
    oneSector_of (by decide +kernel) (Or.inl rfl), oneSector_of (by decide +kernel) (Or.inr rfl)⟩,
    by decide +kernel, by decide +kernel, by decide +kernel⟩

/-- Sector 0 of a put or a get is in flight since time 0. -/
def inFlight (put : Bool) : State :=
  let s := ran (if put then .nput 4 8 0 else .nget 4 8 0) remote
  { linked s with ops := s.ops.map fun o => match o.kind with
    | .ngu n l _ g => { o with kind := .ngu n l [(0, 0)] g }
    | _ => o }

/-- Mirrored writes of node 7 to the first 64 KiB are taken, and one of this node's has waited since time 0. -/
def mirrored (ns : Nat) : State :=
  { linked paged with mirin := BitVec.ofNat 128 (2 ^ 127 + 7 * 2 ^ 112 + 2 ^ 64), mirrors := [⟨1, 0, 0, 0, 0, 0, 0, none⟩], ns := ns }

theorem witness_FabricAnswers :
    ([true, false].all fun put => match (inFlight put).ops with
      | [o] => o.here (inFlight put) && match o.kind with
        | .ngu n l sent _ => (sent.lookup 0).isSome && decide (n.kind = if put then 1 else 2) && decide (n.remote % 32 = 0) &&
            (l.find? fun x => decide (x.tag = 0)).any fun u => u.err.isNone && u.seq.isNone && decide (l = [u] ∧ u.secs = o.secs ∧ o.secs.length = 1) &&
              (put || match resolveSegs (inFlight put) o u.segs with
                | .ok [⟨none, some (dp, b, _, _, _), m⟩] => decide (m ≤ 32) && !(fwDenied (inFlight put) dp b m)
                | _ => false)
        | _ => false
      | _ => false) = true ∧
    (flitB (inFlight true) (header 4 0 []) 4 0 [] = true ∧ flitB (inFlight false) (header 3 0 [sector]) 3 0 [sector] = true) ∧
    (flitB (mirrored 0) (header 7 0 [sector]) 7 0 [sector] = true ∧ flitB (mirrored 0) (header 7 0x10000 [sector]) 7 0x10000 [sector] = true ∧
      (mirrored 0).mirin.getLsbD 127 = true ∧ Rules.fld (mirrored 0).mirin 123 112 = 7 ∧
      Rules.fld (mirrored 0).mirin 99 64 = 1 ∧ Rules.fld (mirrored 0).mirin 35 0 = 0) ∧
    ((mirrored 10000000).mirBroken = false ∧ (mirrored 10000000).mirrors.map (·.since) = [0] ∧ (mirrored 10000000).ns = 10000000) := by
  decide +kernel

/-- A state that lists no unit under another key holds every unit under the package's (R373). -/
theorem keyed_of {s : State} (h1 : s.keyGen = []) (h2 : s.unitKd = []) (h3 : s.rmwBad = []) (a n : Nat) :
    Rules.Keyed s a n (keyId s 0) := by
  intro _ u _ _
  right
  unfold foreign keyId
  rw [h1, h2, h3]
  exact ⟨rfl, nofun⟩

/-- States of the witnesses above in which memory is written. -/
def writers : List State := [ran (.cpy 0 4 8 0 0 2) copies, ran (.dxfer 4) transfers, ran (.sigadd 8 12) paged, owing signalPacket,
  holding true, linked paged, inFlight false, mirrored 0, ran (.stg 0 4 8 0 0 2) paged, ran (.atomg 0 4 8 1 0 0 0) paged, resolving 2]

theorem witness_Keyed (s : State) (h : s ∈ writers) (a n : Nat) : Rules.Keyed s a n (keyId s 0) := by
  have k : (writers.all fun s => s.keyGen.isEmpty && s.unitKd.isEmpty && s.rmwBad.isEmpty) = true := by decide +kernel
  have := List.all_eq_true.1 k s h
  simp only [Bool.and_eq_true, List.isEmpty_iff] at this
  exact keyed_of this.1.1 this.1.2 this.2 a n

/-! #### The machine as a whole -/

theorem witness_MachineState : (Thread.start 256 [] 0 0 0 0 0 false []).g.length = 15 ∧
    (Thread.start 256 [] 0 0 0 0 0 false []).v.length = 256 ∧ Rules.Canonical State.reset ∧ Rules.freshIds State.reset ∧
    step State.reset = .next State.reset := by
  refine ⟨rfl, by decide +kernel, ⟨rfl, fun l hl => ?_⟩, ⟨fun o ho => ?_, fun c hc => ?_⟩, ?_⟩
  · cases hl
  · cases ho
  · cases hc
  · unfold step
    rfl

/-- Faults of the path of the placed program: a user trap that goes to the host, a page to resolve, a fatal one, one
that kills the path's block. -/
def toHost : Flt := Flt.plain 10 7 1
def toResolve : Flt := { Flt.plain 7 1 1 with pages := [(0, 1)] }
def isFatal : Flt := Flt.plain 9 18 1
def killsPath : Flt := Flt.plain 8 1 1

theorem mayFault_of {s : State} {x : Flt} (h : (pathOf s).isSome = true)
    (h1 : x.cls < 16 ∧ x.code < 256 ∧ x.space < 8 ∧ (pathIn s).slot < 128 ∧ (pathIn s).grid.asid < 4096 ∧ x.lanes ≠ 0#32)
    (h2 : x.bad = 0 ∧ (pathIn s).w.faults = [] ∧ clusterArmed s (pathIn s).die (clusterOf (pathIn s).pos) = false ∧
      (pathIn s).die < s.dies.length)
    (h3 : (s.cores.all fun c => c.warps.all fun w =>
      decide (c.die = (pathIn s).die ∧ c.pos = (pathIn s).pos ∧ w.slot = (pathIn s).slot)) = true) :
    Rules.MayFault s (pathIn s) x := by
  obtain ⟨p, hp⟩ := Option.isSome_iff_exists.1 h
  have e : pathIn s = p := by unfold pathIn; rw [hp]; rfl
  obtain ⟨a1, a2, a3, a4, a5, a6⟩ := h1
  obtain ⟨b1, b2, b3, b4⟩ := h2
  refine ⟨by rw [e]; exact hp, ⟨a1, a2, a3, a4, a5, a6⟩, b1, by rw [b2]; decide, b3, b4, by rw [b2]; nofun, ?_⟩
  intro c hc w hw _
  simpa using List.all_eq_true.1 (List.all_eq_true.1 h3 c hc) w hw

theorem witness_ExceptionEntry : (∀ x ∈ [toHost, toResolve, isFatal, killsPath], Rules.MayFault debugging (pathIn debugging) x) ∧
    Rules.r148 debugging (pathIn debugging).grid 10 7 = .host ∧ Rules.r148 debugging (pathIn debugging).grid 7 1 = .hardware ∧
    Rules.r148 debugging (pathIn debugging).grid 9 18 = .fatal ∧ Rules.r148 debugging (pathIn debugging).grid 8 1 = .killPath ∧
    (pathIn debugging).grid.ended = none ∧ (pathIn debugging).grid.complete = false ∧ (pathIn debugging).grid.die < 4 ∧
    (((pathIn debugging).grid.block 0).any fun b => decide (b.st = .placed ∧ b.die = 0 ∧ b.pos = 0)) = true := by
  refine ⟨fun x hx => ?_, by decide +kernel⟩
  simp only [List.mem_cons, List.not_mem_nil, or_false] at hx
  rcases hx with rfl | rfl | rfl | rfl <;>
    exact mayFault_of (by decide +kernel) (by decide +kernel) (by decide +kernel) (by decide +kernel)

/-- Eight records park eight paths of the warp (R150). -/
theorem witness_NinthRecord : 8 ≤ (pathIn (modWarp base 0 0 0 fun w =>
    { w with faults := List.replicate 8 ⟨0, 0, [], false, none, false, false⟩ })).w.faults.length := by decide +kernel

/-- The turns of the placed words. -/
def threadTurn : State := State.reset.withFetchWord 32 0x00184E41
def schedTurn : State := State.reset.withFetchWord 32 0x0005850B

theorem witness_Turns :
    (threadTurn.agenda.map fun x => match x.act with
      | .issue 0 0 0 8 0 1 0 => true
      | _ => false) = [true] ∧
    (pathOf (Rules.atIssue threadTurn 0 0 0 8 0 1)).any (fun p => decide (p.pc = 0#52) &&
      match translate threadTurn p.grid.asid 0 false true none with
      | .error _ => false
      | .ok tr => !(tagMismatch threadTurn .phys tr.pa 4 tr.kd) && decide (ofBytes (agentBytes threadTurn .phys tr.pa 4 tr.kd) = 0x00184E41)) = true ∧
    (pathOf (Rules.atIssue threadTurn 0 0 0 8 0 0)).isNone = true ∧
    (schedTurn.agenda.map fun x => match x.act with
      | .sched 0 0 => true
      | _ => false) = [true] ∧
    ofBytes (readBytes schedTurn (.cpLocal 0) (Rules.sc schedTurn).pc.toNat 4) = 0x0005850B ∧ (Rules.sc schedTurn).failed = false ∧
    fetched (.add 3 4 114) = true ∧ fetched .bootRomReady = false ∧ isThread .bootRomReady = false := by decide +kernel

/-- Class 1 of an ill-formed instruction or of a feature that is not accepted, class 2 of a register that the thread does
not have, class 3 inside the lookahead of a divide and the interlock behind it, a wait on a counter (R67 to R71, R383). -/
theorem witness_ChecksBeforeIssue :
    (wellFormed (.lea 3 2 1 0) = false ∧ (pathOf base).isSome = true ∧
      featureIllegal { base with featWritten := [true, false, false, false] } (.cvto 4 8 12 0 0) = true ∧
      wellFormed (.cvto 4 8 12 0 0) = true) ∧
    inRange (.add 111 0 0) ((pathIn (withLane fun t => { t with v := List.replicate 32 0 })).th 0) = false ∧
    (violation (.add 12 4 0) ((pathIn (ran (.div 2 4 8 0) base)).th 0) = 1 ∧
      violation (.add 4 12 0) ((pathIn (ran (.div 2 4 8 0) base)).th 0) = 2 ∧
      interlocked (.add 12 4 0) ((pathIn (ran (.div 2 4 8 0) base)).th 0) = false ∧
      interlocked (.add 12 4 0) ((pathIn (ran (.div 0 4 8 0) base)).th 0) = true ∧ (pathIn base).w.restoring = []) ∧
    (waits (.waitcSt 0) (ran (.stg 0 4 8 0 0 2) paged) (pathIn (ran (.stg 0 4 8 0 0 2) paged)) = true) := by decide +kernel

/-! #### More hypotheses of the claims -/

/-- A system load of 16 bytes of which one half was performed ahead (R144). -/
def halved (h : Nat) : State :=
  let s := ran (.ldsys 0 4 8 0 6) atHost
  match pendingAt s 1 0 with
  | some (o, a) => performHalf s o a h
  | none => s

theorem witness_LoadReturns : ([0, 1].all fun h => match pendingAt (halved h) 1 0 with
    | some (o, a) => enabled (halved h) o a && decide (Rules.leftOf a = (8 * (1 - h), 8)) &&
        (readError (halved h) a.sp (a.addr + (Rules.leftOf a).1) (Rules.leftOf a).2 a.kd o.asid).isNone
    | none => false) = true := by decide +kernel

/-- The header of a table, and an entry of a copy, in a poisoned sector (R347). -/
def poisonedHeader : State := { headed with poison := [(.scratch 0 0, 0)] }
def poisonedEntry : State := { ran (.tblld 4) headed with poison := [(.scratch 0 0, 2)] }

theorem witness_PoisonedTable : Ready (.tblld 4) poisonedHeader (pathIn poisonedHeader) ∧
    isPoisoned poisonedHeader (pathIn poisonedHeader).scratch 0 64 = true ∧ isPoisoned headed (pathIn headed).scratch 0 64 = false ∧
    ([(poisonedEntry, true), (ran (.tblld 4) headed, false)].all fun x => x.1.ops.all fun o =>
      decide (isPoisoned x.1 (o.place x.1 (.scratch 0 0)) (0 + 64 + 16 * 0) 16 = x.2)) = true :=
  ⟨ready (by decide +kernel), by decide +kernel, by decide +kernel, by decide +kernel⟩

/-- The side table lies at 0x20000, in a page of tier 2 that is resolved first (R151, R321). -/
def laterRecord : Nat := placedRecord.toNat + 0x20000 * 2 ^ 128 + (1 + 8 * 2 ^ 6) * 2 ^ 192
def later (s : State) : State := writeN s .phys 0x50010 8 (0x7000F + 2 * 2 ^ 60)

theorem witness_LaunchPending :
    (launchPending (later (launching laterRecord)) 0 0 (BitVec.ofNat 2048 laterRecord)).isSome = true ∧
    (launchPending (launching goodRecord) 0 0 (BitVec.ofNat 2048 goodRecord)).isNone = true ∧
    (launchPending (launching 0) 0 0 0).isNone = true ∧
    (launchPending dispatching 0 0 (BitVec.ofNat 2048 (readN dispatching (.cpLocal 0) 0x100 256))).isNone = true ∧
    (launchPending dispatching 0 0 0#2048).isNone = true := by decide +kernel

/-- The descriptors of die 0 lie at 0, behind them other memory; an address outside every region of R355. -/
theorem witness_PeerAccesses : (dieOf configured 0).qdescWritten = true ∧ Rules.descriptorsAt configured 0 = 0 ∧
    ((List.range 4).all fun d => d = 0 || !(dieOf configured d).qdescWritten) = true ∧
    meetsReserved configured 0x40000 4 = false ∧ meetsReserved configured 30 4 = false ∧
    Rules.dState (qdesc queued 0 0) ≠ 0 ∧ 0 + 64 * 4096 ≤ 0x40000 ∧ ¬0x1000_0000_0000 + 4 ≤ 12 * 0xC00000000 := by
  decide +kernel

theorem witness_Queues : (qdesc configured 0 0 = 0 ∧ ¬Rules.dReserved 0 ∧ Rules.aQueue 0 0 ∧ ¬Rules.aQueue 4 0 ∧ ¬Rules.aQueue 0 4096) ∧
    (resettingQueue.dies.all fun d => d.updates.isEmpty) = true ∧
    ([signalPacket, 3 + 0x30000 * 2 ^ 64].all fun p => decide ((dieOf (owing p) 0).resetting = [])) = true := by
  unfold Rules.dReserved Rules.aQueue
  decide +kernel

/-- A completion of grid 0 without a signal is owed (R312). -/
def unsignalled : State := modDie base 0 fun d =>
  { d with updates := [{ Rules.packetUpdate 0 0 0 0 false false (some 0) with grid := some 0 }] }

theorem witness_UnsignalledCompletion : gridQuiet unsignalled 0 = true ∧ (dieOf unsignalled 0).resetting = [] ∧
    (dieOf unsignalled 0).updates.map (fun u => (u.va, u.grid)) = [(0, some 0)] := by decide +kernel

/-- The warp of slot 0 stands before a word; a higher slot has spawned in the cycle. -/
def lateSpawn (w : Nat) : State :=
  modCore (placeThreadWord State.reset w) 0 0 fun c => { c with spawned := some (0, 1) }

theorem witness_SpawnOrder : ([(lateSpawn (encode (.spawn 4 8)), true), (lateSpawn 0xF800000D, false), (base, false)].all fun x =>
    ((coreAt x.1 0 0).warpAt 0).any fun w => decide (spawnsLate x.1 0 0 w = x.2)) = true := by decide +kernel

/-- No lane of the warp with an expired watchdog can issue. -/
def blockedWatchdog : State := modWarp watchdog 0 0 0 fun w => { w with th := w.th.map fun t => { t with wait := .bar .b } }

theorem witness_Watchdogs : ([(blockedWatchdog, true), (watchdog, false)].all fun x =>
    ((coreAt x.1 0 0).warpAt 0).any fun w => decide (w.wdog = 0#32 ∧ w.wdFired = false ∧ w.faults = []) &&
      decide (decide (freeLanes x.1 0 0 w = 0#32) = x.2)) = true ∧ (coreAt blockedWatchdog 0 0).service = true := by decide +kernel

/-- Every owed result of a cluster is written, or one is not (R71). -/
theorem witness_OwedResults : ([(stopping, true), (modCluster (ran (.div 2 4 8 0) base) 0 0 fun c => { c with stopping := some 0 }, false)].all
    fun x => decide (((List.range 24).all fun k => (coreAt x.1 0 (posOfLocal 0 k)).warps.all fun w => w.th.all fun t =>
      t.owed.all fun o => o.done) = x.2) && decide ((clusterAt x.1 0 0).stopping = some 0)) = true ∧
    (clusterAt stopped 0 0).dbgctl.getLsbD 10 = false ∧ (clusterAt debugging 0 0).stopping = none := by decide +kernel

/-- The saved context has room for its image already (R337). -/
theorem witness_ReservedUnits : let s := saving (.bar .b) 0x100000
    (gridAt s 0).any (fun g => (Rules.hoodAt s 0 0).any fun h => match h.placed with
      | [b] => decide (unitsFor (imageOf (stopHoods s g [h]) [captureBlock (stopHoods s g [h]) g b (b.idx % g.hoodSize)]).length ≤ 100)
      | _ => false) = true ∧
    (contextOf { s with contexts := [{ context with units := 100 }] } 0 0).any (fun c => decide (c.units = 100)) = true := by decide +kernel

theorem witness_CountedDone : countedDone partialDue 0 = true ∧ countedDone partialRing 0 = true ∧
    countedDone (ran (.stg 0 4 8 0 0 2) paged) 0 = false := by decide +kernel

/-- A core that is closed, not free and not in its scan (R342). -/
def lateCore : State := modCore { base with ns := 1000000 } 0 0 fun c => { c with closed := true }

theorem witness_LateCore : ((coreAt lateCore 0 0).scanning = none ∧ (coreAt lateCore 0 0).closed = true ∧
      (coreAt lateCore 0 0).warps ≠ [] ∧ (clusterAt lateCore 0 0).slotNs / 1000000 < lateCore.ns / 1000000 ∧
      (clusterAt lateCore 0 0).turn = 0 ∧ (coreAt lateCore 0 0).kind = Rules.fld (dieOf lateCore 0).clkind 1 0 ∧
      (dieOf lateCore 0).clkind.getLsbD 31 = false) ∧
    (coreAt closedCore 0 0).beds = [] ∧ (coreAt closedCore 0 0).restore = [] := by decide +kernel

/-- A mirrored write whose duplicate was sent over port 0, and one whose was not. -/
def duplicated : State := { mirrored 0 with mirrors := [⟨1, 0, 0, 0, 0, 0, 0, some 0⟩] }

theorem witness_SentDuplicates : duplicated.mirBroken = false ∧ (duplicated.mirrors.map fun m => (m.id, m.sent)) = [(1, some 0)] ∧
    ((mirrored 0).mirrors.map fun m => (m.id, m.sent)) = [(1, none)] := by decide +kernel

/-- The path of a turn was chosen, with and without a watchdog that has run out; a scheduler core's die is out of its ROM. -/
theorem witness_ChosenTurns :
    ((⟨0, 8, 0, 1, (dieOf threadTurn 0).cycles, 0⟩ : Pick) ∈ (coreAt threadTurn 0 0).picks ∧ (coreAt threadTurn 0 0).service = false ∧
      (⟨0, 8, 0, 1, (dieOf watchdog 0).cycles, 0⟩ : Pick) ∈ (coreAt watchdog 0 0).picks ∧
      (⟨0, 8, 4, 1, (dieOf threadTurn 0).cycles, 0⟩ : Pick) ∉ (coreAt threadTurn 0 0).picks) ∧
    (pathOf (Rules.atIssue watchdog 0 0 0 8 0 1)).any (fun p => p.core.service && decide (p.w.wdog = 0#32 ∧ p.w.wdFired = false)) = true ∧
    (dieOf schedTurn 0).inRom = false ∧ (dieOf State.reset 0).inRom = true := by decide +kernel

/-- The bytes from a 64 KiB boundary lie in the locked firmware range (R377). -/
def locking (k : Nat) (s : State) : State := { s with fwlock := true, fwrange := BitVec.ofNat 64 (2 ^ 48 + k) }

theorem witness_FirmwareLock : fwDenied (locking 1 pooled) .phys (0x10000 + 64 * 0) 64 = true ∧
    fwDenied (locking 0 configured) .phys (Rules.descriptorsAt configured 0 + 64 * 0) 64 = true ∧
    fwDenied configured .phys (Rules.descriptorsAt configured 0 + 64 * 0) 64 = false ∧
    fwDenied ringed .phys 0x100000 64 = false ∧ fwDenied reportRing .phys 0x100000 32 = false ∧
    fwDenied (migrating (2 ^ 65)) .phys 0x100000 32 = false ∧ fwDenied captured .phys 0x100000 128 = false := by decide +kernel

/-- Descriptors: no queue of the die runs, or queue 0 does (R391); one that runs as the standby is gone (R307). -/
def running : State := modDie (packet 0) 0 fun d => { d with qdescWritten := true, cpstat := d.cpstat &&& 0xBFFFFFFF#32 }

theorem witness_RunningQueues : (dieOf State.reset 0).qdescWritten = false ∧ (dieOf running 0).qdescWritten = true ∧
    Rules.dState (qdesc running 0 0) = 1 ∧ (dieOf running 0).cpstat.getLsbD 30 = false ∧
    ((dieOf running 0).scheds.getD 2 Sched.reset).failed = false ∧ Memory.wf running.mem = true := by decide +kernel

/-- A unit under a key that is gone, beside a memory error ring (R374). -/
def tornRing : State := { memoryRing with unitKd := [(1, 3)] }

theorem witness_TornRing : tornRing.memcfg.getLsbD 0 = true ∧ foreign tornRing (64 / 64) (keyId tornRing 0) = true ∧
    tagMismatch tornRing .phys 64 4 (keyId tornRing 0) = true ∧ baseUsable (dieOf tornRing 0).memerr.base 32 = true ∧
    (∀ k, foreign tornRing (0x100000 / 64 + k) (keyId tornRing 0) = false) ∧ tornRing.rmwBad = [] ∧
    repliedBlocks trapped 0 0 = [(0, 0)] := by
  refine ⟨by decide +kernel, by decide +kernel, by decide +kernel, by decide +kernel, fun k => ?_, by decide +kernel, by decide +kernel⟩
  have e : tornRing.unitKd = [(1, 3)] ∧ keyId tornRing 0 = 0 := by decide +kernel
  unfold foreign
  rw [e.1, e.2]
  have : 0x100000 / 64 + k ≠ 1 := by omega
  simp [lookupD, this]

/-- A demotion holds the page's paths while mv is set in its leaf (R371). -/
theorem witness_MoveHolds : Rules.moveHolds (demoting true) (.demote 0 0 0 0x60000 2 0 1 true) 0 0 ∧
    ¬Rules.moveHolds (migrating 0) (.demote 0 0 0 0x60000 2 0 1 true) 0 0 ∧
    ¬Rules.moveHolds (demoting true) (.cow 0 0 1) 0 0 := by
  have h1 : walk (demoting true) 0 (0 * 65536) = .leaf 0 0x6008F 0x50000 := by decide +kernel
  have h2 : walk (migrating 0) 0 (0 * 65536) = .leaf 0 0x6000F 0x50000 := by decide +kernel
  refine ⟨⟨rfl, rfl, _, _, _, h1, by decide⟩, ?_, nofun⟩
  rintro ⟨_, _, l, e, p, h, hb⟩
  rw [h2] at h
  cases h
  exact absurd hb (by decide)

/-- The pool has no frame for a page in copy-on-write resolution (R368). -/
theorem witness_EmptyPool : (poolPop { pooled with moves := [.cow 0 0 0] } 0).isNone = true ∧
    (poolPop (writeN { pooled with moves := [.cow 0 0 0] } .phys 0x50000 8 0x6009F) 0).isNone = true ∧
    leafIs (writeN { pooled with moves := [.cow 0 0 0] } .phys 0x50000 8 0x6009F) 0x6009F = true ∧
    countOf { pooled with moves := [.cow 0 0 0] } 0x60000 ≠ 1 := by decide +kernel

/-- A shard whose page lies in tier 2, and a command that waits for it (R151, R411). -/
def waitingCommand : State := { later (commanded 1) with ckpt := some ⟨0, 0, some (0x100000, readN (commanded 1) .phys 0x100000 64)⟩ }

theorem witness_WaitingCommand : (shardsWait (later (commanded 1)) [(0x20000, 0, 64)] false).isSome = true ∧
    fwDenied (commanded 1) .phys 0x100000 64 = false ∧
    Rules.ckRuns waitingCommand 1 0x100000 (readN (commanded 1) .phys 0x100000 64) :=
  ⟨by decide +kernel, by decide +kernel, by decide +kernel, Or.inr ⟨0, 0, rfl⟩⟩

/-- A second decision of the target's lane set in one cycle is late (R166). -/
theorem witness_LateStep : (coreAt stopped 0 0).decided.lookup (0 % (coreAt stopped 0 0).halves) ≠ some (dieOf stopped 0).cycles ∧
    (coreAt (modCore stopped 0 0 fun c => { c with decided := assign c.decided 0 (dieOf stopped 0).cycles }) 0 0).decided.lookup
      (0 % (coreAt stopped 0 0).halves) = some (dieOf stopped 0).cycles := by decide +kernel

/-- No other core of the cluster is in its scan; one is (R251). -/
theorem witness_ScansAlone :
    ((rotation closedCore 0 0).all fun k => (coreAt closedCore 0 (posOfLocal 0 k)).scanning.isNone) = true ∧
    ((rotation scanningCore 0 0).all fun k => (coreAt scanningCore 0 (posOfLocal 0 k)).scanning.isNone) = false := by decide +kernel

/-- A word of a matrix function with a field that must be zero, before and after the driver's acceptance (R67, R383). -/
theorem witness_FeatureWords : (match decodeWord 0xEBFFFFFF with | .error _ => true | .ok _ => false) = true ∧
    accepted { base with featWritten := [true, false, false, false] } 0 = false ∧ accepted base 0 = true ∧
    0xEBFFFFFF / 2 ^ 26 = 0x3A := by decide +kernel

/-- Every thread of the neighbourhood has arrived at the barrier (R269), and of the grid (R322). -/
def arrivedGrid : State := ran (.barg 0 3) coop

theorem witness_BarrierReleases : (((pathIn base).grid.hoodOf ((pathIn base).th 0).blk).any fun h =>
      decide (((pathIn base).th 0).blk ∈ h.blocks.map (·.idx)) && (h.blocks.all fun m => decide (m.st = .placed)) &&
      base.cores.all fun c => c.warps.all fun w => decide (c.die = (pathIn base).die ∧ c.pos = (pathIn base).pos ∧ w.slot = (pathIn base).slot) &&
        (List.range 32).all fun j => !((w.lane j).running) || (pathIn base).lanes.getLsbD j) = true ∧
    ((gridAt arrivedGrid 0).any fun g => (g.block 0).any (fun b => decide (b.st = .placed ∧ (3, 0) ∉ g.barg)) && g.lrec.getLsbD 419 &&
      decide ((g.hoods.flatMap (·.blocks)).map (·.idx) = [0] ∧ g.blockCount = 1)) = true ∧
    (arrivedGrid.cores.all fun c => c.warps.all fun w => !w.looping && w.th.all fun t =>
      !t.running || t.arrived.contains (.g 3) && decide (t.wait = .bar (.g 3))) = true := by decide +kernel

end Sys2Proof.Tests
end

section
/-! SUPPORT. Bit fields as the tables write them, numbers in memory, and updates of a die. -/

namespace Sys2Proof.QueueControl

open Sys2Proof.Machine Sys2Proof.Laws

/-! ### Bit fields (R8) -/

/-- Replacing a field keeps the bits above it and below it. -/
theorem putBits_eq_withField (x v : Nat) {hi lo : Nat} (h : lo ≤ hi) : putBits x hi lo v = Rules.withField x hi lo v := by
  have hp : 2 ^ (hi + 1) = 2 ^ lo * 2 ^ (hi + 1 - lo) := by rw [← Nat.pow_add]; congr 1; omega
  have h1 := Nat.div_add_mod x (2 ^ lo)
  have h2 := Nat.div_add_mod (x / 2 ^ lo) (2 ^ (hi + 1 - lo))
  rw [Nat.div_div_eq_div_mul, ← hp] at h2
  have h3 : x = x / 2 ^ (hi + 1) * 2 ^ (hi + 1) + bits x hi lo * 2 ^ lo + x % 2 ^ lo := by
    unfold bits
    calc x = 2 ^ lo * (2 ^ (hi + 1 - lo) * (x / 2 ^ (hi + 1)) + x / 2 ^ lo % 2 ^ (hi + 1 - lo)) + x % 2 ^ lo := by
          rw [h2, h1]
      _ = _ := by
          rw [hp, Nat.mul_add]
          ac_rfl
  unfold putBits Rules.withField
  omega

theorem withField_lt {x hi lo v n : Nat} (hx : x < 2 ^ n) (hlo : lo ≤ hi) (hn : hi < n) :
    Rules.withField x hi lo v < 2 ^ n := by
  have hv : v % 2 ^ (hi + 1 - lo) + 1 ≤ 2 ^ (hi + 1 - lo) := Nat.mod_lt _ (Nat.two_pow_pos _)
  have hl : x % 2 ^ lo < 2 ^ lo := Nat.mod_lt _ (Nat.two_pow_pos _)
  have hp : 2 ^ (hi + 1 - lo) * 2 ^ lo = 2 ^ (hi + 1) := by rw [← Nat.pow_add]; congr 1; omega
  have hn' : 2 ^ n = 2 ^ (n - (hi + 1)) * 2 ^ (hi + 1) := by rw [← Nat.pow_add]; congr 1; omega
  have hq : x / 2 ^ (hi + 1) + 1 ≤ 2 ^ (n - (hi + 1)) :=
    Nat.div_lt_of_lt_mul (by rw [Nat.mul_comm, ← hn']; exact hx)
  have h1 := Nat.mul_le_mul_right (2 ^ lo) hv
  have h2 := Nat.mul_le_mul_right (2 ^ (hi + 1)) hq
  rw [Nat.add_mul, hp] at h1
  rw [Nat.add_mul, ← hn'] at h2
  unfold Rules.withField
  omega

theorem pow_256 (n : Nat) : 256 ^ n = 2 ^ (8 * n) := (Nat.pow_mul 2 8 n).symm

/-- Replacing a field of 64 bytes gives 64 bytes. -/
theorem withField_lt_line {x hi lo v : Nat} (hx : x < 256 ^ 64) (hlo : lo ≤ hi) (hhi : hi < 512) :
    Rules.withField x hi lo v < 256 ^ 64 := by
  have hx' : x < 2 ^ (8 * 64) := Nat.lt_of_lt_of_eq hx (pow_256 64)
  exact Nat.lt_of_lt_of_eq (withField_lt hx' hlo (by omega)) (pow_256 64).symm

theorem bit_toNat {n : Nat} (b : BitVec n) (i : Nat) : bit b.toNat i = b.getLsbD i := by
  rw [bit, ← Nat.shiftRight_eq_div_pow, BitVec.getLsbD, Nat.testBit_eq_decide_div_mod_eq, Nat.shiftRight_eq_div_pow]

/-! ### Numbers in memory (R9) -/

theorem ofBytes_lt (l : List Byte) : ofBytes l < 256 ^ l.length := by
  induction l with
  | nil => simp [ofBytes]
  | cons b t ih =>
    have hb := b.isLt
    simp only [ofBytes, List.length_cons, Nat.pow_succ]
    omega

theorem ofBytes_toBytes (n x : Nat) : ofBytes (toBytes n x) = x % 256 ^ n := by
  induction n generalizing x with
  | zero => simp [toBytes, ofBytes, Nat.mod_one]
  | succ n ih =>
    simp only [toBytes, ofBytes, ih, BitVec.toNat_ofNat]
    rw [show 256 ^ (n + 1) = 256 * 256 ^ n from Nat.pow_succ', Nat.mod_mul]

theorem readN_lt (s : State) (sp : Space) (a n : Nat) : readN s sp a n < 256 ^ n := by
  simpa [readN, readBytes] using ofBytes_lt (readBytes s sp a n)

theorem readByte_writeN {s : State} (h : MemOk s) (sp : Space) (a n v x : Nat) : readByte (writeN s sp a n v) sp x =
    if a ≤ x ∧ x < a + n then (toBytes n v).getD (x - a) 0 else readByte s sp x := by
  simp [writeN, readByte_writeBytes h, toBytes_length]

/-- A number that was written reads back. -/
theorem readN_writeN_same {s : State} (h : MemOk s) (sp : Space) (a n v : Nat) :
    readN (writeN s sp a n v) sp a n = v % 256 ^ n := by
  have hb : readBytes (writeN s sp a n v) sp a n = toBytes n v := by
    apply List.ext_getElem
    · simp [readBytes, toBytes_length]
    · intro i h1 h2
      have hi : i < n := by simpa [readBytes] using h1
      simp [readBytes, readByte_writeN h, hi, h2]
  rw [readN, hb, ofBytes_toBytes]

/-- A number beside the one that was written reads as before. -/
theorem readN_writeN_apart {s : State} (h : MemOk s) (sp : Space) {a n v b m : Nat} (hd : b + m ≤ a ∨ a + n ≤ b) :
    readN (writeN s sp a n v) sp b m = readN s sp b m := by
  unfold readN readBytes
  congr 1
  apply List.map_congr_left
  intro i hi
  have hi := List.mem_range.1 hi
  rw [readByte_writeN h, if_neg (by omega)]

theorem readN_phys_congr {s t : State} (hm : t.mem = s.mem) (a n : Nat) : readN t .phys a n = readN s .phys a n := by
  simp only [readN, readBytes, readByte, hm]

theorem fwDenied_congr {s t : State} (hl : t.fwlock = s.fwlock) (hr : t.fwrange = s.fwrange) (sp : Space) (a n : Nat) :
    fwDenied t sp a n = fwDenied s sp a n := by
  unfold fwDenied fwBase fwLen
  rw [hl, hr]

/-! ### States that differ in memory alone -/

/-- Nothing but package memory changed. -/
def OnlyMem (s t : State) : Prop := t = { s with mem := t.mem }

theorem OnlyMem.refl (s : State) : OnlyMem s s := rfl

theorem OnlyMem.trans {s t u : State} (h : OnlyMem s t) (h' : OnlyMem t u) : OnlyMem s u := by
  unfold OnlyMem at *
  rw [h] at h'
  exact h'

theorem OnlyMem.foldl {α : Type} {f : State → α → State} (hf : ∀ s x, OnlyMem s (f s x)) (l : List α) (s : State) :
    OnlyMem s (l.foldl f s) :=
  List.foldlRecOn l f (.refl s) fun t h x _ => h.trans (hf t x)

theorem OnlyMem.dies {s t : State} (h : OnlyMem s t) : t.dies = s.dies := by rw [h]

theorem OnlyMem.dieOf {s t : State} (h : OnlyMem s t) (d : Nat) : dieOf t d = dieOf s d := by
  rw [Machine.dieOf, Machine.dieOf, h.dies]

theorem OnlyMem.fwDenied {s t : State} (h : OnlyMem s t) (sp : Space) (a n : Nat) :
    fwDenied t sp a n = fwDenied s sp a n := by
  rw [h]
  rfl

theorem onlyMem_writeBytes (s : State) (a : Nat) (l : List Byte) : OnlyMem s (writeBytes s .phys a l) := by
  induction l generalizing s a with
  | nil => exact .refl s
  | cons b t ih => exact .trans (t := writeByte s .phys a b) rfl (ih _ _)

theorem onlyMem_devWrite {s : State} {a n : Nat} (h : fwDenied s .phys a n = false) (v : Nat) :
    OnlyMem s (devWrite s a n v) := by
  rw [devWrite_open h]
  exact onlyMem_writeBytes s a _

/-! ### Updates of a die -/

theorem dieOf_modDie {s : State} {d : Nat} (h : d < s.dies.length) (f : Die → Die) :
    dieOf (modDie s d f) d = f (dieOf s d) := by
  simp [dieOf, modDie, updAt, h]

/-- What an update keeps of every die reads as before, of each die and of one that is not there. -/
theorem dieOf_modDie_eq {α : Type} (p : Die → α) (s : State) (d : Nat) {f : Die → Die} (hf : ∀ x, p (f x) = p x)
    (e : Nat) : p (dieOf (modDie s d f) e) = p (dieOf s e) := by
  simp only [dieOf, modDie, updAt, getD_mapIdx]
  by_cases h : e < s.dies.length
  · simp only [h, if_true]
    split <;> simp [hf]
  · simp [h]

theorem memOk_modDie {s : State} (h : MemOk s) (d : Nat) (f : Die → Die) : MemOk (modDie s d f) :=
  memOk_of_eq h (modDie_mem s d f) (modDie_locals s d f)

theorem updAt_updAt {α : Type} (i : Nat) (f g : α → α) (l : List α) :
    updAt i g (updAt i f l) = updAt i (fun x => g (f x)) l := by
  unfold updAt
  rw [List.mapIdx_mapIdx]
  congr 1
  funext k x
  simp only [Function.comp]
  split <;> rfl

theorem modDie_modDie (s : State) (d : Nat) (f g : Die → Die) :
    modDie (modDie s d f) d g = modDie s d fun x => g (f x) := by
  simp [modDie, updAt_updAt]

theorem updAt_eq_set {α : Type} {i : Nat} {l : List α} (h : i < l.length) (f : α → α) (d : α) :
    updAt i f l = l.set i (f (l.getD i d)) := by
  apply List.ext_getElem
  · simp [updAt]
  · intro n h1 h2
    simp only [updAt, List.getElem_mapIdx, List.getElem_set]
    by_cases hn : n = i
    · subst hn; simp [h]
    · simp [hn, Ne.symm hn]

end Sys2Proof.QueueControl
end

section
/-! SUPPORT. Queue descriptors (R308): reading one, and what a write of one leaves of the others. -/

namespace Sys2Proof.QueueControl

open Sys2Proof.Machine Sys2Proof.Laws

theorem isQueue_iff {die q : Nat} : isQueue die q = true ↔ Rules.aQueue die q := by
  simp [isQueue, Rules.aQueue]

theorem qState_eq (x : Nat) : qState x = Rules.dState x := rfl

theorem qdescBad_iff {x : Nat} : qdescBad x = true ↔ Rules.dReserved x := by
  simp only [qdescBad, Bool.or_eq_true, decide_eq_true_eq, or_assoc]
  simp only [bits, Rules.dReserved, Nat.reduceAdd, Nat.reduceSub]

theorem stopped_eq (x err : Nat) : putBits (putBits x 247 240 err) 239 238 2 = Rules.stopped x err := by
  rw [putBits_eq_withField x err (by omega), putBits_eq_withField _ 2 (by omega)]
  rfl

theorem stopped_lt {x err : Nat} (h : x < 256 ^ 64) : Rules.stopped x err < 256 ^ 64 :=
  withField_lt_line (withField_lt_line h (by omega) (by omega)) (by omega) (by omega)

theorem qdesc_lt (s : State) (die q : Nat) : qdesc s die q < 256 ^ 64 := by
  unfold qdesc devRead
  split
  · exact Nat.pow_pos (by omega)
  · exact readN_lt s .phys _ 64

/-- A descriptor that does not read 0 is out of the firmware lock's reach (log 84). -/
theorem qdesc_open {s : State} {die q : Nat} (h : Rules.dState (qdesc s die q) ≠ 0) :
    fwDenied s .phys (qdescAddr s die q) 64 = false := by
  refine Bool.eq_false_iff.2 fun hl => h ?_
  rw [qdesc, devRead, if_pos hl]
  rfl

/-- What a descriptor reads depends on memory, the firmware lock and the base of its die alone. -/
theorem qdesc_congr {s t : State} {die : Nat} (hm : t.mem = s.mem) (hl : t.fwlock = s.fwlock) (hr : t.fwrange = s.fwrange)
    (hb : (dieOf t die).qdescBase = (dieOf s die).qdescBase) (q : Nat) : qdesc t die q = qdesc s die q := by
  rw [qdesc, qdesc, qdescAddr, qdescAddr, hb, devRead, devRead, fwDenied_congr hl hr, readN_phys_congr hm]

/-- The address of a descriptor as the claims write it. -/
theorem qdescAddr_eq (s : State) (die q : Nat) : qdescAddr s die q = Rules.descriptorsAt s die + 64 * q := rfl

theorem qdescAddr_modDie (s : State) (d : Nat) {f : Die → Die} (hf : ∀ x, (f x).qdescBase = x.qdescBase) (die q : Nat) :
    qdescAddr (modDie s d f) die q = qdescAddr s die q := by
  rw [qdescAddr, qdescAddr, dieOf_modDie_eq Die.qdescBase s d hf]

theorem qdesc_modDie (s : State) (d : Nat) {f : Die → Die} (hf : ∀ x, (f x).qdescBase = x.qdescBase) (die q : Nat) :
    qdesc (modDie s d f) die q = qdesc s die q :=
  qdesc_congr (modDie_mem s d f) (modDie_fwlock s d f) (modDie_fwrange s d f) (dieOf_modDie_eq Die.qdescBase s d hf die) q

theorem OnlyMem.qdescAddr {s t : State} (h : OnlyMem s t) (die q : Nat) : qdescAddr t die q = qdescAddr s die q := by
  rw [Machine.qdescAddr, Machine.qdescAddr, h.dieOf]

theorem setQdesc_eq (s : State) (die q v : Nat) {hi lo : Nat} (h : lo ≤ hi) : setQdesc s die q hi lo v =
    devWrite s (qdescAddr s die q) 64 (Rules.withField (qdesc s die q) hi lo v) := by
  rw [setQdesc, putBits_eq_withField _ v h]

/-- A write that the firmware lock denies is only counted (log 84). -/
theorem setQdesc_locked {s : State} {die q : Nat} (h : fwDenied s .phys (qdescAddr s die q) 64 = true) (hi lo v : Nat) :
    setQdesc s die q hi lo v = countDenied s := devWrite_locked h

theorem setQdesc_setQdesc_locked {s : State} {die q : Nat} (h : fwDenied s .phys (qdescAddr s die q) 64 = true)
    (hi lo v hi' lo' v' : Nat) : setQdesc (setQdesc s die q hi lo v) die q hi' lo' v' = countDenied (countDenied s) := by
  rw [setQdesc_locked h]
  have h' : fwDenied (countDenied s) .phys (qdescAddr (countDenied s) die q) 64 = true := h
  exact setQdesc_locked h' hi' lo' v'

theorem onlyMem_setQdesc {s : State} {die q : Nat} (h : fwDenied s .phys (qdescAddr s die q) 64 = false) (hi lo v : Nat) :
    OnlyMem s (setQdesc s die q hi lo v) := onlyMem_devWrite h _

/-- From `s` to `t` the descriptor of one queue of a die became `x`, and nothing else of the state changed. -/
structure DescriptorSet (s t : State) (die q x : Nat) : Prop where
  only : OnlyMem s t
  memory : MemOk t
  value : ∀ k, qdesc t die k = if k = q then x else qdesc s die k

theorem descriptorSet_devWrite {s : State} {die q x : Nat} (hm : MemOk s)
    (ho : fwDenied s .phys (qdescAddr s die q) 64 = false) (hx : x < 256 ^ 64) :
    DescriptorSet s (devWrite s (qdescAddr s die q) 64 x) die q x := by
  have only := onlyMem_devWrite ho x
  refine ⟨only, memOk_devWrite hm _ _ _, fun k => ?_⟩
  rw [qdesc, only.qdescAddr, devRead, only.fwDenied, devWrite_open ho]
  by_cases hk : k = q
  · subst hk
    rw [if_pos rfl, ho, readN_writeN_same hm]
    exact Nat.mod_eq_of_lt hx
  · have apart : qdescAddr s die k + 64 ≤ qdescAddr s die q ∨ qdescAddr s die q + 64 ≤ qdescAddr s die k := by
      unfold qdescAddr
      omega
    rw [if_neg hk, readN_writeN_apart hm .phys apart]
    rfl

theorem descriptorSet_setQdesc {s : State} {die q : Nat} (hm : MemOk s)
    (ho : fwDenied s .phys (qdescAddr s die q) 64 = false) (v : Nat) {hi lo : Nat} (hlo : lo ≤ hi) (hhi : hi < 512) :
    DescriptorSet s (setQdesc s die q hi lo v) die q (Rules.withField (qdesc s die q) hi lo v) := by
  rw [setQdesc_eq s die q v hlo]
  exact descriptorSet_devWrite hm ho (withField_lt_line (qdesc_lt s die q) hlo hhi)

/-- Two writes of fields of one descriptor. -/
theorem DescriptorSet.setQdesc {s t : State} {die q x : Nat} (h : DescriptorSet s t die q x)
    (ho : fwDenied s .phys (qdescAddr s die q) 64 = false) (v : Nat) {hi lo : Nat} (hlo : lo ≤ hi) (hhi : hi < 512) :
    DescriptorSet s (setQdesc t die q hi lo v) die q (Rules.withField x hi lo v) := by
  have ho' : fwDenied t .phys (qdescAddr t die q) 64 = false := by rw [h.only.qdescAddr, h.only.fwDenied, ho]
  have h2 := descriptorSet_setQdesc h.memory ho' v hlo hhi
  refine ⟨h.only.trans h2.only, h2.memory, fun k => ?_⟩
  rw [h2.value, h.value, h.value, if_pos rfl]
  split <;> rfl

/-- A command on a queue: its die changes, not in the base of the descriptors, and two fields of the descriptor are
written. -/
theorem descriptorSet_modDie {s : State} {die q : Nat} {f : Die → Die} (hm : MemOk s)
    (hf : ∀ d, (f d).qdescBase = d.qdescBase) (ho : fwDenied s .phys (qdescAddr s die q) 64 = false)
    {hi lo hi' lo' : Nat} (v v' : Nat) (hlo : lo ≤ hi) (hhi : hi < 512) (hlo' : lo' ≤ hi') (hhi' : hi' < 512) :
    DescriptorSet (modDie s die f)
      (Machine.setQdesc (Machine.setQdesc (modDie s die f) die q hi lo v) die q hi' lo' v') die q
      (Rules.withField (Rules.withField (qdesc s die q) hi lo v) hi' lo' v') := by
  have ho' : fwDenied (modDie s die f) .phys (qdescAddr (modDie s die f) die q) 64 = false := by
    rw [qdescAddr_modDie s die hf]
    exact ho
  have h := (descriptorSet_setQdesc (memOk_modDie hm die f) ho' v hlo hhi).setQdesc ho' v' hlo' hhi'
  rwa [qdesc_modDie s die hf] at h

/-! ### A queue that stops in error (R308) -/

theorem queueError_running {s : State} {die q : Nat} (h : Rules.dState (qdesc s die q) = 1) (err : Nat) :
    queueError s die q err = devWrite s (qdescAddr s die q) 64 (Rules.stopped (qdesc s die q) err) := by
  have h1 : bits (devRead s (baseAddr (dieOf s die).qdescBase + 64 * q) 64) 239 238 = 1 := h
  simp only [queueError, h1, stopped_eq]
  rfl

theorem onlyMem_queueError {s : State} {die q : Nat} (h : Rules.dState (qdesc s die q) = 1) (err : Nat) :
    OnlyMem s (queueError s die q err) := by
  rw [queueError_running h]
  exact onlyMem_devWrite (qdesc_open (by omega)) _

theorem descriptorSet_queueError {s : State} {die q : Nat} (hm : MemOk s) (h : Rules.dState (qdesc s die q) = 1)
    (err : Nat) : DescriptorSet s (queueError s die q err) die q (Rules.stopped (qdesc s die q) err) := by
  rw [queueError_running h]
  exact descriptorSet_devWrite hm (qdesc_open (by omega)) (stopped_lt (qdesc_lt s die q))

end Sys2Proof.QueueControl
end

section
/-! PROOF. Doorbells, the start of a queue and the report of its reset (R308, R309, R325). -/

namespace Sys2Proof.QueueControl

open Sys2Proof.Machine Sys2Proof.Laws

/-! ### Doorbells (R309, R388) -/

theorem ringDoorbell_ignored {die q : Nat} {s : State} (h : ¬Rules.aQueue die q ∨ Rules.dState (qdesc s die q) ≠ 1)
    (view : Nat) (v : BitVec 64) : ringDoorbell view die q v s = s := by
  rw [← isQueue_iff, ← qState_eq] at h
  rcases h with h | h <;> simp [ringDoorbell, h]

/-- A virtual function's view shows the doorbells of its own queues and no other (R388). -/
theorem ringDoorbell_view (n die q : Nat) (v : BitVec 64) (s : State) : ringDoorbell (n + 1) die q v s =
    if n < 16 ∧ Rules.dVf (qdesc s die q) = n then ringDoorbell 0 die q v s else s := by
  have hv : seesDoorbell (n + 1) (qdesc s die q) = decide (n < 16 ∧ Rules.dVf (qdesc s die q) = n) := by
    have hq : qVf (qdesc s die q) = Rules.dVf (qdesc s die q) := rfl
    rw [Bool.eq_iff_iff]
    simp only [seesDoorbell, hq, Bool.or_eq_true, Bool.and_eq_true, decide_eq_true_eq]
    omega
  have h0 : seesDoorbell 0 (qdesc s die q) = true := rfl
  by_cases hb : n < 16 ∧ Rules.dVf (qdesc s die q) = n
  · simp only [ringDoorbell, hv, h0, hb, and_self, decide_true, if_true]
  · simp [ringDoorbell, hv, hb]

theorem ringDoorbell_running {die q : Nat} {s : State} (hq : Rules.aQueue die q) (h : Rules.dState (qdesc s die q) = 1)
    (v : BitVec 64) : ringDoorbell 0 die q v s =
      if Rules.dWrite (qdesc s die q) ≤ v.toNat ∧ v.toNat ≤ Rules.dRead (qdesc s die q) + Rules.dSize (qdesc s die q)
      then setQdesc s die q 191 128 v.toNat else queueError s die q 1 := by
  have hs : qState (qdesc s die q) = 1 := h
  simp only [ringDoorbell, isQueue_iff.2 hq, hs]
  rfl

theorem doorbell : Rules.Doorbell := by
  intro s die q n v hc hd
  have run : ∀ view, exec (.qtailWrite (die + 4 * view) q v) s = .next (ringDoorbell view die q v s) := by
    intro view
    show Host.Outcome.next (ringDoorbell ((die + 4 * view) / 4) ((die + 4 * view) % 4) q v s) = _
    rw [show (die + 4 * view) / 4 = view by omega, show (die + 4 * view) % 4 = die by omega]
  have run0 : exec (.qtailWrite die q v) s = .next (ringDoorbell 0 die q v s) := run 0
  refine ⟨?_, fun h => ?_, fun hq h => ?_⟩
  · rw [run, run0, ringDoorbell_view]
    split <;> rfl
  · rw [run0, ringDoorbell_ignored h]
  · have effect : ∃ t, ringDoorbell 0 die q v s = t ∧ DescriptorSet s t die q
        (if Rules.dWrite (qdesc s die q) ≤ v.toNat ∧
            v.toNat ≤ Rules.dRead (qdesc s die q) + Rules.dSize (qdesc s die q)
          then Rules.withField (qdesc s die q) 191 128 v.toNat else Rules.stopped (qdesc s die q) 1) := by
      refine ⟨_, rfl, ?_⟩
      rw [ringDoorbell_running hq h]
      split
      · exact descriptorSet_setQdesc hc (qdesc_open (by omega)) _ (by omega) (by omega)
      · exact descriptorSet_queueError hc h 1
    obtain ⟨t, ht, hset⟩ := effect
    exact ⟨t, by rw [run0, ht], hset.only, by rw [hset.value, if_pos rfl]⟩

/-! ### Starts (R325) -/

/-- The word of QCTL that starts a queue: cmd 1, busy off. -/
def startWord (q : Nat) : BitVec 32 := BitVec.ofNat 32 (q + 2 ^ 12)

/-- The die when a queue is started with a word of QCTL. -/
def startWritten (w : BitVec 32) (q : Nat) (d : Die) : Die := { d with qctl := w, halted := d.halted.filter (· ≠ q) }

theorem startWritten_qdescBase (w : BitVec 32) (q : Nat) (d : Die) : (startWritten w q d).qdescBase = d.qdescBase := rfl

/-- What a start needs (R4, R325, R379). -/
def MayStart (s : State) (die q : Nat) : Prop :=
  s.passed = true ∧ (dieOf s die).qctl.getLsbD 31 = false ∧ Rules.dState (qdesc s die q) = 0 ∧
    (dieOf s die).qdescWritten = true ∧ s.featWritten.getD 0 false = true ∧ Rules.aQueue die q ∧
    ¬Rules.dReserved (qdesc s die q)

theorem startTaken_iff {s : State} {die q : Nat} :
    (!s.passed || !(isQueue die q) || bit (dieOf s die).qctl.toNat 31 || qState (qdesc s die q) ≠ 0 ||
      !(dieOf s die).qdescWritten || !(s.featWritten.getD 0 false) || qdescBad (qdesc s die q)) = false ↔
      MayStart s die q := by
  rw [MayStart, ← isQueue_iff, ← qdescBad_iff, ← qState_eq, bit_toNat]
  simp only [Bool.or_eq_false_iff, Bool.not_eq_false', decide_eq_false_iff_not, ne_eq, Classical.not_not, Bool.not_eq_true]
  constructor
  · rintro ⟨⟨⟨⟨⟨⟨hp, hq⟩, hb⟩, hs⟩, hw⟩, hf⟩, hr⟩
    exact ⟨hp, hb, hs, hw, hf, hq, hr⟩
  · rintro ⟨hp, hb, hs, hw, hf, hq, hr⟩
    exact ⟨⟨⟨⟨⟨⟨hp, hq⟩, hb⟩, hs⟩, hw⟩, hf⟩, hr⟩

theorem queueStart_refused {s : State} {die q : Nat} (h : ¬MayStart s die q) : exec (.queueStart die q) s = .next s :=
  if_pos ((Bool.not_eq_false _).mp fun hc => h (startTaken_iff.1 hc))

theorem queueStart_taken {s : State} {die q : Nat} (h : MayStart s die q) : exec (.queueStart die q) s =
    .next (setQdesc (setQdesc (modDie s die (startWritten (startWord q) q)) die q 239 238 1) die q 247 240 0) :=
  if_neg (Bool.eq_false_iff.1 (startTaken_iff.2 h))

theorem queueStarts : Rules.QueueStarts := by
  intro s die q hc hd
  have hbase := startWritten_qdescBase (startWord q) q
  refine ⟨queueStart_refused, fun h hl => ⟨_, queueStart_taken h, ?_⟩, fun h ho => ⟨_, queueStart_taken h, ?_⟩⟩
  · have hl' : fwDenied (modDie s die (startWritten (startWord q) q)) .phys
        (qdescAddr (modDie s die (startWritten (startWord q) q)) die q) 64 = true := by
      rw [qdescAddr_modDie s die hbase]
      exact hl
    rw [setQdesc_setQdesc_locked hl']
    rfl
  · rw [← qdescAddr_eq] at ho
    have effect := descriptorSet_modDie hc hbase ho (hi := 239) (lo := 238) (hi' := 247) (lo' := 240) 1 0
      (by omega) (by omega) (by omega) (by omega)
    refine ⟨?_, ?_, ?_⟩
    · rw [effect.only]
      rfl
    · rw [effect.value, if_pos rfl]
    · rw [effect.only.dieOf, dieOf_modDie hd]
      simp [startWritten, startWord, Rules.commanded]

/-! ### The report of a reset (R325 step 7) -/

/-- The die when the reset of a queue is reported. -/
def resetReported (q : Nat) (d : Die) : Die :=
  { d with
    resetting := d.resetting.filter (· ≠ q),
    qctl := if bits d.qctl.toNat 11 0 = q then BitVec.ofNat 32 (putBits d.qctl.toNat 31 31 0) else d.qctl }

/-- Busy goes off (R325): bit 31 of QCTL is cleared. -/
theorem qctl_notBusy (x : BitVec 32) : BitVec.ofNat 32 (putBits x.toNat 31 31 0) = x &&& 0x7FFFFFFF#32 := by
  apply BitVec.eq_of_toNat_eq
  have h := x.isLt
  rw [BitVec.toNat_and, show (0x7FFFFFFF#32).toNat = 2 ^ 31 - 1 from rfl, Nat.and_two_pow_sub_one_eq_mod, BitVec.toNat_ofNat,
    putBits, bits]
  omega

theorem queueResetReports : Rules.QueueResetReports := by
  intro s die q hc hd hr ho hp hu hg hprov
  have done : resetDone s die q = true := by
    simp only [resetDone, Bool.and_eq_true, Bool.not_eq_true', List.any_eq_false, List.all_eq_true, List.mem_filter,
      decide_eq_true_eq, List.any_eq_true, not_and, Bool.not_eq_true, not_exists]
    refine ⟨⟨⟨hp, hu⟩, ?_⟩, ?_⟩
    · intro d hd u hu' hown w hw g hg' hid
      exact hprov d hd u hu' hown w hw g hg'.1 hg'.2.1 hg'.2.2 hid
    · intro g hg'
      obtain ⟨hquiet, hrec⟩ := hg g hg'.1 hg'.2.1 hg'.2.2
      exact ⟨hquiet, fun r hr' hid => by simp [hrec r hr' hid]⟩
  have run : exec (.queueResetReport die) s =
      .next (setQdesc (setQdesc (modDie s die (resetReported q)) die q 247 240 6) die q 239 238 0) := by
    show execQueueResetReport die s = _
    simp only [execQueueResetReport, hr, List.reverse_singleton, List.find?_cons, done]
    rfl
  have hbase : ∀ d, (resetReported q d).qdescBase = d.qdescBase := fun _ => rfl
  rw [← qdescAddr_eq] at ho
  have effect := descriptorSet_modDie hc hbase ho (hi := 247) (lo := 240) (hi' := 239) (lo' := 238) 6 0
    (by omega) (by omega) (by omega) (by omega)
  refine ⟨_, run, ?_, ?_, ?_, fun hq => ?_⟩
  · rw [effect.only]
    rfl
  · rw [effect.value, if_pos rfl]
  · rw [effect.only.dieOf, dieOf_modDie hd]
    simp [resetReported, hr]
  · rw [effect.only.dieOf, dieOf_modDie hd]
    have hq' : bits (dieOf s die).qctl.toNat 11 0 = q := by simpa [bits] using hq
    simp only [resetReported, hq', if_true, qctl_notBusy]

end Sys2Proof.QueueControl
end

section
/-! PROOF. Scheduler cores that fail, the standby and the end of a wait (R305, R307, R308, R391). -/

namespace Sys2Proof.QueueControl

open Sys2Proof.Machine Sys2Proof.Laws

/-! ### The queues of a die stop (R307, R308) -/

/-- A queue that runs stops with err 7; any other stays. -/
def stopQueue (die : Nat) (s : State) (q : Nat) : State :=
  if qState (qdesc s die q) = 1 then queueError s die q 7 else s

theorem stopQueues_eq (s : State) (die : Nat) : stopQueues s die =
    if (dieOf s die).qdescWritten then (List.range 4096).foldl (stopQueue die) s else s := rfl

theorem onlyMem_stopQueue (die : Nat) (s : State) (q : Nat) : OnlyMem s (stopQueue die s q) := by
  unfold stopQueue
  split
  · next h => exact onlyMem_queueError h 7
  · exact .refl s

theorem onlyMem_stopQueues (s : State) (die : Nat) : OnlyMem s (stopQueues s die) := by
  rw [stopQueues_eq]
  split
  · exact .foldl (onlyMem_stopQueue die) _ s
  · exact .refl s

/-- The descriptor of a queue when the running queues of its die have stopped. -/
def stoppedIfRunning (x : Nat) : Nat := if Rules.dState x = 1 then Rules.stopped x 7 else x

theorem descriptorSet_stopQueue {s : State} (hm : MemOk s) (die q : Nat) :
    DescriptorSet s (stopQueue die s q) die q (stoppedIfRunning (qdesc s die q)) := by
  unfold stopQueue stoppedIfRunning
  rw [qState_eq]
  split
  · next h => exact descriptorSet_queueError hm h 7
  · refine ⟨.refl s, hm, fun k => ?_⟩
    split
    · next h => rw [h]
    · rfl

/-- The running queues below `n` stop, and the descriptor of every other queue is as it was. -/
theorem qdesc_stopQueue_foldl {s : State} (hm : MemOk s) (die n : Nat) :
    MemOk ((List.range n).foldl (stopQueue die) s) ∧ ∀ q, qdesc ((List.range n).foldl (stopQueue die) s) die q =
      if q < n then stoppedIfRunning (qdesc s die q) else qdesc s die q := by
  induction n with
  | zero => exact ⟨hm, fun q => rfl⟩
  | succ n ih =>
    obtain ⟨hmem, hval⟩ := ih
    have last := descriptorSet_stopQueue hmem die n
    rw [List.range_succ, List.foldl_append, List.foldl_cons, List.foldl_nil]
    refine ⟨last.memory, fun q => ?_⟩
    rw [last.value, hval, hval]
    rcases Nat.lt_trichotomy q n with h | h | h
    · rw [if_neg (by omega), if_pos h, if_pos (by omega)]
    · subst h
      simp
    · rw [if_neg (by omega), if_neg (by omega), if_neg (by omega)]

theorem qdesc_stopQueues {s : State} (hm : MemOk s) {die : Nat} (hw : (dieOf s die).qdescWritten = true) {q : Nat}
    (hq : q < 4096) : qdesc (stopQueues s die) die q = stoppedIfRunning (qdesc s die q) := by
  rw [stopQueues_eq, hw, if_pos rfl, (qdesc_stopQueue_foldl hm die 4096).2, if_pos hq]

/-! ### A scheduler core fails (R307) -/

/-- The die when the core of a slot has failed. -/
def coreDown (core : Nat) (d : Die) : Die :=
  { d with
    cpstat := d.cpstat &&& ~~~(BitVec.ofNat 32 (2 ^ core)),
    scheds := updAt core (fun c => { c with failed := true }) d.scheds }

/-- The die when no standby takes the place of the failed core: CPSTAT.lost is set. -/
def coreLost (core : Nat) (d : Die) : Die :=
  { coreDown core d with cpstat := (coreDown core d).cpstat ||| 0x20000000#32 }

/-- None of the four slots has failed. -/
def NoneFailed (s : State) (die : Nat) : Prop := ∀ i, i < 4 → ((dieOf s die).scheds.getD i Sched.reset).failed = false

theorem noneFailed_iff {s : State} {die : Nat} :
    ((List.range 4).all fun i => !((dieOf s die).scheds.getD i Sched.reset).failed) = true ↔ NoneFailed s die := by
  simp [NoneFailed, List.all_eq_true]

theorem schedulerCoreFailed_again {s : State} {die core : Nat}
    (h : ((dieOf s die).scheds.getD core Sched.reset).failed = true) : exec (.schedulerCoreFailed die core) s = .next s :=
  if_pos (by rw [h, Bool.or_true])

theorem schedulerCoreFailed_eq {s : State} {die core : Nat} (hc : core < 4)
    (h : ((dieOf s die).scheds.getD core Sched.reset).failed = false) : exec (.schedulerCoreFailed die core) s =
      if (bit (dieOf s die).cpstat.toNat 30 &&
        (List.range 4).all fun i => !((dieOf s die).scheds.getD i Sched.reset).failed) = true
      then .next (modDie s die (coreDown core))
      else .next (hostIrq (stopQueues (modDie s die (coreLost core)) die) die) := by
  have hf : ¬(decide (4 ≤ core) || ((dieOf s die).scheds.getD core Sched.reset).failed) = true := by
    rw [h, Bool.or_false, decide_eq_true_eq]
    omega
  have hdown : modDie s die (coreDown core) = modDie (modSched s die core fun c => { c with failed := true }) die
      fun d => { d with cpstat := d.cpstat &&& ~~~(BitVec.ofNat 32 (2 ^ core)) } := by
    rw [modSched, modDie_modDie]
    rfl
  have hlost : modDie s die (coreLost core) = modDie (modDie s die (coreDown core)) die
      fun d => { d with cpstat := d.cpstat ||| 0x20000000#32 } := by
    rw [modDie_modDie]
    rfl
  rw [hlost, hdown]
  exact if_neg hf

theorem not_two_pow_slot {core : Nat} (h : core < 4) :
    ~~~(BitVec.ofNat 32 (2 ^ core)) = BitVec.ofNat 32 (2 ^ 32 - 1 - 2 ^ core) := by
  have slots : ∀ k : Fin 4, ~~~(BitVec.ofNat 32 (2 ^ k.val)) = BitVec.ofNat 32 (2 ^ 32 - 1 - 2 ^ k.val) := by decide
  exact slots ⟨core, h⟩

/-! ### The standby takes over (R307) -/

/-- The die when the standby, slot 4, has taken the place of the failed core of a slot. -/
def standbyIn (core : Nat) (spare : Sched) (d : Die) : Die :=
  { d with
    cpstat := (d.cpstat &&& ~~~0x40000000#32) ||| 0x80000000#32 ||| BitVec.ofNat 32 (2 ^ core),
    scheds := updAt 4 (fun c => { c with failed := true }) (updAt core (fun _ => spare) d.scheds) }

theorem standbyTakeover_eq {s : State} {die core : Nat} (hc : core < 4)
    (h : ((dieOf s die).scheds.getD core Sched.reset).failed = true)
    (hlow : ∀ i, i < core → ((dieOf s die).scheds.getD i Sched.reset).failed = false)
    (hb : (dieOf s die).cpstat.getLsbD 30 = true) : exec (.standbyTakeover die) s =
      .next (hostIrq { modDie s die (standbyIn core ((dieOf s die).scheds.getD 4 Sched.reset)) with
        justSet := .takeover die :: s.justSet } die) := by
  have hfind : ((List.range 4).find? fun i => ((dieOf s die).scheds.getD i Sched.reset).failed) = some core := by
    rw [List.find?_range_eq_some]
    exact ⟨h, List.mem_range.2 hc, fun i hi => by rw [hlow i hi]; rfl⟩
  show execStandbyTakeover die s = _
  simp only [execStandbyTakeover, hfind, bit_toNat, hb, if_true, modSched, modDie_modDie]
  rfl

/-- The cores of a die when the standby has taken a slot. -/
theorem scheds_standbyIn {core : Nat} {l : List Sched} (hc : core < 4) (hl : l.length = 5) :
    updAt 4 (fun c => { c with failed := true }) (updAt core (fun _ => l.getD 4 Sched.reset) l) =
      (l.set core (l.getD 4 Sched.reset)).set 4 { l.getD 4 Sched.reset with failed := true } := by
  have hspare : (l.set core (l.getD 4 Sched.reset)).getD 4 Sched.reset = l.getD 4 Sched.reset := by
    simp [List.getElem?_set_ne (show core ≠ 4 by omega)]
  have hlen : 4 < (l.set core (l.getD 4 Sched.reset)).length := by
    rw [List.length_set]
    omega
  rw [updAt_eq_set (i := core) (by omega) _ Sched.reset, updAt_eq_set hlen _ Sched.reset, hspare]

theorem standby : Rules.Standby := by
  intro s die core hd hc hl
  refine ⟨schedulerCoreFailed_again, fun hfirst hb => ?_, fun hf hor => ?_, fun hf hlow hb => ?_⟩
  · have run := schedulerCoreFailed_eq hc (hfirst core hc)
    rw [if_pos (by rw [bit_toNat, hb, Bool.true_and]; exact noneFailed_iff.2 hfirst)] at run
    refine ⟨_, run, rfl, ?_⟩
    rw [dieOf_modDie hd, coreDown, not_two_pow_slot hc, updAt_eq_set (by omega) _ Sched.reset]
  · have hdown : ¬((dieOf s die).cpstat.getLsbD 30 &&
        (List.range 4).all fun i => !((dieOf s die).scheds.getD i Sched.reset).failed) = true := by
      rw [Bool.and_eq_true, noneFailed_iff]
      rintro ⟨hb, hfirst⟩
      rcases hor with h | h
      · exact h hfirst
      · exact absurd (h.symm.trans hb) Bool.false_ne_true
    have run := schedulerCoreFailed_eq hc hf
    rw [bit_toNat, if_neg hdown] at run
    have only := onlyMem_stopQueues (modDie s die (coreLost core)) die
    have hdie : dieOf (hostIrq (stopQueues (modDie s die (coreLost core)) die) die) die = coreLost core (dieOf s die) := by
      rw [← dieOf_modDie hd (coreLost core), ← only.dieOf]
      rfl
    have hbase : ∀ d, (coreLost core d).qdescBase = d.qdescBase := fun _ => rfl
    refine ⟨_, run, ?_, ?_, ?_, fun hm hw q hq => ?_⟩
    · rw [hdie, coreLost, coreDown, not_two_pow_slot hc]
    · rw [hdie, coreLost, coreDown, updAt_eq_set (by omega) _ Sched.reset]
      simp [hl, Nat.lt_succ_of_lt hc]
    · simp [hostIrq]
    · have hw' : (dieOf (modDie s die (coreLost core)) die).qdescWritten = true := by
        rw [dieOf_modDie hd]
        exact hw
      have hstop := qdesc_stopQueues (memOk_modDie hm die (coreLost core)) hw' hq
      rwa [qdesc_modDie s die hbase] at hstop
  · refine ⟨_, standbyTakeover_eq hc hf hlow hb, ?_, by simp [hostIrq]⟩
    show dieOf (modDie s die (standbyIn core ((dieOf s die).scheds.getD 4 Sched.reset))) die = _
    rw [dieOf_modDie hd, standbyIn, scheds_standbyIn hc hl]
    rfl

/-! ### The wait of an `xsw` ends (R305) -/

theorem schedDone_eq (s : State) (d : BitVec 5) (v : BitVec 64) : schedDone s d v = Rules.scDone s d v := by
  unfold schedDone Rules.scDone
  show modSched s s.cur.die s.cur.core _ = modSched s s.cur.die s.cur.core _
  congr 1
  funext c
  unfold Sched.setReg
  by_cases hd : d = 0#5
  · simp [hd]
  · have hn : d.toNat ≠ 0 := fun h => hd (BitVec.eq_of_toNat_eq h)
    simp [hd, hn]

theorem waitEnds : Rules.WaitEnds := by
  intro s die core rd a since bound s1 hw _
  have hw' : (schedOf s1).wait = some (rd, a, bound, since) := hw
  have run : exec (.xswWaitTimeout die core) s = if since * 6 + 4096 * 5 ≤ s.ns * 6
      then .next (schedDone (modSched s1 die core fun c => { c with wait := none }) (BitVec.ofNat 5 rd)
        (BitVec.ofNat 64 (readN s .phys a 8)))
      else .next s1 := by
    show execXswWaitTimeout die core s = _
    unfold execXswWaitTimeout
    simp only [s1] at hw'
    simp only [hw']
    rfl
  rw [run, schedDone_eq]
  exact ⟨fun h => if_pos h, fun h => if_neg (Nat.not_le.2 h)⟩

end Sys2Proof.QueueControl
end

section
/-! SUPPORT. What the operations that take a grid off the machine (R152, R276, R348) keep: how every grid ended or
completed, and each die's command register and descriptor base. -/

namespace Sys2Proof.QueueControl

open Sys2Proof.Machine Sys2Proof.Laws

/-- What the queue controls read of a grid: its id, and how it ended or completed. -/
def gridEnd (g : Grid) : Nat × Option Nat × Bool := (g.id, g.ended, g.complete)

/-- What the queue controls read of a die: QCTL and the base of its descriptors. -/
def dieControl (d : Die) : BitVec 32 × BitVec 64 := (d.qctl, d.qdescBase)

/-- From `s` to `t` no grid ended or completed, and no die's QCTL or descriptor base changed. -/
structure SameControl (s t : State) : Prop where
  grids : t.grids.map gridEnd = s.grids.map gridEnd
  dies : t.dies.map dieControl = s.dies.map dieControl

namespace SameControl

variable {s t : State}

theorem refl (s : State) : SameControl s s := ⟨rfl, rfl⟩

/-- A step that touches neither grids nor dies. -/
theorem upto {u : State} (h : SameControl s t) (hg : u.grids = t.grids) (hd : u.dies = t.dies) : SameControl s u := by
  constructor
  · rw [hg, h.grids]
  · rw [hd, h.dies]

theorem foldl {α : Type} {f : State → α → State} (hf : ∀ t x, SameControl s t → SameControl s (f t x))
    (l : List α) (h : SameControl s t) : SameControl s (l.foldl f t) :=
  List.foldlRecOn l f h fun t h x _ => hf t x h

/-! ### Updates of the state -/

theorem modDie (h : SameControl s t) (d : Nat) {f : Die → Die} (hf : ∀ x, dieControl (f x) = dieControl x) :
    SameControl s (modDie t d f) := ⟨h.grids, (updAt_map_self dieControl d f t.dies hf).trans h.dies⟩

theorem modGrid (h : SameControl s t) (g : Nat) {f : Grid → Grid} (hf : ∀ x, gridEnd (f x) = gridEnd x) :
    SameControl s (modGrid t g f) := ⟨(updWhere_map_self gridEnd _ f t.grids hf).trans h.grids, h.dies⟩

theorem modBlock (h : SameControl s t) (g b : Nat) (f : Block → Block) : SameControl s (modBlock t g b f) :=
  h.modGrid g fun _ => rfl

theorem modCluster (h : SameControl s t) (d c : Nat) (f : Cluster → Cluster) : SameControl s (modCluster t d c f) :=
  h.modDie d fun _ => rfl

theorem modCore (h : SameControl s t) (d q : Nat) (f : Core → Core) : SameControl s (modCore t d q f) :=
  h.upto (modCore_grids t d q f) (modCore_dies t d q f)

theorem modWarp (h : SameControl s t) (d q n : Nat) (f : Warp → Warp) : SameControl s (modWarp t d q n f) :=
  h.upto (modWarp_grids t d q n f) (modWarp_dies t d q n f)

theorem modWarpUid (h : SameControl s t) (u : Nat) (f : Warp → Warp) : SameControl s (modWarpUid t u f) :=
  h.upto (modWarpUid_grids t u f) (modWarpUid_dies t u f)

theorem modKernel (h : SameControl s t) (d q g : Nat) (f : Kernel → Kernel) : SameControl s (modKernel t d q g f) :=
  h.upto (modKernel_grids t d q g f) (modKernel_dies t d q g f)

theorem setLocal (h : SameControl s t) (l : Local) : SameControl s (setLocal t l) :=
  h.upto (setLocal_grids t l) (setLocal_dies t l)

theorem clearPoison (h : SameControl s t) (sp : Space) (a n : Nat) : SameControl s (clearPoison t sp a n) := h.upto rfl rfl

theorem addPoison (h : SameControl s t) (sp : Space) (k : Nat) : SameControl s (addPoison t sp k) := by
  unfold Machine.addPoison
  split
  · exact h
  · exact h.upto rfl rfl

theorem writeByte (h : SameControl s t) (sp : Space) (a : Nat) (b : Byte) : SameControl s (writeByte t sp a b) := by
  unfold Machine.writeByte
  split
  · exact h.upto rfl rfl
  · exact h.setLocal _

theorem writeBytes (h : SameControl s t) (sp : Space) (a : Nat) (l : List Byte) : SameControl s (writeBytes t sp a l) := by
  induction l generalizing t a with
  | nil => exact h
  | cons b l ih => exact ih (h.writeByte sp a b) _

theorem devWrite (h : SameControl s t) (a n v : Nat) : SameControl s (devWrite t a n v) := by
  unfold Machine.devWrite
  split
  · exact h.upto rfl rfl
  · exact h.writeBytes .phys a _

theorem dropOps (h : SameControl s t) (p : Op → Bool) : SameControl s (dropOps t p) := h.upto rfl rfl

/-! ### Warps, slots and reservations (R173, R211, R248, R276) -/

theorem settleBarw (h : SameControl s t) (d q n : Nat) : SameControl s (settleBarw t d q n) := by
  unfold Machine.settleBarw
  split
  · exact h
  · split
    · exact h.modWarp d q n _
    · exact h

theorem writeSectors (h : SameControl s t) (sp : Space) (l : List (Nat × Bool × List Byte)) :
    SameControl s (writeSectors t sp l) := by
  refine foldl (fun t x h => ?_) l h
  have stored := (h.writeBytes sp (32 * x.1) x.2.2).clearPoison sp (32 * x.1) 32
  dsimp only
  split
  · exact addPoison (setLocal stored _) sp x.1
  · exact stored.setLocal _

theorem grantSlot (h : SameControl s t) (d q g k : Nat) : SameControl s (grantSlot t d q g k) := by
  unfold Machine.grantSlot
  split
  · exact h
  · split
    · exact h
    · split
      · exact h
      · exact modWarpUid (writeSectors (modKernel h d q g _) _ _) _ _

theorem freeSlot (h : SameControl s t) (d q g k : Nat) : SameControl s (freeSlot t d q g k) := by
  unfold Machine.freeSlot
  exact grantSlot (modKernel h d q g _) d q g k

theorem freeWarpSlots (h : SameControl s t) (d q g u : Nat) : SameControl s (freeWarpSlots t d q g u) := by
  unfold Machine.freeWarpSlots
  have claims := h.modKernel d q g fun kn => { kn with claims := kn.claims.filter fun c => c.warp ≠ u }
  dsimp only
  split
  · exact claims
  · exact foldl (fun t x h => h.freeSlot d q g x.1) _ claims

theorem removeWarps (h : SameControl s t) (d q g b : Nat) : SameControl s (removeWarps t d q g b) := by
  refine foldl (fun t w h => ?_) _ h
  dsimp only
  split
  · exact settleBarw (h.modWarp d q w.slot _) d q w.slot
  · exact modCore (h.freeWarpSlots d q g w.uid) d q _

theorem keepKernel (h : SameControl s t) (d q g : Nat) : SameControl s (keepKernel t d q g) := by
  unfold Machine.keepKernel
  split
  · exact h.upto rfl rfl
  · exact h

theorem releaseKernel (h : SameControl s t) (d q g : Nat) : SameControl s (releaseKernel t d q g) := by
  unfold Machine.releaseKernel
  split
  · exact h
  · exact upto (keepKernel (dropOps (modCore h d q _) _) d q g) rfl rfl

/-! ### Blocks (R152, R265, R276) -/

theorem keepScratch (h : SameControl s t) (d q g b : Nat) : SameControl s (keepScratch t d q g b) := by
  unfold Machine.keepScratch
  split
  · exact h.upto rfl rfl
  · exact h

theorem leaveCore (h : SameControl s t) (g b : Nat) (st : BlockState) : SameControl s (leaveCore t g b st) := by
  unfold Machine.leaveCore
  split
  · exact h
  · exact releaseKernel (modCore (keepScratch (modBlock h g b _) _ _ g b) _ _ _) _ _ g

theorem dropCuttings (h : SameControl s t) (d q g b : Nat) : SameControl s (dropCuttings t d q g b) := h.modCore d q _

theorem endWindows (h : SameControl s t) (g b : Nat) : SameControl s (endWindows t g b) := h.upto rfl rfl

theorem discardEngines (h : SameControl s t) (g b : Nat) (l : List Nat) : SameControl s (discardEngines t g b l) :=
  h.upto rfl rfl

theorem markGone (h : SameControl s t) (g b : Nat) : SameControl s (markGone t g b) := by
  refine ⟨h.grids, ?_⟩
  unfold Machine.markGone
  rw [List.map_map, ← h.dies]
  rfl

theorem clearSkids (h : SameControl s t) (d q g b : Nat) : SameControl s (clearSkids t d q g b) := by
  unfold Machine.clearSkids
  dsimp only
  split
  · exact h.modCluster d _ _
  · exact h

theorem killBlock (h : SameControl s t) (g b : Nat) (st : BlockState) : SameControl s (killBlock t g b st) := by
  unfold Machine.killBlock
  have gone := h.markGone g b
  split
  · exact h
  · split
    · exact leaveCore (endWindows (dropCuttings (removeWarps (discardEngines (clearSkids gone _ _ g b) g b _) _ _ g b)
        _ _ g b) g b) g b st
    · split
      · exact gone.modBlock g b _
      · exact gone.discardEngines g b []

/-! ### Saved contexts (R337) and updates owed to signals (R313, R314) -/

theorem writeHeader (h : SameControl s t) (c : Context) : SameControl s (writeHeader t c) := h.devWrite _ _ _

theorem dropContext (h : SameControl s t) (id : Nat) : SameControl s (dropContext t id) := by
  unfold Machine.dropContext
  split
  · exact h
  · have dropped : SameControl s { t with contexts := t.contexts.filter fun x => x.id ≠ id } := h.upto rfl rfl
    exact foldl (fun t c h => h.writeHeader c) _ (devWrite dropped _ _ _)

theorem dropPacket (h : SameControl s t) (d q k : Nat) : SameControl s (dropPacket t d q k) := h.modDie d fun _ => rfl

theorem addUpdate (h : SameControl s t) (d : Nat) (u : Update) : SameControl s (addUpdate t d u) := h.modDie d fun _ => rfl

theorem queueUpdate (h : SameControl s t) (d : Nat) (u : Update) : SameControl s (queueUpdate t d u) := by
  unfold Machine.queueUpdate
  split
  · split
    · exact h.dropPacket d u.queue _
    · exact h
  · exact h.addUpdate d u

theorem resumeWarps (h : SameControl s t) : SameControl s (resumeWarps t) := h.upto rfl rfl

theorem packetSignal (h : SameControl s t) (d q asid csig : Nat) (v : BitVec 64) (k : Option Nat) :
    SameControl s (packetSignal t d q asid csig v k) := h.queueUpdate d _

theorem setQdesc (h : SameControl s t) (d q hi lo v : Nat) : SameControl s (setQdesc t d q hi lo v) := h.devWrite _ _ _

end SameControl

end Sys2Proof.QueueControl
end

section
/-! PROOF. The reset of a queue (R325). -/

namespace Sys2Proof.QueueControl

open Sys2Proof.Machine Sys2Proof.Laws

/-! ### How a grid ended -/

/-- How the grid of an id ended or completed. -/
def endOf (s : State) (i : Nat) : Option (Nat × Option Nat × Bool) := (gridAt s i).map gridEnd

theorem endOf_eq (s : State) (i : Nat) : endOf s i = (s.grids.map gridEnd).find? fun e => e.1 = i := by
  rw [List.find?_map]
  rfl

theorem endOf_congr {s t : State} (h : t.grids.map gridEnd = s.grids.map gridEnd) (i : Nat) : endOf t i = endOf s i := by
  rw [endOf_eq, endOf_eq, h]

theorem endOf_open {s : State} {g : Grid} {i : Nat} (h : gridAt s i = some g) (he : g.ended = none)
    (hc : g.complete = false) : endOf s i = some (i, none, false) := by
  have hid : g.id = i := by simpa using List.find?_some h
  rw [endOf, h, Option.map_some, gridEnd, hid, he, hc]

theorem dieControl_dieOf {s t : State} (h : t.dies.map dieControl = s.dies.map dieControl) (d : Nat) :
    dieControl (dieOf t d) = dieControl (dieOf s d) := by
  have hget := congrArg (fun l => l[d]?.getD (dieControl Die.reset)) h
  simp only [List.getElem?_map, Option.getD_map] at hget
  rw [dieOf, dieOf, List.getD_eq_getElem?_getD, List.getD_eq_getElem?_getD, hget]

/-- A grid that has ended with cause 5 (R348): no neighbourhood of it is placed again. -/
def endedGrid (x : Grid) : Grid :=
  { x with
    ended := some 5,
    hoods := x.hoods.map fun h => { h with
      st := .done, freeFor := none,
      blocks := h.blocks.map fun b => if b.st = .waiting ∧ b.ran then { b with st := .killed } else b } }

/-- The end of a grid that has neither ended nor completed (R348): its blocks are killed, then it has ended with cause 5,
and what follows ends nothing. -/
theorem endGrid_stages {s : State} {g : Nat} {x : Grid} (hx : gridAt s g = some x) (he : x.ended = none)
    (hc : x.complete = false) : ∃ u, SameControl s u ∧ SameControl (modGrid u g endedGrid) (endGrid s g 5) := by
  have hopen : ¬(x.ended.isSome || x.complete) = true := by simp [he, hc]
  have kills : SameControl s ((x.hoods.flatMap (·.blocks)).foldl (fun st b =>
      if b.st = .placed then killBlock st g b.idx .killed else st) s) := by
    refine .foldl (fun t b h => ?_) _ (.refl s)
    split
    · exact h.killBlock g b.idx .killed
    · exact h
  refine ⟨_, kills, ?_⟩
  unfold endGrid
  rw [hx]
  dsimp only
  rw [if_neg hopen, if_pos rfl]
  refine SameControl.queueUpdate (SameControl.resumeWarps (SameControl.modDie ?_ x.die ?_)) x.die _
  · exact .foldl (fun t c h => h.dropContext c.id) _ (.refl _)
  · exact fun _ => rfl

theorem endOf_modGrid {s : State} {g : Nat} (h : endOf s g = some (g, none, false)) (i : Nat) :
    endOf (modGrid s g endedGrid) i = if i = g then some (i, some 5, false) else endOf s i := by
  have hmap : gridAt (modGrid s g endedGrid) i = (gridAt s i).map fun x => if x.id = g then endedGrid x else x := by
    unfold gridAt modGrid updWhere
    rw [find?_map_of]
    · simp only [decide_eq_true_eq]
    · intro x
      split <;> rfl
  unfold endOf at h ⊢
  rw [hmap]
  split
  · next hi =>
    subst hi
    obtain ⟨x, hx, hend⟩ := Option.map_eq_some_iff.1 h
    simp only [gridEnd, Prod.mk.injEq] at hend
    obtain ⟨hid, he, hc⟩ := hend
    simp [hx, hid, gridEnd, endedGrid, hc]
  · next hi =>
    cases hx : gridAt s i with
    | none => rfl
    | some x =>
      have hid : x.id = i := by simpa using List.find?_some hx
      simp [hid, hi]

/-- A grid that is not there, or has ended or completed, stays (R348). -/
theorem endGrid_over {s : State} {g : Nat} (h : endOf s g ≠ some (g, none, false)) : endGrid s g 5 = s := by
  unfold endGrid
  split
  · rfl
  · next x hx =>
    refine if_pos ?_
    cases he : x.ended with
    | some c => rfl
    | none =>
      cases hc : x.complete with
      | true => rfl
      | false => exact absurd (endOf_open hx he hc) h

theorem gridAt_of_open {s : State} {i : Nat} (h : endOf s i = some (i, none, false)) :
    ∃ x, gridAt s i = some x ∧ x.ended = none ∧ x.complete = false := by
  obtain ⟨x, hx, he⟩ := Option.map_eq_some_iff.1 h
  simp only [gridEnd, Prod.mk.injEq] at he
  exact ⟨x, hx, he.2.1, he.2.2⟩

theorem dies_endGrid (s : State) (g : Nat) : (endGrid s g 5).dies.map dieControl = s.dies.map dieControl := by
  by_cases h : endOf s g = some (g, none, false)
  · obtain ⟨x, hx, he, hc⟩ := gridAt_of_open h
    obtain ⟨u, hu, ht⟩ := endGrid_stages hx he hc
    exact ht.dies.trans hu.dies
  · rw [endGrid_over h]

/-- The end of a grid gives cause 5 to that grid, if it had not ended, and leaves how every other one ended. -/
theorem endOf_endGrid (s : State) (g i : Nat) : endOf (endGrid s g 5) i =
    if i = g ∧ endOf s i = some (i, none, false) then some (i, some 5, false) else endOf s i := by
  by_cases h : endOf s g = some (g, none, false)
  · obtain ⟨x, hx, he, hc⟩ := gridAt_of_open h
    obtain ⟨u, hu, ht⟩ := endGrid_stages hx he hc
    rw [endOf_congr ht.grids, ← endOf_congr hu.grids i]
    have hu' : endOf u g = some (g, none, false) := (endOf_congr hu.grids g).trans h
    rw [endOf_modGrid hu']
    split
    · next hi => simp [hi, hu']
    · next hi => simp [hi]
  · rw [endGrid_over h, if_neg]
    rintro ⟨rfl, hi⟩
    exact h hi

theorem dies_endGrid_foldl (l : List Grid) (s : State) :
    (l.foldl (fun st g => endGrid st g.id 5) s).dies.map dieControl = s.dies.map dieControl := by
  induction l generalizing s with
  | nil => rfl
  | cons g l ih => exact (ih _).trans (dies_endGrid s g.id)

theorem endOf_endGrid_foldl (l : List Grid) (s : State) (i : Nat) : endOf (l.foldl (fun st g => endGrid st g.id 5) s) i =
    if i ∈ l.map (·.id) ∧ endOf s i = some (i, none, false) then some (i, some 5, false) else endOf s i := by
  induction l generalizing s with
  | nil => simp
  | cons g l ih =>
    rw [List.foldl_cons, ih, endOf_endGrid]
    simp only [List.map_cons, List.mem_cons]
    by_cases ho : endOf s i = some (i, none, false)
    · by_cases hg : i = g.id
      · subst hg
        simp [ho]
      · simp [ho, hg]
    · simp [ho]

/-! ### What a reset changes (R325) -/

/-- Nothing but the dies changed. -/
def OnlyDies (s t : State) : Prop := t = { s with dies := t.dies }

theorem OnlyDies.trans {s t u : State} (h : OnlyDies s t) (h' : OnlyDies t u) : OnlyDies s u := by
  unfold OnlyDies at *
  rw [h] at h'
  exact h'

theorem OnlyDies.foldl {α : Type} {f : State → α → State} (hf : ∀ s x, OnlyDies s (f s x)) (l : List α) (s : State) :
    OnlyDies s (l.foldl f s) :=
  List.foldlRecOn l f (motive := OnlyDies s) rfl fun t h x _ => h.trans (hf t x)

theorem onlyDies_packetSignal (s : State) (d q asid csig : Nat) (v : BitVec 64) (k : Option Nat) :
    OnlyDies s (packetSignal s d q asid csig v k) := by
  unfold packetSignal queueUpdate
  dsimp only
  split
  · split <;> rfl
  · rfl

/-- The grids of a queue. -/
def gridsOf (s : State) (die q : Nat) : List Grid := s.grids.filter fun g => g.die = die && g.queue = q

/-- The grids of a queue end, and every engine operation of its work is discarded (R325 steps 2 and 3). -/
def endGrids (s : State) (die q : Nat) : State :=
  let mine := gridsOf s die q
  let t := (mine.filter fun g => g.ended.isNone && !g.complete).foldl (fun st g => endGrid st g.id 5) s
  { t with ops := t.ops.filter fun o => !(queueTransfer o die q) && !(mine.any fun g => o.grid = g.id && o.isEngine) }

/-- The signals of the queue's other packets receive −5 (R325 step 6), and the reset is to be reported. -/
def signalReset (s : State) (die q asid : Nat) (left : List Packet) : State :=
  modDie (left.foldl (fun st p => packetSignal st die q asid p.csig (negative 5) (some p.idx)) s) die
    fun d => { d with resetting := q :: d.resetting }

/-- The steps of a reset: the descriptor, the updates that its packets had owed, the grids, and the signals. -/
theorem resetQueue_stages (s : State) (die q : Nat) : ∃ (f : Die → Die) (asid : Nat) (left : List Packet),
    (∀ d, dieControl (f d) = dieControl d) ∧ resetQueue s die q =
      signalReset (endGrids (modDie (setQdesc s die q 239 238 3) die f) die q) die q asid left := by
  refine ⟨_, _, _, ?_, rfl⟩
  exact fun _ => rfl

theorem setQdesc_grids (s : State) (die q hi lo v : Nat) : (setQdesc s die q hi lo v).grids = s.grids := by
  by_cases h : fwDenied s .phys (qdescAddr s die q) 64 = true
  · rw [setQdesc_locked h]
    rfl
  · rw [onlyMem_setQdesc (Bool.eq_false_iff.2 h)]

theorem mem_gridsOf {s : State} {die q : Nat} {g : Grid} :
    g ∈ gridsOf s die q ↔ g ∈ s.grids ∧ g.die = die ∧ g.queue = q := by
  simp [gridsOf]

theorem dies_endGrids (s : State) (die q : Nat) : (endGrids s die q).dies.map dieControl = s.dies.map dieControl :=
  dies_endGrid_foldl _ s

/-- A grid of the queue that had neither ended nor completed has ended with cause 5. -/
theorem endOf_endGrids {s : State} {die q : Nat} {g : Grid} (hg : g ∈ gridsOf s die q) (he : g.ended = none)
    (hc : g.complete = false) (hat : endOf s g.id = some (g.id, none, false)) :
    endOf (endGrids s die q) g.id = some (g.id, some 5, false) := by
  have hmem : g.id ∈ ((gridsOf s die q).filter fun g => g.ended.isNone && !g.complete).map (·.id) :=
    List.mem_map.2 ⟨g, List.mem_filter.2 ⟨hg, by simp [he, hc]⟩, rfl⟩
  exact (endOf_endGrid_foldl _ s g.id).trans (if_pos ⟨hmem, hat⟩)

theorem ops_endGrids {s : State} {die q : Nat} {g : Grid} (hg : g ∈ gridsOf s die q) {o : Op}
    (ho : o ∈ (endGrids s die q).ops) (hid : o.grid = g.id) : o.isEngine = false := by
  have kept := (List.mem_filter.1 ho).2
  simp only [Bool.and_eq_true, Bool.not_eq_true', List.any_eq_false, decide_eq_true_eq, not_and, Bool.not_eq_true] at kept
  exact kept.2 g hg hid

/-- With every grid of the queue ended or complete, operations alone go. -/
theorem endGrids_over {s : State} {die q : Nat} (h : ∀ g ∈ gridsOf s die q, g.ended ≠ none ∨ g.complete = true) :
    endGrids s die q = { s with ops := (endGrids s die q).ops } := by
  have none : (gridsOf s die q).filter (fun g => g.ended.isNone && !g.complete) = [] := by
    rw [List.filter_eq_nil_iff]
    intro g hg
    rcases h g hg with hg | hg <;> simp [hg]
  unfold endGrids
  dsimp only
  rw [none]
  rfl

theorem onlyDies_signalReset (s : State) (die q asid : Nat) (left : List Packet) :
    OnlyDies s (signalReset s die q asid left) :=
  (OnlyDies.foldl (fun t _ => onlyDies_packetSignal t die q asid _ _ _) left s).trans rfl

theorem sameControl_signalReset (s : State) (die q asid : Nat) (left : List Packet) :
    SameControl s (signalReset s die q asid left) := by
  refine .modDie (.foldl (fun t p h => h.packetSignal die q asid _ _ _) left (.refl s)) die ?_
  exact fun _ => rfl

theorem resetting_signalReset {s : State} {die : Nat} (h : die < s.dies.length) (q asid : Nat) (left : List Packet) :
    q ∈ (dieOf (signalReset s die q asid left) die).resetting := by
  have same : SameControl s (left.foldl (fun st p => packetSignal st die q asid p.csig (negative 5) (some p.idx)) s) :=
    .foldl (fun t p h => h.packetSignal die q asid _ _ _) left (.refl s)
  have hlen := congrArg List.length same.dies
  rw [List.length_map, List.length_map] at hlen
  rw [signalReset, dieOf_modDie (by omega)]
  exact List.mem_cons_self

/-! ### The reset as a whole (R325) -/

theorem sameControl_descriptor (s : State) (die q : Nat) {f : Die → Die} (hf : ∀ d, dieControl (f d) = dieControl d) :
    SameControl s (modDie (setQdesc s die q 239 238 3) die f) :=
  ((SameControl.refl s).setQdesc die q 239 238 3).modDie die hf

theorem gridsOf_descriptor (s : State) (die q : Nat) (f : Die → Die) :
    gridsOf (modDie (setQdesc s die q 239 238 3) die f) die q = gridsOf s die q := by
  unfold gridsOf
  rw [modDie_grids, setQdesc_grids]

theorem dies_resetQueue (s : State) (die q : Nat) : (resetQueue s die q).dies.map dieControl = s.dies.map dieControl := by
  obtain ⟨f, asid, left, hf, hreset⟩ := resetQueue_stages s die q
  rw [hreset, (sameControl_signalReset _ die q asid left).dies, dies_endGrids, (sameControl_descriptor s die q hf).dies]

theorem resetting_resetQueue {s : State} {die : Nat} (h : die < s.dies.length) (q : Nat) :
    q ∈ (dieOf (resetQueue s die q) die).resetting := by
  obtain ⟨f, asid, left, hf, hreset⟩ := resetQueue_stages s die q
  have hdies := (dies_endGrids _ die q).trans (sameControl_descriptor s die q hf).dies
  have hlen := congrArg List.length hdies
  rw [List.length_map, List.length_map] at hlen
  rw [hreset]
  exact resetting_signalReset (by omega) q asid left

theorem ended_resetQueue {s : State} {die q : Nat} {g : Grid} (hg : g ∈ gridsOf s die q) (hat : gridAt s g.id = some g)
    (he : g.ended = none) (hc : g.complete = false) :
    ∃ g', gridAt (resetQueue s die q) g.id = some g' ∧ g'.ended = some 5 := by
  obtain ⟨f, asid, left, hf, hreset⟩ := resetQueue_stages s die q
  have hend : endOf (resetQueue s die q) g.id = some (g.id, some 5, false) := by
    rw [hreset, endOf_congr (sameControl_signalReset _ die q asid left).grids]
    refine endOf_endGrids (by rwa [gridsOf_descriptor]) he hc ?_
    rw [endOf_congr (sameControl_descriptor s die q hf).grids]
    exact endOf_open hat he hc
  obtain ⟨g', hg', hend'⟩ := Option.map_eq_some_iff.1 hend
  simp only [gridEnd, Prod.mk.injEq] at hend'
  exact ⟨g', hg', hend'.2.1⟩

theorem ops_resetQueue {s : State} {die q : Nat} {g : Grid} (hg : g ∈ gridsOf s die q) {o : Op}
    (ho : o ∈ (resetQueue s die q).ops) (hid : o.grid = g.id) : o.isEngine = false := by
  obtain ⟨f, asid, left, -, hreset⟩ := resetQueue_stages s die q
  rw [hreset, onlyDies_signalReset] at ho
  exact ops_endGrids (by rwa [gridsOf_descriptor]) ho hid

/-- A queue whose grids are all at their end is put into state 3, and of its grids nothing changes. -/
theorem resetQueue_over {s : State} {die q : Nat} (hm : MemOk s) (ho : fwDenied s .phys (qdescAddr s die q) 64 = false)
    (hover : ∀ g ∈ gridsOf s die q, g.ended ≠ none ∨ g.complete = true) :
    resetQueue s die q = { s with
      mem := (resetQueue s die q).mem, dies := (resetQueue s die q).dies, ops := (resetQueue s die q).ops } ∧
    qdesc (resetQueue s die q) die q = Rules.withField (qdesc s die q) 239 238 3 := by
  obtain ⟨f, asid, left, hf, hreset⟩ := resetQueue_stages s die q
  have effect := descriptorSet_setQdesc hm ho 3 (hi := 239) (lo := 238) (by omega) (by omega)
  have same := dies_resetQueue s die q
  have hstate : resetQueue s die q = { setQdesc s die q 239 238 3 with
      dies := (resetQueue s die q).dies, ops := (resetQueue s die q).ops } := by
    rw [hreset, onlyDies_signalReset, endGrids_over (by rwa [gridsOf_descriptor])]
    rfl
  constructor
  · rw [hstate, effect.only]
  · rw [← if_pos rfl (t := Rules.withField _ 239 238 3), ← effect.value q]
    apply qdesc_congr
    · rw [hstate]
    · rw [hstate]
    · rw [hstate]
    · rw [effect.only.dieOf]
      exact congrArg Prod.snd (dieControl_dieOf same die)

/-! ### The command (R325) -/

/-- The die when a word is written to QCTL. -/
def qctlWritten (w : BitVec 32) (d : Die) : Die := { d with qctl := w }

theorem qctlWritten_qdescBase (w : BitVec 32) (d : Die) : (qctlWritten w d).qdescBase = d.qdescBase := rfl

/-- The word of QCTL that commands the reset of a queue: cmd 2, busy on. -/
def resetWord (q : Nat) : BitVec 32 := BitVec.ofNat 32 (q + 2 ^ 13 + 2 ^ 31)

theorem resetWord_eq (q : Nat) (d : Die) : resetWord q = (Rules.commanded q 2 true d).qctl := by
  simp [resetWord, Rules.commanded]

theorem queueReset_refused {s : State} {die q : Nat} (h : ¬Rules.aQueue die q ∨ (dieOf s die).qctl.getLsbD 31 = true) :
    exec (.queueReset die q) s = .next s := by
  rw [← isQueue_iff, ← bit_toNat] at h
  exact if_pos (by simpa using h)

theorem queueReset_taken {s : State} {die q : Nat} (hq : Rules.aQueue die q) (hb : (dieOf s die).qctl.getLsbD 31 = false) :
    exec (.queueReset die q) s = .next (resetQueue (modDie s die (qctlWritten (resetWord q))) die q) := by
  rw [← isQueue_iff] at hq
  rw [← bit_toNat] at hb
  exact if_neg (by simp [hq, hb])

theorem queueResets : Rules.QueueResets := by
  intro s die q hd
  have hbase := qctlWritten_qdescBase (resetWord q)
  have hlen : die < (modDie s die (qctlWritten (resetWord q))).dies.length := by simpa [modDie, updAt] using hd
  refine ⟨queueReset_refused, fun hq hb => ⟨_, queueReset_taken hq hb, ?_, ?_, ?_, ?_, ?_⟩⟩
  · have hctl := congrArg Prod.fst (dieControl_dieOf (dies_resetQueue (modDie s die (qctlWritten (resetWord q))) die q) die)
    rw [dieOf_modDie hd] at hctl
    exact hctl.trans (resetWord_eq q _)
  · exact resetting_resetQueue hlen q
  · intro g hg hat hdie hqueue he hc
    have hmine : g ∈ gridsOf (modDie s die (qctlWritten (resetWord q))) die q := by
      rw [mem_gridsOf, modDie_grids]
      exact ⟨hg, hdie, hqueue⟩
    exact ended_resetQueue hmine (by rwa [gridAt, modDie_grids]) he hc
  · intro g hg hdie hqueue o ho hid
    have hmine : g ∈ gridsOf (modDie s die (qctlWritten (resetWord q))) die q := by
      rw [mem_gridsOf, modDie_grids]
      exact ⟨hg, hdie, hqueue⟩
    exact ops_resetQueue hmine ho hid
  · intro hm ho hover
    rw [← qdescAddr_eq] at ho
    have ho' : fwDenied (modDie s die (qctlWritten (resetWord q))) .phys
        (qdescAddr (modDie s die (qctlWritten (resetWord q))) die q) 64 = false := by
      rw [qdescAddr_modDie s die hbase]
      exact ho
    obtain ⟨hstate, hdesc⟩ := resetQueue_over (memOk_modDie hm die (qctlWritten (resetWord q))) ho' fun g hg => by
      rw [mem_gridsOf, modDie_grids] at hg
      obtain ⟨hg, hdie, hqueue⟩ := hg
      exact hover g hg hdie hqueue
    rw [qdesc_modDie s die hbase] at hdesc
    exact ⟨hstate, hdesc⟩

end Sys2Proof.QueueControl
end

section
/-! PROOF. The queue controls and the scheduler cores that fail or wait (R4, R305, R307 to R309, R325). -/

namespace Sys2Proof.QueueControl

/-- Settles O60: doorbells, starts, resets and their reports by what each writes of the queue's descriptor; a failing
scheduler core, the standby and the end of a wait by what each leaves of its die. -/
theorem queueControl : Obligations.QueueControl :=
  ⟨⟨doorbell, queueStarts, queueResets, queueResetReports⟩, standby, waitEnds⟩

end Sys2Proof.QueueControl
end

section
/-! PROOF. The reset of a hung array where a position has two records (R253). -/

namespace Sys2Proof.MatrixHang

open Sys2Proof.Machine Sys2Proof.Rules

/-! ### The state -/

/-- A k-step of plus-times under way since cycle 0: depth 16, operand A in slot 0, operand B from the elastic queue. -/
def queueMma : Mma :=
  { fn := 0, fmtA := 7, fmtB := 11, fs := 0, desc := 2 ^ 8 + 2 * 2 ^ 11 + 16 * 2 ^ 32, acc := 0, gang := (0, 0),
    members := [(0, 1)], next := 0, clr := false, cut := false, hold := false, readyAt := 0, began := true,
    early := [], tile := none, out := [], fl := 0 }

/-- Its operation, issued by the warp of the placed program. -/
def queueOp : Op :=
  { id := 1, uid := 0, die := 0, pos := 0, slot := 0, grid := 0, blk := 0, lanes := 1, l0 := 0, pc := 0, asid := 0,
    kind := .mma queueMma, after := [], bar := none, secs := [], cov := 1, stamp := 0, cyc := 0, dropped := false,
    mir := false, path := 1, laneBlk := [], gone := 0, kern := 0, fl := 0 }

/-- The placed program 65,536 cycles later, its core listed behind a second record of the same position on which nothing
is resident: `coreAt` finds that record, `warpOfUid` the warp of the other. -/
def doubled : State :=
  { State.reset with
    cores := [Core.fresh 0 0, placedCore 0], grids := [placedGrid State.reset], ops := [queueOp], nextId := 2,
    dies := updAt 0 (fun d => { d with cycles := 65536 }) State.reset.dies }

theorem kStepGoes_doubled : KStepGoes doubled 1 queueOp queueMma where
  memory := ⟨rfl, fun _ h => absurd h List.not_mem_nil⟩
  at_ := rfl
  kind := rfl
  running := ⟨rfl, rfl, rfl⟩
  whole := ⟨rfl, rfl, rfl, rfl⟩
  alone := fun _ h _ => List.mem_singleton.1 h
  here := by decide +kernel

/-! ### What the reset does there -/

/-- The fault records of die 0 that wait for the ring after an instruction. -/
def recordsAfter (i : Instr) (s : State) : Option (List (List Byte)) :=
  match exec i s with
  | .next t => some (dieOf t 0).fault.waiting
  | _ => none

theorem recordsAfter_eq {i : Instr} {s t : State} (h : exec i s = .next t) :
    recordsAfter i s = some (dieOf t 0).fault.waiting := by
  rw [recordsAfter, h]

/-- Emptying the queue (R253 step 2) replaces both records by the first, so the warp that was to raise the fault is gone
before step 3 looks for it. -/
theorem recordsAfter_doubled : recordsAfter (.arrayHangReset 1) doubled = some [] := by decide +kernel

/-- R253 step 3 fails where a position has two records: the reset of an operation that draws from the elastic queue posts
no record for its warp. -/
theorem not_hungArrayResets : ¬ HungArrayResets := by
  intro h
  obtain ⟨t, ht, -, e, he, -⟩ := (h doubled 1 queueOp queueMma kStepGoes_doubled).2 (by decide +kernel) 0 1 (placedCore 0)
    (Warp.start 0 0 0 (some 0) 0 [Thread.start 256 [] 0 0 0 0 0 false []]) (placedGrid State.reset) rfl rfl
    (by decide) rfl (by decide) rfl rfl
  have hnone : (dieOf t 0).fault.waiting = [] :=
    Option.some.inj ((recordsAfter_eq ht).symm.trans recordsAfter_doubled)
  exact List.not_mem_nil (hnone ▸ he)

/-- Refutes O13: R253's part speaks of every state, also of one that lists a position twice, and there a hung operation that
draws from the elastic queue is reset without the fault record of its warp. -/
theorem not_matrixSteps : ¬ Obligations.MatrixSteps :=
  fun ⟨_, _, h⟩ => not_hungArrayResets h

end Sys2Proof.MatrixHang
end
